-- ==== Sys2Proof/Word.lean ====
section
/-!
DEFINITION. Word.lean: the word types of the device. A register, a parameter or a ring word has 32 bits, a byte 8
(R10, R11, R14); everything the spec adds up, compares or counts is a `Nat` or an `Int`.
-/
namespace Sys2Proof

/-- A 32-bit register, parameter or ring word (R10). -/
abbrev Word := BitVec 32

/-- One byte of a ring entry, a frame or a transaction (R11). -/
abbrev Byte := BitVec 8

/-- A 16-bit field, such as an opcode or an event code. -/
abbrev Half := BitVec 16

/-- A word whose unsigned value is `n` modulo 2^32. -/
abbrev w32 (n : Nat) : Word := BitVec.ofNat 32 n

end Sys2Proof
end

