-- ==== Sys2Proof/Config.lean ====
section
/-!
DEFINITION. Config.lean: what the part, the firmware build or nothing at all fixes. Every constant here has no body, so
that no proof can rest on a value of it; log entries 3 and 4 name them.
-/
namespace Sys2Proof.Config

/-- HST_REV, set by the revision of each die (R66). -/
opaque hstRev : Word

/-- HST_FW_VER, set by the firmware build that runs (R66). -/
opaque hstFwVer : Word

/-- The serial number of DEV_INFO, set by the part (R66, R589). -/
opaque serial : BitVec 64

/-- A value the spec leaves open, fresh at every use: the argument is the state's counter of free values. -/
opaque freeWord : Nat → Word

/-- The words of a factory EMC constant set other than barley's, by grain and word (R377). -/
opaque emcFactory : Nat → Nat → Word

/-- The value of a 6-wire bridge in 0.001 mV/V (R139, R158), whose use of the sense channel's reading the spec does not give:
from the filter output, the gain and the value of the sense channel. -/
opaque bridge6 : Int → Nat → Int → Int

/-- The rms noise of a setting that R185 gives no figure for, in 0.01 µV: from rate and gain. -/
opaque noiseOpen : Nat → Nat → Nat

/-- The response to the group reference divider that a channel's calibration record stores (R156), in the raw units of curve 0:
from the channel, at zero (0) and at full scale (1). -/
opaque afeRef : Nat → Nat → Rat

/-- The temperature in 0.001 degrees that curve 50 takes while no temperature channel is named (R160). -/
opaque tempNone : Int

/-- What a field shows of a computed value it cannot hold: a result that gain and offset carry beyond 24 bits (R163), a
negative density (R214). -/
opaque valueOver : Int → Int

/-- What an infinity or a NaN in a coefficient counts as (R159, R160, R206), from its word. -/
opaque openFloat : Word → Rat

/-- The words of a factory moisture calibration the spec does not print, by grain and word (R212). -/
opaque dlxFactory : Nat → Nat → Word

/-- The result of an operation the spec gives no value for, such as a division by zero, from its operand. -/
opaque openRat : Rat → Rat

/-- A coefficient of the column model and its observer (R372), whose numbers the spec does not print: from what the model
is built for (grain, set-point in 0.001 degrees, hold in kg, mg per roll pulse, roll speed in mHz, probe layers) and the
coefficient's index, its value and its shift. -/
opaque colCoef : List Int → Nat → Word × BitVec 5

/-- The phase code a valve channel shows while it regulates at its safe current, which the spec does not give (R279). -/
opaque safeSetPhase : BitVec 8

/-- The worst-case length in ns of an FD frame (R413 gives a formula for classical frames only): from the extended
flag, the bit-rate switch, the DLC and the bit timings of the two phases: prescaler, quanta, sample point (R399). -/
opaque fdFrameNs : Bool → Bool → Nat → Nat × Nat × Nat → Nat × Nat × Nat → Nat

/-- The check of a Vadric signature over a firmware image (R93), whose form the spec does not give: the version of a
correctly signed image, none for any other. -/
opaque fwImage : List (BitVec 8) → Option Word

/-- The factory value V3F of the PL3 voltage in mV (R534). -/
opaque v3Factory : Nat

/-- The private key of the part (R553): set at Vadric's test, read by nothing. -/
opaque privateKey : BitVec 256

/-- The identity certificate of the part (R554). -/
opaque certificate : List (BitVec 8)

end Sys2Proof.Config
end

