-- ==== Sys2Proof/Kinds.lean ====
section
/-!
DEFINITION. Kinds.lean: the types of the commands' operands: what names a live command, and what the field wiring, the
supplies, the clocks, the bus and the satellites bring to the device with an event.
-/
namespace Sys2Proof

/-- What names a live command: a host tag (0-255, R83) or a remote tag of a bus channel (R101). Remote tags end at 31; the
field that carries one is a byte, so that a refused entry can be named too (R591). -/
inductive CmdId where
  | host (tag : Byte)
  | remote (ch : Fin 2) (tag : Byte)
  deriving DecidableEq, Repr

/-- What a conversion window found (R141, R179, R181, R184): the bit the channel's modulator gave in each MCLK period of the
window, oldest first; whether its comparator showed the input beyond full scale; whether the pulse test rose above 50 mV;
and the break condition a monitor showed, by the causes of R189. -/
structure AfeSample where
  bits : List Bool
  overWindow : Bool
  pulseRise : Bool
  fault : Option (Fin 5)
  deriving DecidableEq, Repr

/-- An edge on a blanking input (R174): its new level, so many MCLK periods after the tick's edge. -/
structure BlankEdge where
  level : Bool
  period : Fin 8000
  deriving DecidableEq, Repr

/-- What the group spare found in its 40 ms slot (R152, R155): the voltage between the EXnnA land and AInnP in µV; its mean in
the raw units of curve 0; and which of the two fails against the group reference divider. -/
structure SpareSample where
  leadUv : Int
  mean : Int
  channelFails : Bool
  spareFails : Bool
  deriving DecidableEq, Repr

/-- What DXE measured at one sweep point (R195, R219): the current I into the drive land and the voltage V, each as real and imaginary
binary32 fractions of the detector's full scale at 0 dB; the guard driver 20 µs at its limit; and the two synthesisers
disagreeing. -/
structure SweepPoint where
  iRe : Word
  iIm : Word
  vRe : Word
  vIm : Word
  guardLimit : Bool
  synthDiffers : Bool
  deriving DecidableEq, Repr

/-- What the reference check of DXS and one primary path found (R220): a difference above 0.5 % at 10 MHz, and which of
the two fails at 1 MHz and 40 MHz. -/
structure DxsCheck where
  differs : Bool
  primaryFails : Bool
  spareFails : Bool
  deriving DecidableEq, Repr

/-- What a frame of the Lift carries (R108, R109, R110, R120): a rotation slot, APPLY, SAFE, RELEASE, KEEPALIVE, SAFE_REPORT, or
the mask frame of an urgent or ordinary code. -/
inductive LiftFrame where
  | rot (slot : Fin 64)
  | apply
  | safe
  | release
  | keepalive
  | report
  | urg (code : Fin 5)
  | evt (code : Fin 8)
  deriving DecidableEq, Repr

/-- The band of a wire-break sample by its current (R235); `kept` is a current between two bands. -/
inductive WireBand where
  | broken
  | open_
  | closed
  | kept
  deriving DecidableEq, Repr

/-- A 10 µs sample of a pin's cell (R231, R235): the level before inversion, and the current into a DIN_WB pin in µA. -/
structure PinSample where
  level : Bool
  uA : Nat
  deriving DecidableEq, Repr

/-- A frame of a bus channel (R398, R408): identifier, extended, FD, bit-rate switch, ESI, remote, DLC and data; and how
long ago its start-of-frame sample point was, in PCLK periods of 12.5 ns (R400). -/
structure BusFrame where
  id : BitVec 29
  xtd : Bool
  fdf : Bool
  brs : Bool
  esi : Bool
  rtr : Bool
  dlc : Fin 16
  data : List Byte
  sofAgo : Nat
  deriving DecidableEq, Repr

/-- An error of a bus frame (R412, R414): its kind (0 bit, 1 stuff, 2 form, 3 CRC, 4 acknowledgement); a dominant bit
where ISO 11898-1 looks for one (at a receiver the first bit after its error flag, at a transmitter during its passive
error flag); and an error that its exceptions keep out of the counters (a stuff error within arbitration). -/
structure BusError where
  kind : Fin 5
  dominant : Bool
  exempt : Bool
  deriving DecidableEq, Repr

/-- How a transmission attempt ends (R412). -/
inductive TxOutcome where
  | sent
  | arbLost
  | error (e : BusError)
  deriving DecidableEq, Repr

/-- One band of a tracking channel at a measurement epoch (R450-R454): what the loops and the multipath estimator measured.
Pseudorange in 2^-10 m before the multipath correction and fitted code-phase error in cm; carrier phase in 2^-16 cycle,
Doppler in mHz, C/N0 in 0.01 dB-Hz, deviations in cm and 0.001 cycle, and the indicator; the code loop discriminator in
0.001 chip and the phase lock indicator in 0.001 at each ms since the last epoch, oldest first, and the jump of the phase
since then in 0.001 cycle. -/
structure GnsMeas where
  ch : Fin 32
  band : Fin 2
  signal : Fin 256
  range : Int
  phase : Int
  doppler : Int
  cn0 : Nat
  rangeSigma : Nat
  phaseSigma : Nat
  mpErr : Int
  mpInd : Fin 16
  loops : List (Int × Nat)
  jump : Int
  halfCycle : Bool
  inSolution : Bool
  residual : Bool
  deriving DecidableEq, Repr

/-- A satellite the residual test excluded (R458): system, number and residual in 0.1 m. -/
structure GnsExcl where
  system : Fin 3
  sv : Fin 64
  residual : Nat
  deriving DecidableEq, Repr

/-- The time solution that the satellites' signals give at an epoch (R456-R459, R465): e in 0.1 ns as the pseudoranges give
it before `GNS_ANT_DELAY` is subtracted from them, against the receiver clock term, and what each system's offset and UTC
parameters add to it (R457); frequency offset in 0.001 ppb, solved position in cm with the deviation of the survey's mean,
satellites and those with both bands, systems, time DOP, deviation in 0.01 ns, whether the residuals pass in the end, who was
excluded, TAI - UTC as each system broadcasts it, and the holdover fit: y0 and sigma_y in 0.001 ppb, a in 10^-18 per s, c and
sigma_theta in 0.001 ppb/K. -/
structure GnsSol where
  e : Int
  sysOfs : Vector Int 3
  freq : Int
  pos : Vector Int 3
  surveySigma : Nat
  sats : Nat
  dual : Nat
  systems : Nat
  tdop : Nat
  sigmaT : Nat
  passes : Bool
  excluded : List GnsExcl
  utc : Vector (Option Int) 3
  fitY0 : Int
  fitA : Int
  fitC : Int
  fitSigmaY : Nat
  fitSigmaTheta : Nat
  deriving DecidableEq, Repr

/-- A satellite GAE found in a capture (R473). -/
structure SnapSat where
  system : Fin 3
  sv : Fin 64
  signal : Fin 256
  codePhase : Nat
  doppler : Int
  cn0 : Nat
  deriving DecidableEq, Repr

/-- A navigation unit received (R448, R455): channel, signal, length in bits, the bits most significant first as bytes,
whether it passed its check and the DT of its last bit's end in ns. -/
structure NavUnit where
  ch : Fin 32
  signal : Fin 256
  bits : Nat
  data : List Byte
  passed : Bool
  dt : Nat
  deriving DecidableEq, Repr

/-- What Patrol reads in a housekeeping round (R515): the six control-die sensors in 0.01 °C, VLOG in mV, the three
references as deviations from their factory values in ppm, and ROOT in kHz; and the single-bit errors that ECC has corrected since
the round before, in main SRAM and in flash (R518). -/
structure HouseRound where
  temps : Vector Int 6
  vlogMv : Nat
  refs : Vector Int 3
  rootKhz : Nat
  sramFixed : Nat
  flashFixed : Nat
  deriving DecidableEq, Repr

/-- What a Grooming pass measured (R532, R534, R536): slowdown in 0.01 % of the domains D1 to D4 and D7; the largest
on-resistance drift in 0.1 % with its object (0 pin switch, 1 low side, 2 HSn), the objects whose trim would leave its range and
those whose on-resistance exceeds its figure; the largest reference deviation in ppm; the TCXO offset in 0.001 ppb; eyes in
percent, chosen phases and widest open runs, up and down; the highest program time in 0.1 µs, corrections per 10⁶ words over the
arrays and in each of the eight partitions of R28, and the highest erase count; and at the boot pass each
sensor's difference from the median of its die in 0.01 K. -/
structure GroomPlan where
  slow : Vector Int 5
  drift : Nat
  driftType : Fin 3
  driftIndex : Byte
  trimsOut : List (Fin 3 × Byte)
  resistOut : List (Fin 3 × Byte)
  refPpm : Nat
  tcxo : Int
  eyeUp : Nat
  eyeDown : Nat
  phaseUp : Fin 32
  phaseDown : Fin 32
  openUp : Nat
  openDown : Nat
  progTime : Nat
  corrections : Nat
  rates : Vector Nat 8
  eraseCount : Nat
  offsets : Option (Vector Int 14)
  deriving DecidableEq, Repr

/-- The objects that fail the field die's self-test (R494), by number: pins, valve channels, modulators, high-side switches,
excitation sources; the measurement channels whose calibration record fails its check (R170); and the storage of paired
words. -/
structure FieldTest where
  pins : BitVec 64
  valves : BitVec 16
  mods : BitVec 32
  highs : BitVec 8
  excs : BitVec 32
  uncal : BitVec 32
  pairStore : Bool
  deriving DecidableEq, Repr

end Sys2Proof
end

