-- ==== Sys2Proof/Machine/Bits.lean ====
section
/-!
DEFINITION. Machine/Bits.lean: bit fields, byte order (R11), checksums (R59, R105, R94) and the small arithmetic on
signed and fixed-point values that every block shares.
-/
namespace Sys2Proof.Machine

/-- Field [msb:lsb] of a natural number, `n` bits from `lo` (R10). -/
def fld (x lo n : Nat) : Nat := (x >>> lo) % 2 ^ n

/-- Bit `k` of a natural number. -/
def bitOf (x k : Nat) : Bool := (x >>> k) % 2 == 1

/-- 1 for true, 0 for false: a BOOL in a word (R14). -/
def b2n (b : Bool) : Nat := if b then 1 else 0

/-- A word whose bit `k` is `f k`, for `k` below `n`. -/
def packBits (n : Nat) (f : Nat → Bool) : Nat :=
  (List.range n).foldl (fun a k => a + b2n (f k) * 2 ^ k) 0

/-- `n` bytes of `x`, least significant first (R11). -/
def le : (n : Nat) → (x : Nat) → List Byte
  | 0, _ => []
  | n + 1, x => BitVec.ofNat 8 x :: le n (x / 256)

/-- The number that bytes spell, least significant first (R11). -/
def de : List Byte → Nat
  | [] => 0
  | b :: bs => b.toNat + 256 * de bs

/-- `n` bytes of `x`, most significant first, as the host link sends a word (R11, R57). -/
def beBytes (n x : Nat) : List Byte := (le n x).reverse

/-- The number that bytes spell, most significant first. -/
def deBig (bs : List Byte) : Nat := de bs.reverse

/-- Bytes `lo` to `lo + n - 1` of a list as a little-endian number; missing bytes are 0. -/
def field (bs : List Byte) (lo n : Nat) : Nat := de ((bs.drop lo).take n)

/-- Byte `k` of a list as a number; 0 past its end. -/
def byteAt (bs : List Byte) (k : Nat) : Nat := (bs.getD k 0).toNat

/-- A list cut or filled with zero bytes to `n` bytes. -/
def padTo (n : Nat) (bs : List Byte) : List Byte := (bs ++ List.replicate n 0).take n

/-- The words of a byte string, least significant byte first; a short last word is filled with zeros (R94). -/
def wordsOf : Nat → List Byte → List Word
  | 0, _ => []
  | n + 1, bs => w32 (de (bs.take 4)) :: wordsOf n (bs.drop 4)

/-- The bytes of a list of words, least significant byte first. -/
def bytesOf (ws : List Word) : List Byte := ws.flatMap fun w => le 4 w.toNat

/-- Two's-complement value of the low `n` bits of `x` (R12). -/
def sext (n x : Nat) : Int :=
  let y := x % 2 ^ n
  if y < 2 ^ (n - 1) then (y : Int) else (y : Int) - 2 ^ n

/-- The signed value of a word (R12). -/
def sw (w : Word) : Int := w.toInt

/-- The `n`-bit two's-complement code of an integer (R12). -/
def toBits (n : Nat) (x : Int) : Nat := (x % (2 ^ n : Int)).toNat

/-- An integer as a 32-bit word (R12). -/
def iw (x : Int) : Word := w32 (toBits 32 x)

/-- An integer held to lie between two bounds. -/
def clampI (lo hi x : Int) : Int := if x < lo then lo else if hi < x then hi else x

/-- A count that stops at a maximum. -/
def satAdd (x n top : Nat) : Nat := if x + n < top then x + n else top

/-- Division of integers rounded to the nearest, ties away from zero. -/
def divRound (a : Int) (b : Int) : Int :=
  if b = 0 then 0
  else
    let q := (2 * a.natAbs + b.natAbs) / (2 * b.natAbs)
    if (a < 0) == (b < 0) then (q : Int) else -(q : Int)

/-- One step of a most-significant-bit-first CRC-16 with polynomial 0x1021 (R59). -/
def crc16Step (c : Nat) (bit : Bool) : Nat :=
  let c2 := (c * 2) % 65536
  if bitOf c 15 == bit then c2 else c2 ^^^ 0x1021

/-- One byte through the CRC-16 of R59. -/
def crc16Byte (c : Nat) (b : Byte) : Nat :=
  [7, 6, 5, 4, 3, 2, 1, 0].foldl (fun c k => crc16Step c (bitOf b.toNat k)) c

/-- The CRC-16 of R59: polynomial 0x1021, preset 0xFFFF, no reflection, no final inversion. -/
def crc16 (bs : List Byte) : Nat := bs.foldl crc16Byte 0xFFFF

/-- One byte through the reflected CRC-32 of IEEE 802.3 (R94). -/
def crc32Byte (c : Nat) (b : Byte) : Nat :=
  [0, 1, 2, 3, 4, 5, 6, 7].foldl
    (fun c _ => if c % 2 == 1 then (c / 2) ^^^ 0xEDB88320 else c / 2) (c ^^^ b.toNat)

/-- CRC-32 of IEEE 802.3 (R94). -/
def crc32 (bs : List Byte) : Nat := (bs.foldl crc32Byte 0xFFFFFFFF) ^^^ 0xFFFFFFFF

/-- One step of the PRBS-7 of R105, x^7 + x^6 + 1: the register shifts up and takes the sum of its bits 6 and 5. -/
def prbs7Step (r : Nat) : Nat := ((r * 2) % 128) + b2n (bitOf r 6 != bitOf r 5)

/-- The first `n` bits of the PRBS-7 sequence from a register, first bit most significant (R105). The bit put out is bit 6 of the
register before its step, so the sequence begins with the preset's seven ones (log entry 156). -/
def prbs7 : (n : Nat) → (r acc : Nat) → Nat
  | 0, _, acc => acc
  | n + 1, r, acc => prbs7 n (prbs7Step r) (acc * 2 + b2n (bitOf r 6))

/-- The scrambling pattern of bits [111:0], register preset to 0x7F at bit 111 (R105). -/
def scramble : Nat := prbs7 112 0x7F 0

/-- The value of an association list at a key, or a default. -/
def alGet {α : Type} (xs : List (Nat × α)) (k : Nat) (dflt : α) : α :=
  match xs with
  | [] => dflt
  | (j, x) :: rest => if j = k then x else alGet rest k dflt

/-- An association list with a key's value set; the key keeps its place, a new key goes to the end. -/
def alSet {α : Type} (xs : List (Nat × α)) (k : Nat) (v : α) : List (Nat × α) :=
  match xs with
  | [] => [(k, v)]
  | (j, x) :: rest => if j = k then (j, v) :: rest else (j, x) :: alSet rest k v

/-- An association list without a key. -/
def alDel {α : Type} (xs : List (Nat × α)) (k : Nat) : List (Nat × α) := xs.filter fun p => p.1 != k

/-- The elements of a vector with their indexes, lowest first. -/
def vIdx {α : Type} {n : Nat} (v : Vector α n) : List (Fin n × α) :=
  (List.finRange n).map fun i => (i, v.get i)

/-- A vector with one element changed by a function. -/
def vMod {α : Type} {n : Nat} (v : Vector α n) (i : Fin n) (f : α → α) : Vector α n :=
  v.set i (f (v.get i))

/-- The element of a vector at a number, or a default past its end. -/
def vAt {α : Type} {n : Nat} (v : Vector α n) (i : Nat) (dflt : α) : α :=
  if h : i < n then v.get ⟨i, h⟩ else dflt

/-- A vector with the element at a number changed; unchanged where the number lies past its end. -/
def vModN {α : Type} {n : Nat} (v : Vector α n) (i : Nat) (f : α → α) : Vector α n :=
  if h : i < n then vMod v ⟨i, h⟩ f else v

/-- The largest power of two that is not above the square root of `n`, by Newton steps: the floor of the square root. -/
def isqrtGo : (fuel : Nat) → (n x : Nat) → Nat
  | 0, _, x => x
  | fuel + 1, n, x =>
    let y := (x + n / x) / 2
    if y < x then isqrtGo fuel n y else x

/-- Floor of the square root. -/
def isqrt (n : Nat) : Nat := if n = 0 then 0 else isqrtGo 200 n n

end Sys2Proof.Machine
end

