-- ==== Sys2Proof/Machine/StBase.lean ====
section
/-!
DEFINITION. Machine/StBase.lean: the state of the chapters 01 and 02: ticks, the Start Gate, the host window, the
queues, the commands taken and the parameter store. Plain data only.
-/
namespace Sys2Proof.Machine

/-- An event waiting at the Start Gate: an event record of R96 without its bib. `dt` is the timestamp in ns. -/
structure EvRec where
  code : Nat
  path : Nat
  dt : Nat
  time : Nat
  data : List Byte
  deriving DecidableEq, Repr

/-- A completion waiting at port 5 (R33, R82). `dup` is DUP of R84, for an entry that never became a live tag. -/
structure Completion where
  id : CmdId
  ring : Fin 4
  slot : Nat
  opcode : Nat
  target : Nat
  status : Nat
  detail : Nat
  dup : Bool
  superseded : Bool
  result : List Byte
  deriving DecidableEq, Repr

/-- What waits at a Start Gate port (R30). -/
inductive GateItem where
  | ev (e : EvRec)
  | comp (c : Completion)
  deriving DecidableEq, Repr

/-- An admitted event with its bib (R30), as the on-chip event buffer keeps it (R77). -/
structure Admitted where
  bib : Word
  ev : EvRec
  deriving DecidableEq, Repr

/-- The events Q8 has lost since it was full (R77): first and last bib and the count. -/
structure Loss where
  first : Word
  last : Word
  count : Nat
  raised : Bool
  deriving DecidableEq, Repr

/-- The Start Gate (R30, R39, R40, R77). `ports` lists what each of the eight ports holds, oldest first; the first 32
are the port's queue and the rest is what its sources hold back. -/
structure GateSt where
  ports : Vector (List GateItem) 8
  bib : Word
  wrap : Word
  buffer : List Admitted
  loss : Option Loss
  deriving DecidableEq, Repr

/-- Ticks and their DT (R24, R439). `dtFs` is DT in femtoseconds, `steer` the steering value in
10^-12 s per s, `nextDt` the DT the next TICK edge will find, `edges` the recorded DT of the latest tick edges, newest first. -/
structure TimeSt where
  tick : Nat
  dtFs : Int
  steer : Int
  tickDt : Int
  nextDt : Int
  edges : List (Nat × Int)
  running : Bool
  deriving DecidableEq, Repr

/-- The host window's own registers and pins (R63-R66, R97, R100). -/
structure HostSt where
  hrdy : Bool          -- the window accepts transactions; HRDYn is its inverse (R64)
  resetSeen : Bool     -- the next transaction is the first since reset (R63)
  crcErr : Bool        -- of the previous transaction (R63)
  frameErr : Bool
  addrErr : Bool
  crcCount : Nat       -- HST_LINK_ERRS [31:16]
  faCount : Nat        -- HST_LINK_ERRS [15:0]
  wakeFail : Bool      -- HST_BOOT_STATUS [31]
  limp : Bool          -- [30]
  layoutErr : Bool     -- [29]
  imgErr : Bool        -- [28]
  bootMode : Nat       -- [21:20]
  fwBank : Bool        -- [16]
  stage : Nat          -- [15:8]
  cause : Nat          -- [7:0]
  loaderNext : Bool    -- HST_BOOT_CTRL [1] held for the next reset
  dtHi : Word          -- latched by a read of HST_DT_LO
  tickHi : Word
  winPage : Nat        -- HST_WIN_PAGE [1:0]
  snapPage : Nat       -- HST_SNAP_PAGE [2:0]
  scratch : Word
  intStatus : Word
  intEnable : Word
  miso : List Byte     -- the bytes the device sent in the last transaction (R57, R58)
  heard : Bool         -- a good transaction has arrived since reset, so silence is counted (R100)
  silent : Bool
  rmbSilent : List Nat -- remote commanders counted silent: 8 * channel + commander (R100, R435)
  rmbHeard : List Nat  -- remote commanders heard since reset, whose silence is counted (R100)
  badWords : List Nat  -- word offsets of the queue region with an uncorrectable error (R518)
  fieldMir : Vector Word 64
  healthMir : Vector Word 64
  deriving DecidableEq, Repr

/-- The registers of one queue (R69), and `aged`: its oldest unconsumed entry has been found older than IRQ_TIME (R68). -/
structure Ring where
  base : Nat
  size : Nat
  head : Nat
  tail : Nat
  en : Bool
  irqTime : Nat
  irqCount : Nat
  cfgErr : Bool
  dbErr : Bool
  aux : Nat
  aged : Bool
  deriving DecidableEq, Repr

/-- Something a device-produced ring is to hold: one entry's bytes (R71). Completions carry the slot reserved for them; `part` is
the device's own bytes 96-127 of a bus transmit entry, of which the host writes the rest (R409). -/
inductive RingWrite where
  | push (q : Nat) (bytes : List Byte)
  | at (q slot : Nat) (bytes : List Byte)
  | part (q slot ofs : Nat) (bytes : List Byte)
  deriving DecidableEq, Repr

/-- How far a command has come (R86): taken and not started; started and cancellable; begun to apply; completed, its
tag live until the host consumes the completion (R83). -/
inductive CmdPhase where
  | taken
  | waiting
  | begun
  | done
  deriving DecidableEq, Repr

/-- A command entry the device has taken (R81), whole. `commander` is 0 for the host and 1 + 8 * channel + commander
for a remote one; `note` is what the command's own chapter keeps with it while it waits. -/
structure Cmd where
  id : CmdId
  ring : Fin 4
  commander : Nat
  flags : Nat
  opcode : Nat
  target : Nat
  length : Nat
  timeout : Nat
  batchId : Nat
  payload : List Byte
  slot : Nat
  dup : Bool
  phase : CmdPhase
  written : Bool
  note : Nat
  deriving DecidableEq, Repr

/-- Where a waiting parameter value applies: the natural boundary of its block (R88, R89 and each chapter's own
boundary rule). -/
inductive Boundary where
  | tick                     -- the next TICK edge
  | mark                     -- the next downlink MARK slot (R134)
  | fieldMark                -- the first downlink MARK after the field die holds the value (R265, R300)
  | fieldApply               -- the next APPLY after receipt of the pair (R123)
  | tickSet                  -- the tick apply (R265, R300)
  | convEnd (ch : Fin 32)    -- the channel's next conversion end (R187)
  | dlxCycle                 -- the next sweep cycle start (R199, R225)
  | profile (vd : Fin 16)    -- the start of the next profile (R300)
  | dither (vd : Fin 16)     -- the next dither period (R300)
  | gate (li : Fin 64)       -- the instance's next gate (R304, R354)
  | svcStep                  -- the next service step (R358)
  | aerEval                  -- the next evaluation of aeration (R395)
  | busIdle (ch : Fin 2)     -- the first bus idle (R436)
  | basicCycle (ch : Fin 2)  -- the next basic cycle (R436)
  | gnsEpoch                 -- the next measurement epoch (R478)
  | pulse                    -- the next time pulse (R478)
  | round                    -- the next housekeeping round (R550)
  | enrol                    -- the next `ID_ENROL` (R565)
  deriving DecidableEq, Repr

/-- A parameter value that waits for its boundary (R88, R89). `left` is the number of downlink frames that must still
carry it to the field die; `cmds` is the command it completes, if any. A PAIRED value's words are V then C of each
pair. -/
structure Wait where
  addr : Nat
  words : List Word
  bnd : Boundary
  left : Nat
  cmd : Option CmdId
  deriving DecidableEq, Repr

/-- The words of a parameter that has been written, and the tick of its last change (R93). -/
structure PEntry where
  words : List Word
  tick : Nat
  deriving DecidableEq, Repr

/-- One PAIRED parameter in main SRAM (R44): value and complement words of the primary and the shadow, the write count
GEN modulo 4 (R123), the persistent pair in data flash where it has one, and whether its last valid copy was lost (R51). -/
structure Pair where
  prim : List (Word × Word)
  shad : List (Word × Word)
  flash : Option (List (Word × Word))
  gen : Nat
  lost : Bool
  tick : Nat
  deriving DecidableEq, Repr

/-- A PAIRED word on the field die (R52, R123): active and shadow pair, GEN, and a pair received and not yet applied. -/
structure FieldPair where
  act : Word × Word
  shad : Word × Word
  gen : Nat
  pend : Option (Word × Word × Nat)
  deriving DecidableEq, Repr

/-- A write held in a batch (R90). -/
structure Held where
  addr : Nat
  words : List Word
  deriving DecidableEq, Repr

/-- An open batch (R90, R91). `commit` is the `CFG_COMMIT` that waits for the TICK edge. -/
structure Batch where
  id : Nat
  writes : List Held
  failed : Bool
  commit : Option CmdId
  deriving DecidableEq, Repr

/-- A BLOB being assembled from chunks (R594). -/
structure Assembly where
  addr : Nat
  commander : Nat
  bytes : List Byte
  deriving DecidableEq, Repr

/-- A configuration image slot of data flash (R93, R94): the bytes stored, whether the slot is open for writing and the
length given at `IMG_OPEN`, and the header copy of main SRAM that `IMG_INFO` reads. -/
structure ImgSlot where
  bytes : List Byte
  opened : Option Nat
  closed : Bool
  header : List Byte
  deriving DecidableEq, Repr

/-- The inactive code-flash bank while firmware is written to it (R93). -/
structure FwSt where
  opened : Option Nat
  bytes : List Byte
  checked : Bool
  nextBank : Bool
  deriving DecidableEq, Repr

/-- Commands, parameters, batches and images (02). `nextId` is the BATCH_ID given next. `q23` is true when Q3 comes
before Q2 in the alternation of R79, and `lane` bit r true when the remote lane of ring r comes first. -/
structure CmdSt where
  live : List Cmd
  resv : Vector Nat 4
  remoteLane : Vector (List (Nat × List Byte)) 4
  q23 : Bool
  laneTurn : Vector Bool 4
  params : List (Nat × PEntry)
  pairs : List (Nat × Pair)
  waits : List Wait
  batches : List Batch
  discarded : List Nat
  nextId : Nat
  blobs : List Assembly
  slots : Vector ImgSlot 2
  fw : FwSt
  reads : List (List Word × Nat) -- words and tick of last change of every READ parameter at the last TICK edge (R93)
  deriving DecidableEq, Repr

end Sys2Proof.Machine
end

