-- ==== Sys2Proof/Machine/StAfe.lean ====
section
/-!
DEFINITION. Machine/StAfe.lean: the state of the sensor front end (04).
-/
namespace Sys2Proof.Machine

/-- How far the substitution of a channel's modulator has come (R156): none; declared, the spare not yet behind the
channel; the spare settling, with the time left in µs; calibrating with fresh values; calibrated; or a second fault of
the group, after which the channel delivers nothing (R157). -/
inductive SubStep where
  | none
  | declared
  | settling (us : Nat)
  | calibrating
  | calibrated
  | dead
  deriving DecidableEq, Repr

/-- What one half of a conversion period gives a place of the decimation filter (R141, R144, R175): the weighted sum of the samples
taken, the weights of those, and the weights of all. -/
structure FiltPart where
  sum : Int
  taken : Nat
  all : Nat
  deriving DecidableEq, Repr

/-- A conversion window as the filter leaves it (R141, R175): the filter output, where a sample was taken; the samples not taken
and those of the period; and what the analogue monitors showed. -/
structure AfeWindow where
  raw : Option Int
  missed : Nat
  len : Nat
  overWindow : Bool
  pulseRise : Bool
  fault : Option (Fin 5)
  deriving DecidableEq, Repr

/-- What a guard driver does (R177, R178, R193): high-impedance, GNDF, the RF buffer, the fixed 2.5 V, a channel's P land or the
middle of a channel's pair. -/
inductive GuardDrive where
  | off
  | ground
  | rf
  | fixed
  | land (ch : Nat)
  | mid (ch : Nat)
  deriving DecidableEq, Repr

/-- One measurement channel (04). The first group is held on the field die, the second on the control die. -/
structure AfeCh where
  on : Bool              -- enabled and converting
  seq : Nat              -- SEQ of R165, modulo 16
  settled : Int          -- last settled value (R147)
  settleUs : Nat         -- settling time left (R145)
  setting : Nat          -- the setting of R150 in force on the field die
  restart : Bool         -- the next conversion end is a restart (R145)
  hist : List (List (List FiltPart))  -- filter history: windows newest first, each by halves and places (R141)
  recent : List (Nat × Int)  -- filter outputs of the last 20 ms with their ticks, newest first (R155)
  winFrom : Nat          -- tick edge the present window, or the first of the tick's, starts at (R143)
  winTick : Nat          -- tick of the latest window end
  winCnt : Nat           -- window ends of that tick so far
  abandoned : Bool       -- the present window was abandoned by a break (R180)
  brk : Option Nat       -- a break is active, with its cause (R179-R183)
  excOff : Bool          -- excitation off by a stop or step F4 (R169)
  swapped : Bool         -- second half of the period: input pair reversed (R144)
  leads : List Nat       -- last three lead measurements in mΩ, newest first (R152)
  rLead : Option Nat     -- lead resistance in use in mΩ
  leadNext : Option Nat  -- taken into use at the next conversion end
  leadTurn : Bool        -- the next slot is a shadow check (R154)
  leadCmd : List CmdId   -- each AFE_LEAD_NOW that waits for its slot (R188)
  shadow : Nat           -- consecutive failed shadow checks (R155)
  sub : SubStep
  conv : Option Nat      -- the unit of R550 that converts the channel instead of its own modulator (R527)
  refCnt : Nat           -- half-conversions of the calibration so far (R156)
  refs : List Rat        -- reference measurements of the calibration, newest first
  fit : Option (Rat × Rat)  -- gain and offset fitted to them
  word : Option (Word × Nat)  -- latest result word in the uplink slot and the tick of its window
  wordOfs : Nat          -- µs from that tick's edge to the window's end
  depWhy : Option (Nat × Nat × Bool)  -- its dependency's fault: channel, status, and whether it made the result non-OK (R164)
  overHigh : Bool        -- the side the latest result was over range on (R184, R189)
  uncal : Bool           -- calibration record failed at boot (R170)
  result : Word          -- AFE_RESULT, on the control die
  resTick : Nat          -- full tick number of the last result received
  rcvSeq : Option Nat    -- SEQ of the last result received
  stale : Bool           -- STALE episode (R168)
  cdBroken : Bool        -- break episode known to the control die, until the first settled result
  brkSaid : Bool         -- EV_AFE_BROKEN raised since the last word without BROKEN (R182)
  cdOver : Bool
  cdDep : Bool           -- dependency episode reported (R164)
  lastSettled : Word     -- last settled result word (R189)
  breaks : Nat           -- AFE_BREAKS
  streamCnt : Nat        -- results since the last streamed one (R173)
  deriving DecidableEq, Repr

/-- One channel group (04): the channel of the group the spare serves as a substitute, the unit of R550 that is the spare
where it is no longer the group's own, whether the spare is unavailable, and the channel its round served last. -/
structure AfeGroup where
  serves : Option (Fin 8)
  spare : Option Nat
  unavailable : Bool
  pos : Nat
  deriving DecidableEq, Repr

/-- One blanking input: its level, whether it has been declared stuck, and its changes of level of the last 100 ms with the
MCLK period they fell in, counted from tick 0, newest first (R174, R176). -/
structure BlkSt where
  level : Bool
  stuck : Bool
  edges : List (Nat × Bool)
  deriving DecidableEq, Repr

/-- The front end (04): channels, groups and the two blanking inputs. -/
structure AfeSt where
  ch : Vector AfeCh 32
  grp : Vector AfeGroup 4
  blk : Vector BlkSt 2
  deriving DecidableEq, Repr

end Sys2Proof.Machine
end

