-- ==== Sys2Proof/Machine/StBus.lean ====
section
/-!
DEFINITION. Machine/StBus.lean: the state of the message bus (10): two channels with their error counters, transmit
entries and time service, the roster and the remote mailbox.
-/
namespace Sys2Proof.Machine

/-- What a frame to be sent holds (R408, R409). -/
structure TxMsg where
  id : Nat
  xtd : Bool
  fdf : Bool
  brs : Bool
  rtr : Bool
  dlc : Nat
  data : List Byte
  deriving DecidableEq, Repr

/-- A transmit ring entry the device has taken (R410): its ring index, whether it is one-shot, the starts of
transmission so far and the DT of the last, whether it heads the order after bus-off (R416), whether it waits for the next
ARB cell (R421) and whether its STATUS is written. -/
structure TxEntry where
  idx : Nat
  msg : TxMsg
  oneShot : Bool
  attempts : Nat
  dt : Nat
  head : Bool
  skip : Bool
  done : Bool
  deriving DecidableEq, Repr

/-- A frame of the device's own (R413): its user (0 roster, 1 mailbox, 2 time information) and its content. -/
structure Inner where
  user : Nat
  msg : TxMsg
  head : Bool
  deriving DecidableEq, Repr

/-- Rate detection in progress (R404): the command, dwell and APPLY, the candidate pair, the good frames in a row, BRS
seen among them and the tick it began at. -/
structure RateDetect where
  cmd : CmdId
  dwellMs : Nat
  apply : Bool
  pair : Nat
  good : Nat
  brs : Bool
  start : Nat
  deriving DecidableEq, Repr

/-- Time service of a channel in TT mode (R421-R428). `state` is that of `BUS_STATE`: 0 off, 1 unsynchronised, 2 slave,
3 master. `cell` is the cell in progress: 0 none or FREE, 1 EXCL, 2 ARB, 3 time information. -/
structure TtSt where
  state : Nat
  role : Nat           -- last role raised: 0 slave, 1 master, 2 backup, 3 none
  prio : Nat           -- priority of the master in force
  take : Bool          -- sends its own reference at the next aligned instant (R427)
  serve : Bool         -- cells are served
  cycle : Nat
  matrix : Nat
  col : Nat
  cell : Nat
  excl : Option Nat    -- the scheduled object whose frame waits to start or is on the bus
  missed : Nat         -- column mask of the matrix cycle in progress
  lastRef : Option Int -- DT of the last reference mark in fs
  disc : Bool          -- a DT step since the last reference
  ofs : Int            -- BUS_TIME_OFS in ns
  ofsTq : Nat          -- the master's time quality with it
  deriving DecidableEq, Repr

/-- A bus channel. `tec` and `rec_` are the counters of ISO 11898-1; `flt` is 0 active, 1 passive, 2 bus-off; `stats` are
the eight counts of `BUS_STATS`; `sent` is the last frame sent. -/
structure BusCh where
  tec : Nat
  rec_ : Nat
  flt : Nat
  down : Bool
  noAck : Bool
  acks : Nat
  offs : Nat
  stats : Vector Nat 8
  txq : List TxEntry
  inner : List Inner
  sent : Option TxMsg
  hbSeq : Nat
  rate : Option RateDetect
  tt : TtSt
  deriving DecidableEq, Repr

/-- A node that named a role it does not hold (R433). -/
structure Stale where
  node : Nat
  sending : Bool
  standbys : Nat
  deriving DecidableEq, Repr

/-- A role of the roster (R430-R433). `state` is 0 UNUSED, 1 VACANT, 2 ASSIGNING, 3 ACTIVE; the epoch is a complement
pair in primary and shadow copy (R431). -/
structure RoleSt where
  state : Nat
  holder : Nat
  former : Nat
  cand : Nat
  spares : List Nat
  misses : Nat
  hbDt : Nat
  epPrim : Word × Word
  epShad : Word × Word
  stale : List Stale
  deriving DecidableEq, Repr

/-- What a node last said in a heartbeat (R429). -/
structure NodeSt where
  tick : Nat
  role : Nat
  epoch : Nat
  state : Nat
  obeys : Bool
  ch : Nat
  deriving DecidableEq, Repr

/-- A classical mailbox request being joined from its segments (R435). `skip` marks one already discarded, whose other
segments are ignored. -/
structure RmbSt where
  next : Nat
  count : Nat
  bytes : List Byte
  skip : Bool
  deriving DecidableEq, Repr

/-- The message bus (10). `rmb` holds the request in progress of commander c on channel k at 8 k + c, `rmbOut` the
message count of its next response. -/
structure BusSt where
  ch : Vector BusCh 2
  roles : Vector RoleSt 96
  nodes : List (Nat × NodeSt)
  rmb : Vector (Option RmbSt) 16
  rmbOut : Vector Nat 16
  deriving DecidableEq, Repr

end Sys2Proof.Machine
end

