-- ==== Sys2Proof/Machine/StCtl.lean ====
section
/-!
DEFINITION. Machine/StCtl.lean: the state of the Carve control engines (08).
-/
namespace Sys2Proof.Machine

/-- What an instance does apart from the conditions R327 puts in front (R326, R328): COAST and HELD stand beside it. -/
inductive CtlBase where
  | free
  | stopped
  | start
  | run
  | fallback
  | test
  | ident
  deriving DecidableEq, Repr

/-- One input as the gates have taken it (R311, R343, R345): the SEQ or tick that tells a newer word, the value and the
raw word last used, whether it was a fresh measurement at the last gate, SETTLING or missing periods in a row, a loss with
its kind of R356 and whether the input has been lost since the last re-seed, and the identical fresh samples in a row with the
highest and lowest value of the watched output from each to the next, newest first. -/
structure CtlIn where
  tag : Option Nat
  val : Int
  raw : Word
  fresh : Bool
  settle : Nat
  lost : Option Nat
  gone : Bool
  same : Nat
  hist : List (Int × Int)
  deriving DecidableEq, Repr

/-- What the gate of a period has taken (R309): the state block that a computation or its repetition uses. `obs` says
that only the observer runs (FALLBACK). -/
structure GateRec where
  tick : Nat
  y : List Int
  used : List Bool
  r : List Int
  u : List Int
  uraw : List Int
  frz : List Bool
  obs : Bool
  deriving DecidableEq, Repr

/-- A checkpoint record (R317). -/
structure Chk where
  st : List Int
  ste : Int
  u : List Int
  uraw : List Int
  refs : List Int
  ramp : List Bool
  overruns : Nat
  deriving DecidableEq, Repr

/-- A coefficient set (R315, R337): values with shifts, its CRC-32 and whether it is valid. -/
structure CoefSet where
  coefs : List (Int × Nat)
  crc : Word
  valid : Bool
  deriving DecidableEq, Repr

/-- A coefficient write that waits for its period boundary, and the first tick it may land at, 20 µs or more after it was taken
(R335). -/
structure CoefPend where
  idx : Nat
  val : Int
  shift : Nat
  cmd : CmdId
  since : Nat
  deriving DecidableEq, Repr

/-- A set change that waits for the period boundary (R339, R340): the set, 0 live, or automatic selection; the cause of
EV_CTL_SCHED and the commands. -/
structure SetPend where
  auto : Bool
  set : Option Nat
  cause : Nat
  cmds : List CmdId
  deriving DecidableEq, Repr

/-- One loop instance (08). States are integers with a shared exponent, 0 in fixed point (R321, R323). -/
structure CtlInst where
  attempt : List Byte     -- descriptor of the last `CTL_DESC` write attempt (R355)
  base : CtlBase
  cause : Nat
  bfp : Bool
  held : Bool
  coast : Bool
  st : List Int           -- x̂ then z
  ste : Int
  u : List Int            -- outputs in force
  uraw : List Int
  next : Option (List Int × List Int) -- u and uraw computed for the next period
  uPrev : List Int        -- outputs of the period before (R306)
  backlog : List GateRec  -- late computations whose deadlines have passed, oldest first (R341)
  done : Option GateRec   -- the gate of a computation that has ended and whose deadline has not passed (R351)
  refs : List Int
  ramp : List Bool        -- references on a Glide ramp
  seenSrc : List Int      -- source values at the last gate (R332)
  ins : List CtlIn
  gate : Option GateRec
  lastGate : Nat
  sticky : Nat            -- CTL_FLAGS [9:0]
  limit : Bool
  zclamp : Bool
  handover : Bool
  overruns : Nat
  late : Nat              -- apply misses of its outputs (R306)
  since : Nat             -- tick at which START was entered, or the first lost period of a COAST began (R328, R344)
  sets : List (Nat × CoefSet)
  setUse : Nat
  auto : Bool
  setPend : Option SetPend
  pend : List CoefPend
  resume : List CmdId     -- CTL_RESUME that wait for the boundary
  enable : Option Nat     -- a start that waits for the boundary: 1 run, 2 test, 3 identify
  wrote : Bool            -- states were written since the instance stopped (R346)
  liveCdr : Option Nat    -- commander that last wrote a live coefficient (R340)
  prbs : Nat
  reseed : Bool           -- a re-seed and a Glide are due at the next gate (R328)
  chk : Option Chk
  extNew : Nat            -- `CTL_EXT_IN` written since the last gate
  outTick : Nat           -- boundary its last outputs took effect at
  deriving DecidableEq, Repr

/-- The Carve engines (08): instances, the engine that serves each load role and whether it has been declared faulty,
the claims of enabled instances by MASK bit (R314), and the writes refused by epoch (R352). -/
structure CtlSt where
  inst : Vector CtlInst 64
  serving : Vector Nat 2
  faulty : Vector Bool 3
  claims : Nat
  fenced : Vector Nat 2
  deriving DecidableEq, Repr

end Sys2Proof.Machine
end

