-- ==== Sys2Proof/Machine/StDlx.lean ====
section
/-!
DEFINITION. Machine/StDlx.lean: the state of dielectric moisture measurement (05).
-/
namespace Sys2Proof.Machine

/-- A complex number: a raw ratio, an admittance or a permittivity. -/
structure Cx where
  re : Rat
  im : Rat
  deriving DecidableEq, Repr

/-- One sweep attempt of a channel's window (R207, R214): whether it was full; permittivities by sweep point (real part
ε′, imaginary part ε″), grain temperature and whether it came from a bad channel (R210); its moisture in % and density
in kg/m³ and, where it is out of calibration, the cause of R227. -/
structure Attempt where
  acc : Bool
  eps : List Cx
  t : Rat
  tBad : Bool
  m : Rat
  rho : Rat
  ooc : Option Nat
  deriving DecidableEq, Repr

/-- The RF path behind a channel (R221): its own, DXS not yet calibrated, DXS calibrated, or none. -/
inductive DxPath where
  | own
  | subst
  | calibrated
  | dead
  deriving DecidableEq, Repr

/-- A probe calibration step that waits or runs (R204): step, reference permittivity × 1000, the ratios and the mean
capacitance of the sweeps it has taken, and whether one of them was overloaded. -/
structure CalStep where
  cmd : CmdId
  step : Nat
  epsRef : Nat
  sweeps : List (List Cx)
  overload : Bool
  deriving DecidableEq, Repr

/-- What a probe calibration has gathered since the mode was entered (R204). -/
structure CalData where
  open_ : Option (List Cx)
  short : Option (List Cx)
  load : Option (List Cx)
  air : Option Rat
  ref : Option (Rat × Nat)
  deriving DecidableEq, Repr

/-- One dielectric channel (05). The first group is held on the field die, the second on the control die. -/
structure DlxCh where
  mode : Nat              -- `DLX_ENABLE` as DXE runs it
  grain : Nat
  seq : Nat
  win : List Attempt      -- newest first
  filled : Bool           -- the window has held `DLX_AVG` attempts since the restart
  settled : Int           -- last settled value
  fault : Option Nat      -- probe fault, with its cause
  clean : Nat             -- sweeps free of every cause since
  path : DxPath
  differs : Nat           -- failed reference checks in a row (R220)
  last : List (Rat × Cx × Nat) -- frequency, ε and gain of the last accepted sweep
  steps : List CalStep
  cal : CalData
  word : Option (Word × Nat) -- latest result in the uplink slot and its tick
  computed : Bool         -- that result's value was computed, not held (R214)
  oocCause : Nat
  result : Word           -- DLX_RESULT
  density : Nat           -- DLX_DENSITY
  resTick : Nat
  rcvSeq : Option Nat
  stale : Bool
  cdFault : Bool
  cdPartial : Bool
  cdOoc : Bool
  lastSettled : Word
  streamCnt : Nat
  deriving DecidableEq, Repr

/-- A sweep in progress (R195): its channel, the points measured, whether the guard was at its limit and the detector overloaded, and
whether it began for a calibration step (R204). -/
structure Sweep where
  ch : Fin 4
  pts : List (Cx × Nat)
  guardLimit : Bool
  overload : Bool
  forStep : Bool
  deriving DecidableEq, Repr

/-- A reference record of R222: m_base, x, y, t and rho as captured and the accepted-sweep count, and the oven moisture
in 0.01 % w.b. -/
structure RefRec where
  cap : Option (Rat × Rat × Rat × Rat × Rat × Nat)
  oven : Option Nat
  deriving DecidableEq, Repr

/-- The dielectric engine (05): channels, the sweep in progress, the channels of the cycle still to sweep, whether sweeps
are paused (R201), the path the next reference check takes, whether DXS is free, and the reference records. -/
structure DlxSt where
  ch : Vector DlxCh 4
  sweep : Option Sweep
  queue : List (Fin 4)
  paused : Bool
  rot : Nat
  spareFree : Bool
  recs : Vector RefRec 32
  deriving DecidableEq, Repr

end Sys2Proof.Machine
end

