-- ==== Sys2Proof/Machine/StFio.lean ====
section
/-!
DEFINITION. Machine/StFio.lean: the state of the field pins (06).
-/
namespace Sys2Proof.Machine

/-- One field pin (06). The first group is held on the field die, the second on the control die. -/
structure Pin where
  -- input
  raw : Bool              -- latest sample, after inversion
  since : Nat             -- samples since the last filter tick
  count : Nat             -- counter filter (R232)
  next : Bool
  filtered : Bool
  band : WireBand         -- band of the latest sample, never `kept` (R235)
  closedLast : Bool       -- wire state closed outside the broken state
  wbCount : Nat           -- second counter filter (R237)
  wbNext : Bool
  broken : Bool
  fresh : Bool            -- the next sample sets every filter (R262)
  freshAt : Option (Nat × Nat) -- the moment of relock that its events are stamped with, tick and MCLK periods (R262)
  pulses : Nat            -- running 32-bit count (R238)
  latched_ : Nat          -- count latched at the latest TICK edge, and that tick (R239)
  latchTick : Nat
  -- output
  cmd : Nat               -- duty of the current set (R114, R246)
  duty : Nat              -- duty commanded at the latest APPLY, taken or not (R252)
  hz : Nat                -- PWM frequency in force, and the latest one sent (R247, R261)
  hzCmd : Nat
  ilim : Bool
  therm : Bool            -- thermal shut-off
  latched : Bool
  restarts : List Nat     -- ticks of the latest restarts (R251), newest first
  openLoad : Option Bool  -- open load declared; true for the off-state test
  overLoad : Bool
  shortSup : Bool
  reverse : Bool
  shed : Bool
  safe : Bool
  relPend : Bool          -- a RELEASE names the pin (R118)
  -- control die
  seen : Nat              -- FIO_STATE [19:0] as the last image slot showed it
  cdCount : Nat           -- FIO_COUNT
  cdTick : Option Nat     -- tick of that latch
  cntRcv : Nat            -- tick at which the newest counter slot came (R70)
  gateDue : Bool          -- a gate boundary waits for its latch (R240)
  gate : Option (Nat × Nat) -- tick and count a gate began with (R240)
  freq : Nat              -- FIO_FREQ
  freqStale : Bool
  gateSilent : Bool
  clearCmd : List CmdId   -- each FIO_CLEAR that waits for its APPLY
  clearPend : Bool
  cntCmd : List CmdId     -- FIO_CNT_CLEAR that wait for the TICK edge
  latchRec : Bool         -- the latch as the control die records it (R252)
  deriving DecidableEq, Repr

/-- One bank (06): the supply warning's count of slots and whether it has been raised, the tick of the image last
received, and the pins whose frequency change waits (R247). -/
structure Bank where
  low : Nat
  lowRaised : Bool
  imgTick : Nat
  freqWait : List (Nat × Nat)
  deriving DecidableEq, Repr

/-- The field pins (06): pins and banks. -/
structure FioSt where
  pin : Vector Pin 64
  bank : Vector Bank 8
  deriving DecidableEq, Repr

end Sys2Proof.Machine
end

