-- ==== Sys2Proof/Machine/StGns.lean ====
section
/-!
DEFINITION. Machine/StGns.lean: the state of satellite timing (11): time quality, steering and steps, holdover, position,
sample interface, tracking channels, time pulse and the snapshot buffer's registers.
-/
namespace Sys2Proof.Machine

/-- The lock of a band (R452): ms in a row with the code loop within its limit and with the phase lock indicator above its own;
whether carrier lock was lost and not yet regained; a cycle slip since the last epoch; the lock time in ms; and for how many
ms C/N0 has stayed below `GNS_CN0_MIN` (R449). -/
structure GnsLock where
  code : Nat
  carrier : Nat
  lost : Bool
  slip : Bool
  ms : Nat
  weak : Nat
  deriving DecidableEq, Repr

/-- A tracking channel (R449-R452): satellite, elevation where known, bands followed and in lock, what they last measured,
and whether both bands served in the last solution. -/
structure GnsCh where
  used : Bool
  system : Nat
  sv : Nat
  elev : Option Nat
  bands : Nat
  locked : Nat
  cn0 : Vector Nat 2
  doppler : Vector Int 2
  lock : Vector GnsLock 2
  mp : Vector Nat 2
  mpOver : Nat
  dualIn : Bool
  deriving DecidableEq, Repr

/-- The snapshot buffer (R470-R472): 0 EMPTY, 1 CAPTURING, 2 HELD, 3 PROCESSING. `at_` is the DT in ns a capture waits
for; `first`, `time` and `steps` belong to its first sample. `desc` is a descriptor that waits for room in Q11, with the
state that follows. -/
structure SnapSt where
  st : Nat
  number : Nat
  bands : Nat
  process : Bool
  len : Nat
  at_ : Option Nat
  begun : Bool
  first : Nat
  time : Nat
  steps : Nat
  m1 : Nat             -- magnitude-3 fractions of the capture, %
  m5 : Nat
  cmd : Option CmdId
  desc : Option (List Byte × Nat)
  deriving DecidableEq, Repr

/-- A survey in progress (R459): the tick it began at, the sums of the solved coordinates and their number. -/
structure Survey where
  start : Nat
  sum : Vector Int 3
  n : Nat
  deriving DecidableEq, Repr

/-- Satellite timing (11). `due` is the scheduled step: the whole second S and the change of DT in fs; `u0` and `acc` are
u at the last valid solution and its growth since, in attoseconds (R466); `pulseEnd` and `pulseLow` are the trailing edge and
the active level of the last time pulse (R468). -/
structure GnsSt where
  tq : Nat
  unc : Option Nat
  solved : Bool
  steps : Nat
  utcOfs : Option Int
  pos : Vector Word 3
  posSigma : Nat
  posMode : Nat
  due : Option (Int × Int)
  dueCause : Nat
  dueCmd : Option CmdId
  dueUnc : Nat
  lastStep : Option Int
  setMs : Option Nat
  slewing : Bool
  sats : Nat
  good : Nat
  lastValid : Nat
  lastDual : Nat
  u0 : Nat
  acc : Nat
  accMs : Nat
  theta0 : Int
  y0 : Int
  a : Int
  c : Int
  sigmaY : Nat
  sigmaTheta : Nat
  dBound : Nat
  lockMs : Nat
  trained : Bool
  survey : Option Survey
  held : Option (Vector Int 3 × Nat)
  lost : Vector Bool 2
  goodCounts : Vector Nat 2
  agcOut : Vector Bool 2
  chans : Vector GnsCh 32
  cap : Bool
  hold : Bool
  pulses : Nat
  lastPulse : Option Int
  pulseEnd : Int
  pulseLow : Bool
  snap : SnapSt
  deriving DecidableEq, Repr

end Sys2Proof.Machine
end

