-- ==== Sys2Proof/Machine/StHlt.lean ====
section
/-!
DEFINITION. Machine/StHlt.lean: the state of chapter 13: units and their substitutes, Patrol, references, sensors,
throttling, shut-down latches, Grooming, the flash journal and the logs.
-/
namespace Sys2Proof.Machine

/-- A unit of R550: 0 in service, 1 spare, 2 quarantine, 3 retired; the role it serves (255 none), its faults and the
tick it was last replaced at; `again` says that this was the second time within 30 days (R527). -/
structure UnitSt where
  st : Nat
  role : Nat
  faults : Nat
  replaced : Option Nat
  again : Bool
  deriving DecidableEq, Repr

/-- A voltage reference (R519): deviation from the median in ppm and the rounds it has lasted. -/
structure RefSt where
  ppm : Int
  rounds : Nat
  failed : Bool
  suspect : Bool
  deriving DecidableEq, Repr

/-- A temperature sensor (R537, R538): value in use in 0.01 °C, rounds off, failed, warning active and its offset. -/
structure SensorSt where
  value : Int
  rounds : Nat
  failed : Bool
  warn : Bool
  ofs : Int
  history : List Int
  deriving DecidableEq, Repr

/-- A flash operation that waits or runs (R87, R544): the command it completes with its result, and what closes with
it. `kind` 0 a command's write, read or erase; 1 the close of an image in slot `ref`; 2 the erase of slot `ref`; 3 an
enrolment with chain number `ref`; 4 the close of the firmware bank. `wr` is the parameter value it stores. -/
structure FlashOp where
  cmd : Option CmdId
  kind : Nat
  ref : Nat
  result : List Byte
  wr : Option (Nat × List Word)
  deriving DecidableEq, Repr

/-- Health, ageing and thermal protection (13). -/
structure HltSt where
  units : Vector UnitSt 52
  counts : Vector Nat 8
  subs : Nat
  synthTaken : Bool
  doubleFault : Bool
  scActive : Bool
  supSingle : Bool
  rollback : Option Nat
  rollbacks : Nat
  patrolLost : Bool
  patrolRestart : Option Nat
  demand : Bool
  causes : Vector Bool 4
  refs : Vector RefSt 3
  refsDisagree : Bool
  refUsed : Int           -- the reference value in use, as its deviation from the factory value in ppm (R519)
  clockRounds : Nat
  clockFault : Bool
  echoCycles : Nat
  epochUsed : Vector Nat 11 -- the last valid epoch of each role that the output latch has accepted (R595)
  sensors : Vector SensorSt 14
  thrStep : Nat
  thrBelow : Vector Nat 4 -- rounds in a row the margin has been low enough for each step, and high enough to end it
  thrAbove : Vector Nat 4
  margin : Int
  capOn : Bool
  capLevel : Nat
  capMargin : Int         -- margin when the thermal cap was last judged (R540)
  ctlLatch : Bool
  fieldLatch : Bool
  shutdownWord : Option (List Byte)
  groomBoot : Bool        -- the pass at boot is due (R533)
  groomRun : Bool
  groomReason : Nat
  groomPass : Nat
  groomRepeat : Option (Option Nat) -- an abandoned pass is repeated: from this tick on, or 10 min after the sleep ends (R533)
  groomLast : Nat
  groomCmd : Option CmdId
  v3 : Nat
  pl3 : Bool
  exhausted : Bool
  planDt : Nat
  refresh : Vector Nat 8  -- refresh interval of each data-flash partition of R28 in minutes (R534)
  flash : List FlashOp
  flashOpen : Bool        -- the record of the oldest one was open when step L3 began (R509)
  replay : Nat × Nat      -- sectors to re-erase and records to discard at the next boot (R546)
  erases : Nat
  healthLog : List (List Byte)
  ageLog : List (List Byte)
  logSeq : Nat
  deriving DecidableEq, Repr

end Sys2Proof.Machine
end

