-- ==== Sys2Proof/Machine/StIdn.lean ====
section
/-!
DEFINITION. Machine/StIdn.lean: the state of chapter 14: the record store, copies that wait for Q16, the nonce and the
attestation statements.
-/
namespace Sys2Proof.Machine

/-- An attestation that waits for the bib of its event (R556): its command, source and challenge. -/
structure Attest where
  cmd : CmdId
  source : Nat
  challenge : List Byte
  deriving DecidableEq, Repr

/-- Identity, enrolment and lot records (14). `records` are the stored records with their CHAIN_INDEX, oldest first, and
`next` the CHAIN_INDEX of the next one; both lie in data flash. `copies` are the indexes of records that wait for Q16,
`exported` is `IDN_EXPORT_NEXT`. `nonce` is the last nonce issued with its tick, until it is used. -/
structure IdnSt where
  records : List (Nat × List Byte)
  next : Nat
  copies : List Nat
  exported : Nat
  keyFault : Bool
  lost : Bool             -- the binding has been lost under R51 and not been written since (R560)
  nonce : Option (Nat × Nat)
  attests : List Attest
  statements : List (Nat × List Byte)
  deriving DecidableEq, Repr

end Sys2Proof.Machine
end

