-- ==== Sys2Proof/Machine/StLift.lean ====
section
/-!
DEFINITION. Machine/StLift.lean: the state of the Lift (03): both receivers and transmitters, the tick set, the copies
of the output slots, the demands that wait for a frame, the mask frames and the link's counts.
-/
namespace Sys2Proof.Machine

/-- A receiver (R107, R131): out of lock with a candidate run of `run` frames that ended with SEQ `last`, in lock with the SEQ of
the present frame period, or listening for KEEPALIVE frames in D7 sleep. -/
inductive LockSt where
  | out (run last : Nat)
  | locked (seq : Nat)
  | keepalive
  deriving DecidableEq, Repr

/-- The command of a valve channel in its output slot (R276). -/
structure VlvCmd where
  cseq : Nat
  kind : Nat
  setMa : Nat
  holdT : Nat
  deriving DecidableEq, Repr

/-- The content of an output slot without TAG and EPOCH (R109): a bank's eight duties with at most one PWM frequency
change (pin within the bank, Hz), or a valve channel's command. -/
inductive SlotVal where
  | bank (duties : List Nat) (freq : Option (Nat × Nat))
  | valve (c : VlvCmd)
  deriving DecidableEq, Repr

/-- A copy of an output slot the field die holds under a TAG (R114), with the EPOCH it carried (R119). -/
structure SlotCopy where
  val : SlotVal
  epoch : Nat
  deriving DecidableEq, Repr

/-- A closed set of output values or the APPLY sent for it (R115, R116): tick number, SET mask and slot values. -/
structure TickSet where
  tick : Nat
  mask : Nat
  epoch : Nat
  vals : Vector SlotVal 24
  deriving DecidableEq, Repr

/-- Scope and object of a SAFE or RELEASE frame (R130). -/
structure Scope where
  scope : Nat
  object : Nat
  deriving DecidableEq, Repr

/-- A SAFE frame that waits to be sent, its cause (R130) and the command that it completes, if any. -/
structure SafeReq where
  sc : Scope
  cause : Nat
  cmd : Option CmdId
  deriving DecidableEq, Repr

/-- A RELEASE that the control die repeats until the field die shows its objects out of the safe state (R128). -/
structure RelReq where
  sc : Scope
  cmd : Option CmdId
  deriving DecidableEq, Repr

/-- A pending mask frame (R120, R121): the tick and the offset in MCLK periods of its stamp, MASK [79:0] and for the valve
diagnostics frame the kind of each channel it names. `late` marks a stamp taken after relock whose uncertainty covers the silence (R37). -/
structure MaskFrame where
  tick : Nat
  ofs : Nat
  mask : Nat
  late : Bool
  deriving DecidableEq, Repr

/-- The Lift (03). The first group is the control die's, the second the field die's. -/
structure LiftSt where
  -- control die
  up : LockSt
  downSeq : Nat
  sent : Nat
  rcvd : Nat
  upDisc : Nat
  echoErr : Nat
  applySent : Nat
  appliedRep : Nat
  missRep : Nat
  fencedRep : Nat
  downDiscRep : Nat
  missSeen : Nat          -- the counts of the field die when the last MARK came
  fencedSeen : Nat
  marked : Bool           -- such a MARK has come since this die's reset (R117, R119, R124)
  depthMaxDown : Nat
  depthMaxUp : Nat
  cycDown : Nat
  cycDownMax : Nat
  cycUp : Nat
  cycUpMax : Nat
  runDown : Nat
  runUp : Nat
  cycle : Nat             -- count of downlink image cycles (R109)
  frames : Nat            -- downlink frame periods since the TICK edge (R103)
  applyLeft : Nat         -- copies of APPLY still to be sent (R112)
  safeSent : Bool         -- SAFE and RELEASE already sent in the present image cycle (R112)
  relSent : Bool
  eyeUp : Nat
  phaseUp : Nat
  goalUp : Nat            -- the sampling phases that Grooming has chosen (R132)
  eyeDown : Nat
  phaseDown : Nat
  goalDown : Nat
  eyeLow : Nat            -- eyes below the warning: bit 0 the uplink, bit 1 the downlink
  secUp : Nat
  secDown : Nat
  silent : Bool
  silentFr : Nat          -- frame periods of 0.8 µs since the last valid uplink frame
  lastUpTick : Nat
  staleSlots : Nat        -- uplink slots not received since the last silence or reset, one bit each (R126)
  newest : Nat            -- tick of the newest slot that the field mirror reports (R70)
  stopSeen : Bool         -- FSQ's status as the health slots last showed it (R110)
  holdSeen : Bool
  opened : Vector SlotVal 24
  openMask : Nat
  closed : Option TickSet
  apply : Option TickSet
  missTick : Nat          -- tick and SET of the apply last missed (R117)
  missMask : Nat
  safePend : List SafeReq
  relPend : List RelReq
  pairPrio : List Nat
  pairRound : Nat
  echoRound : Nat
  echoBad : List Nat      -- words whose last echo differed (R48)
  cfg : List (Nat × Nat)  -- field-side values on their way without a boundary, with the frames that must still carry them (R150, R225)
  reported : Bool
  temps : Vector Int 8    -- field sensors 6-13 as uplink slots 58-61 last showed them, and the tick
  tempTick : Nat
  -- field die
  down : LockSt
  upSeq : Nat
  fTick : Nat             -- the present tick
  fDt : Nat               -- DT of the last TICK edge, time quality, and Grooming pass of the trims, from slots 60-62 (R109)
  fTq : Nat
  fTrim : Nat
  fCycle : Nat            -- cycle count and status flags of the downlink MARK (R109)
  fFlags : Word
  fDom : Vector Nat 11    -- domain states of the last KEEPALIVE (R131)
  excSlot : Vector Nat 8  -- the latest payloads of slots 24-31 and 32-35 (R150, R225)
  sweepSlot : Vector Nat 4
  downDisc : Nat
  copies : Vector (Vector (Option SlotCopy) 4) 24
  applyLost : Nat
  lastApply : Nat
  miss : Nat
  fenced : Nat
  fencedEpoch : Nat       -- EPOCH of the frame last fenced
  armed : Bool
  stopped : Bool
  validOfs : Nat          -- MCLK periods from the edge of the last APPLY seen to the last valid frame (R129)
  stopUs : Nat
  stopOfs : Nat
  reportLeft : Nat
  relField : Nat
  cntRound : Nat
  urg : Vector (Option MaskFrame) 5
  evt : Vector (Option MaskFrame) 8
  diagNext : List (Nat × Nat)
  pairs : List (Nat × FieldPair)
  fsqRep : List Nat       -- PAIRED words FSQ has repaired and not yet reported, and words it asks for (R52)
  fsqReq : List Nat
  deriving DecidableEq, Repr

end Sys2Proof.Machine
end

