-- ==== Sys2Proof/Machine/StPwr.lean ====
section
/-!
DEFINITION. Machine/StPwr.lean: the state of chapter 12: domains, clocks and regulator, the performance level, start-up,
sleep and wake, the Sideslip ladders and the supplies as last read.
-/
namespace Sys2Proof.Machine

/-- Which command may send the RELEASE that ends the start-up hold (R495). -/
inductive HoldEnd where
  | run
  | padRelease
  | svcRelease
  deriving DecidableEq, Repr

/-- Supplies, start-up, power states and shedding (12). Domain states are coded as in `MIR_PWR`: 0 ON, 1 RETENTION,
2 OFF, 3 changing. -/
structure PwrSt where
  powered : Bool               -- D0 is out of power-on reset (R490)
  bootPins : Nat               -- BOOT1, BOOT0 as last sampled (R97)
  bootCount : Nat              -- boot count of data flash (R40)
  fresh : Bool                 -- D0 has powered up and the boot count has not risen for it yet (R40)
  started : Bool               -- start-up reached step 8 (R491)
  autoWait : Option Nat        -- image slot whose autostart waits for the field die (R493)
  dom : Vector Nat 11
  domRetry : Vector Nat 11     -- failed returns in a row (R497)
  domDead : Vector Bool 11     -- stays OFF after the third retry
  lowPower : Bool              -- regulator mode (R484)
  lpBarred : Bool              -- PWR_LP_ALLOW held at 0 after a brownout until the host writes 1 (R485)
  pll : Bool
  xin : Bool
  level : Nat                  -- performance level in force (R488)
  raiseTo : Option Nat         -- a raise whose voltage has been set (R489)
  raiseReady : Bool            -- the regulator has reported it
  pl3Mv : Nat                  -- PL3 voltage in force
  coreMv : Nat
  wakeRetry : Nat              -- failed attempts in a row of R496
  fieldUp : Bool               -- the field die has passed start-up step 7 (R493)
  fieldPow : Bool              -- the field die's logic is out of reset
  pinFail : Nat                -- objects that failed the self-test (R494): pins, valve channels, modulators
  vdFail : Nat
  modFail : Nat
  excFail : Nat                -- excitation sources
  hold : Bool                  -- start-up hold on the field die (R495)
  holdEnd : HoldEnd
  sleepCmd : Option CmdId      -- SLEEP_REQ in progress (R499)
  stopped : List (Nat × Nat)   -- domains the last SLEEP_REQ stopped, in order, with their state (R501, R504)
  enterD6 : Option Nat         -- states D6 and D1 enter after the completion (R500)
  enterD1 : Option Nat
  sleepSlot : Bool             -- the completion has been written
  pads : Vector Bool 11        -- pads held, by domain (R502)
  hirqHeld : Bool              -- level HIRQn is held at
  fStep : Nat                  -- F1 to F(fStep) in force (R505)
  lStep : Nat                  -- L1 to L(lStep) in force
  shed : Vector Bool 4         -- classes shed (R507)
  f3Ended : Bool               -- F3 has ended and classes wait for release
  relClass : Vector Bool 4     -- classes whose release falls due at the next APPLY
  vfld : Nat                   -- mV, from uplink slot 62
  vlog : Nat                   -- mV
  vfb : Vector Nat 8           -- 0.2 V, from the input slots
  vvg : Vector Nat 4           -- 10 mV, from uplink slot 62
  vfldField : Nat              -- mV, as the field die last sampled it
  vfldHigh : Bool
  deriving DecidableEq, Repr

end Sys2Proof.Machine
end

