-- ==== Sys2Proof/Machine/StSvc.lean ====
section
/-!
DEFINITION. Machine/StSvc.lean: the state of the services (09): drying instances, burners, aeration, water, conveyors
and chains, lots, the water ledger, claims and resume records.
-/
namespace Sys2Proof.Machine

/-- One entry of a lot record (R561): bib, event code and two data bytes. -/
structure LotEntry where
  bib : Word
  code : Nat
  data : Nat
  deriving DecidableEq, Repr

/-- A lot (R390, R561), from its opening to its record. Masses are in mg; the sums are mass times moisture in 0.001 %. -/
structure Lot where
  kind : Nat
  inst : Nat
  no : Nat
  grain : Nat
  use : Nat
  recipe : Nat
  recipeCrc : Nat
  flags : Nat             -- FLAGS [2:0]: aborted, interrupted, energy estimated; [3] UNTIMED
  dtOpen : Nat
  timeOpen : Nat
  stepsOpen : Nat
  dtClose : Nat
  timeClose : Nat
  stepsClose : Nat
  bootClose : Nat
  pos : List Word         -- ECEF X, Y, Z at the close
  posMode : Nat
  mass : Nat              -- mass out
  massIn : Option Nat     -- mass in where it was weighed
  inMass : Nat            -- mass of which the moisture in was measured
  inSum : Nat
  outMass : Nat
  outSum : Nat
  energyBase : Nat        -- 10^-4 kJ
  energy : Nat
  waterBase : Nat         -- µL
  water : Nat
  grainMax : Int
  tmax : Int
  openBib : Option (Word × Word)
  closeBib : Option (Word × Word)
  entries : List LotEntry
  dropped : Nat
  deriving DecidableEq, Repr

/-- A BIN or COL instance (R357, R369, R374). Times are in ms. -/
structure Dry where
  phase : Nat
  susp : Bool
  fault : Bool            -- until SVC_FAULT_CLEAR
  obsFault : Bool         -- the observer is in FALLBACK (R376)
  limitHeld : Bool        -- HELD by the grain limit (R368)
  silentHeld : Bool       -- HELD by a silent commander (R393)
  silentDone : Bool       -- the orderly stop of R393 has been made
  ms : Nat                -- phase time
  pinMs : Nat             -- how long the exit's pin has been on
  runout : Option Nat     -- unload run-out
  noMeasMs : Nat          -- no grain temperature for so long
  drop : Nat              -- fall of the set-point, 1/600 of 0.001 K
  tooHot : Bool           -- T_max reached; a request waits for the margin
  dryMs : Nat             -- DRY time before the last resume
  cdr : Option Nat        -- commander that started it; none for autostart
  recipe : Nat
  recipeCrc : Nat
  rollCount : Nat         -- roll pulses at the last step
  emptied : Nat           -- mg discharged in EMPTYING
  heldRoll : Int          -- roll speed held in EMPTYING
  builtSp : Int           -- set-point the coefficient sets were built for
  rebuild : Option Nat    -- R373: the set that is still to be rewritten
  closing : Bool          -- a lot waits to be closed (R564)
  lot : Option Lot
  deriving DecidableEq, Repr

/-- A burner (R363-R366): state code of R364, time in it, retries, the pause of a failed request, energy in 10^-4 kJ. -/
structure Burner where
  st : Nat
  ms : Nat
  retries : Nat
  pause : Nat
  fault : Bool
  owner : Option Nat      -- 16 * kind + instance
  want : Bool             -- the owner requests heat
  sp : Int                -- the owner's set-point
  settleMs : Nat          -- plenum result SETTLING for so long
  gasCount : Nat
  energy : Nat
  deriving DecidableEq, Repr

/-- A conveyor (R384-R387). -/
structure Conv where
  on : Bool
  proven : Bool
  ms : Nat                -- since its start
  slip : Nat
  stopIn : Option Nat     -- ms until it stops
  fault : Bool
  gate : Option Bool      -- a gate pulse that is due: true opens
  gateTries : Nat
  gateOut : Bool          -- the pulse has been issued and its end is awaited
  deriving DecidableEq, Repr

/-- A chain (R384-R386): wanted on, its owner, an orderly stop in progress, and stopped by a fault. -/
structure Chain where
  want : Bool
  owner : Option Nat
  fault : Bool
  deriving DecidableEq, Repr

/-- A sensor of a cable (R379): present value in 0.001 °C, hourly samples newest first, hot-spot episode. -/
structure CableSensor where
  no : Nat
  val : Int
  hist : List Int
  hot : Bool
  deriving DecidableEq, Repr

/-- A cable of a bin: tick of its last reading, lost, and its sensors. -/
structure Cable where
  seen : Nat
  lost : Bool
  sensors : List CableSensor
  deriving DecidableEq, Repr

/-- Aeration of a bin (R377-R379): the fan, its wish, since when the air has suited or failed, run time in ms. -/
structure AerBin where
  fan : Bool
  want : Bool
  suits : Bool
  frost : Bool            -- the no-freezing test fails
  susp : Bool
  suitSince : Option Nat
  failSince : Option Nat
  emc : Int
  runMs : Nat
  cables : Vector Cable 8
  deriving DecidableEq, Repr

/-- A minute of ambient samples (R377): sums and counts of temperature and humidity. -/
structure AmbMin where
  tSum : Int
  tN : Nat
  hSum : Int
  hN : Nat
  deriving DecidableEq, Repr

/-- A water block (R381): its size in µL, whether its journal write has completed, the volume of the pulses issued from
it, meter count at its opening. -/
structure WaterBlock where
  size : Nat
  ready : Bool
  ul : Nat
  meter : Nat
  deriving DecidableEq, Repr

/-- A dose (R396): its command, what is left in µL and the µL charged so far. -/
structure Dose where
  cmd : CmdId
  left : Rat
  charged : Nat
  deriving DecidableEq, Repr

/-- A WAT instance (R380-R382). -/
structure Water where
  phase : Nat
  susp : Bool
  held : Bool
  cdr : Option Nat
  ms : Nat
  acc : Rat               -- µL
  block : Option WaterBlock
  next : Nat              -- injector after which the rotation goes on
  fails : List (Nat × Nat)
  out : List Nat          -- injectors that left the rotation
  flight : List (Nat × Nat)  -- pulses issued whose end has not been reported: injector, volume
  dose : Option Dose
  leakMs : Nat
  leakMeter : Nat
  recipe : Nat
  recipeCrc : Nat
  closing : Bool
  lot : Option Lot
  deriving DecidableEq, Repr

/-- The water ledger (R381-R383), in µL: charged today by closed blocks and leaks, pulsed and metered today, charged in
all; day number and when the last day closed; the flags of the day; daily records, newest first. -/
structure Ledger where
  used : Nat
  pulsed : Nat
  metered : Nat
  total : Nat
  dayNo : Nat
  lastTick : Nat
  lastDay : Option Int
  flags : Nat
  quotaSaid : Bool
  records : List (List Byte)
  deriving DecidableEq, Repr

/-- A resume record (R394) of the journal partition. -/
structure Resume where
  inst : Nat              -- 16 * kind + instance
  phase : Nat
  ms : Nat
  dryMs : Nat             -- the DRY timer
  state : Nat
  cdr : Option Nat
  recipe : Nat
  lot : Option Lot
  deriving DecidableEq, Repr

/-- A command of group 0x16 that waits for the next service step (R358). -/
structure SvcCmd where
  id : CmdId
  op : Nat
  kind : Nat
  inst : Nat
  payload : List Byte
  commander : Nat
  deriving DecidableEq, Repr

/-- The services (09). `ran` is true from the first `RUN` or autostart, `running` until `STOP`. `claims` is the union of
the claims by object bit: pins 0-63, valve channels 64-79, AFE channels 96-127, DX 128-131, instances 192-255.
`valsOld` are the service values as the last step found them (R360). -/
structure SvcSt where
  ran : Bool
  running : Bool
  stopping : Bool         -- a `STOP` has been taken and not completed (R93)
  claims : Nat
  owners : List (Nat × Nat)
  vals : List (Nat × Int)
  valsOld : List (Nat × Int)
  steps : Nat
  lastStep : Option Nat
  cmds : List SvcCmd
  dry : Vector Dry 6
  brn : Vector Burner 4
  cnv : Vector Conv 16
  chain : Vector Chain 4
  aer : Vector AerBin 12
  amb : AmbMin
  ambMins : List AmbMin
  lastFan : Option Nat
  lastHour : Nat
  wat : Vector Water 2
  ledger : Ledger
  pulseEnds : List (Nat × Bool)
  lotNext : Nat
  closed : List Lot
  resume : List Resume
  release : Option Nat    -- an automatic RELEASE stands due after a silence of so many ms
  spoiled : Bool          -- a SAFE frame, step F4 or a field-die reset since the last valid uplink frame
  deriving DecidableEq, Repr

end Sys2Proof.Machine
end

