-- ==== Sys2Proof/Machine/StVlv.lean ====
section
/-!
DEFINITION. Machine/StVlv.lean: the state of the valve drive channels (07).
-/
namespace Sys2Proof.Machine

/-- Phases of a channel (R279); `safeSet` is a channel that regulates at `VLV_SAFE_MA` after a PEAK (R297). -/
inductive VPhase where
  | idle
  | delay
  | defer
  | peak
  | hold
  | decaySlow
  | decayFast
  | report
  | prop
  | shedWait
  | slave
  | off
  | latched
  | safeSet
  deriving DecidableEq, Repr

/-- The profile parameters taken at the APPLY that starts a profile (R281), and who commanded it. -/
structure Profile where
  delayUs : Nat
  peakMa : Nat
  peakMaxUs : Nat
  dwellUs : Nat
  holdMa : Nat
  holdT : Nat
  fast : Bool
  ttpMin : Nat
  ttpMax : Nat
  deferMax : Nat
  cmd : Option CmdId
  tick : Nat             -- tick of its APPLY
  deriving DecidableEq, Repr

/-- The report of a pulse (R280, R596): time to peak and deferral in 10 µs where it has them, end cause, ignored pulses;
the commands it completes; `sel` is the next content to send, and `stays` says that the phase shown does not change. -/
structure Report where
  ttp : Option Nat
  defer : Option Nat
  cause : Nat
  ignored : Nat
  cmd : Option CmdId
  ignoredCmds : List CmdId
  tick : Nat
  sel : Nat
  stays : Bool
  deriving DecidableEq, Repr

/-- A pulse the control die has accepted and not yet placed in a tick set, or placed in one that has not been applied
(R277): its command, if any, and its hold time in 10 µs. -/
structure PulseReq where
  cmd : Option CmdId
  holdT : Nat
  deriving DecidableEq, Repr

/-- One valve channel (07). The first group is held on the field die, the second on the control die. -/
structure VlvCh where
  phase : VPhase
  prof : Option Profile
  ttp : Option Nat        -- measured time to peak in 10 µs
  defer : Nat             -- measured deferral in 10 µs
  deferAt : Nat           -- field time at which DELAY ended, in 125 ns (R294)
  cause : Nat             -- end cause once one is decided
  ignored : Nat
  ignoredCmds : List CmdId
  reports : List Report   -- oldest first
  next : Option (Profile) -- a pulse that waits for a safe SET's decay (R297)
  cseq : Nat              -- last CSEQ taken
  cseqNew : Bool          -- the CSEQ of the next slot is taken without a pulse (R495)
  sp : Nat                -- PROP set-point in force
  cmdSp : Nat             -- SETPOINT of the current set
  tripSp : Option Nat     -- dropped to 0 by a trip at this SETPOINT (R288)
  dutyLimit : Bool
  forced : Bool           -- DECAY_FORCED
  fault : Bool            -- a trip or thermal shut-off since the last start
  therm : Bool            -- low-side thermal shut-off
  restarts : List Nat
  latched : Bool
  hsFault : Bool          -- the last trip or shut-off was HSn's
  openCoil : Bool
  coilSeen : Bool         -- current above 50 mA in the present profile
  dither : Nat            -- phase of the dither triangle in thousandths of its period (R283)
  safe : Bool
  relPend : Bool
  safePeak : Bool         -- PEAK runs for the safe state (R297)
  shed : Bool
  f2Hold : Bool           -- PROP ignores new set-points (R298)
  hot : Bool              -- PEAK or HOLD in the present 1 ms bin (R290)
  bins : List (Bool × Nat) -- run lengths of the bins, newest first
  -- control die
  status : Word           -- MIR_VLV, VLV_STATE
  statTick : Nat
  last : Word             -- VLV_LAST
  lastKind : Nat
  reqs : List PulseReq    -- accepted, not yet in a tick set
  placed : List (Nat × Option CmdId) -- CSEQ and command of pulses in tick sets not applied yet
  clearPend : Bool
  clearCmd : List CmdId
  latchRec : Bool
  deriving DecidableEq, Repr

/-- A pair's switch HSn (R268): thermal shut-off and its restarts. -/
structure HighSide where
  therm : Bool
  restarts : List Nat
  deriving DecidableEq, Repr

/-- The valve channels and the pairs' switches (07). -/
structure VlvSt where
  ch : Vector VlvCh 16
  hs : Vector HighSide 8
  deriving DecidableEq, Repr

end Sys2Proof.Machine
end

