-- ==== Sys2Proof/Syntax.lean ====
section
/-!
DEFINITION. Syntax.lean: the commands of the block, one constructor per row of spec/opcode_table.json, in its order. A row
that runs a host or remote command names it by its tag (`CmdId`): the entry itself was taken from its ring, so its operands
stand in the live command of State. The other rows carry what the field wiring, the supplies, the clocks, the bus or the
satellites bring with the event; the sender asserts that the time the rule names has come (log entry 5).
-/
namespace Sys2Proof

/-- The commands and events the block acts on. -/
inductive Instr where
  /-- `REGISTER_WRITE` (R66). -/
  | registerWrite (mosi : List Byte)
  /-- `HST_BOOT_CTRL_RESET` (R490). -/
  | hstBootCtrlReset (v : Word)
  /-- `HST_BOOT_CTRL_LOADER` (R97). -/
  | hstBootCtrlLoader (v : Word)
  /-- `HST_INT_STATUS_WRITE` (R68). -/
  | hstIntStatusWrite (v : Word)
  /-- `HST_INT_FORCE_WRITE` (R66). -/
  | hstIntForceWrite (v : Word)
  /-- `HST_LINK_ERRS_READ` (R63). -/
  | hstLinkErrsRead
  /-- `HST_DT_LO_READ` (R66). -/
  | hstDtLoRead
  /-- `HST_TICK_LO_READ` (R66). -/
  | hstTickLoRead
  /-- `Q_SIZE_WRITE` (R72). -/
  | qSizeWrite (q : Fin 20) (v : Word)
  /-- `Q_CTRL_WRITE` (R78). -/
  | qCtrlWrite (q : Fin 20) (v : Word)
  /-- `Q_DOORBELL_WRITE` (R74). -/
  | qDoorbellWrite (q : Fin 20) (v : Word)
  /-- `RING_WINDOW_WRITE` (R75). -/
  | ringWindowWrite (addr : BitVec 16) (words : List Word)
  /-- `QUEUE_AGE_IRQ` (R68). -/
  | queueAgeIrq (q : Fin 18)
  /-- `NOP` (R93). -/
  | nop (c : CmdId)
  /-- `DEV_INFO` (R93). -/
  | devInfo (c : CmdId)
  /-- `RUN` (R93). -/
  | run (c : CmdId)
  /-- `STOP` (R93). -/
  | stop (c : CmdId)
  /-- `SAFE_NOW` (R592). -/
  | safeNow (c : CmdId)
  /-- `RESET_REQ` (R93). -/
  | resetReq (c : CmdId)
  /-- `PARAM_READ` (R93). -/
  | paramRead (c : CmdId)
  /-- `PARAM_WRITE` (R88). -/
  | paramWrite (c : CmdId)
  /-- `PARAM_WRITE_PAIRED` (R43). -/
  | paramWritePaired (c : CmdId)
  /-- `PARAM_WRITE_BLOB` (R594). -/
  | paramWriteBlob (c : CmdId)
  /-- `PARAM_INFO` (R593). -/
  | paramInfo (c : CmdId)
  /-- `CFG_BEGIN` (R90). -/
  | cfgBegin (c : CmdId)
  /-- `CFG_COMMIT` (R91). -/
  | cfgCommit (c : CmdId)
  /-- `CFG_ABORT` (R90). -/
  | cfgAbort (c : CmdId)
  /-- `CMD_ABORT` (R93). -/
  | cmdAbort (c : CmdId)
  /-- `IMG_OPEN` (R94). -/
  | imgOpen (c : CmdId)
  /-- `IMG_DATA` (R94). -/
  | imgData (c : CmdId)
  /-- `IMG_CLOSE` (R94). -/
  | imgClose (c : CmdId)
  /-- `IMG_APPLY` (R94). -/
  | imgApply (c : CmdId)
  /-- `IMG_INFO` (R93). -/
  | imgInfo (c : CmdId)
  /-- `IMG_ERASE` (R93). -/
  | imgErase (c : CmdId)
  /-- `FW_OPEN` (R93). -/
  | fwOpen (c : CmdId)
  /-- `FW_DATA` (R93). -/
  | fwData (c : CmdId)
  /-- `FW_CLOSE` (R93). -/
  | fwClose (c : CmdId)
  /-- `FW_SWITCH` (R93). -/
  | fwSwitch (c : CmdId)
  /-- `EVT_FETCH` (R77). -/
  | evtFetch (c : CmdId)
  /-- `COMMAND_TIMEOUT` (R86). -/
  | commandTimeout (c : CmdId)
  /-- `BATCH_DISCARD` (R91). -/
  | batchDiscard (id : BitVec 16)
  /-- `BLOB_ASSEMBLY_DISCARD` (R594). -/
  | blobAssemblyDiscard (addr : BitVec 24) (commander : Fin 17)
  /-- `HOST_SILENCE` (R100). -/
  | hostSilence
  /-- `REMOTE_COMMANDER_SILENCE` (R435). -/
  | remoteCommanderSilence (ch : Fin 2) (cdr : Fin 8)
  /-- `START_GATE_ADMIT` (R30). -/
  | startGateAdmit
  /-- `TICK_EDGE` (R24). -/
  | tickEdge
  /-- `SET_CLOSE` (R115). -/
  | setClose
  /-- `LIFT_ROT_DOWNLINK` (R109). -/
  | liftRotDownlink (slot : Fin 64) (periods : Nat)
  /-- `LIFT_APPLY` (R116). -/
  | liftApply (copy : Bool) (periods : Nat)
  /-- `LIFT_SAFE` (R130). -/
  | liftSafe (periods : Nat)
  /-- `LIFT_RELEASE` (R128). -/
  | liftRelease (periods : Nat)
  /-- `LIFT_KEEPALIVE_DOWNLINK` (R131). -/
  | liftKeepaliveDownlink
  /-- `LIFT_KEEPALIVE_UPLINK` (R131). -/
  | liftKeepaliveUplink
  /-- `LIFT_ROT_UPLINK` (R110). -/
  | liftRotUplink (slot : Fin 64) (periods : Nat) (meas : List Int)
  /-- `LIFT_SAFE_REPORT` (R129). -/
  | liftSafeReport (periods : Nat)
  /-- `LIFT_URG` (R120). -/
  | liftUrg (code : Fin 5) (periods : Nat)
  /-- `LIFT_EVT` (R120). -/
  | liftEvt (code : Fin 8) (periods : Nat)
  /-- `LIFT_FRAME_DISCARD` (R124). -/
  | liftFrameDiscard (up : Bool) (raw : BitVec 128) (periods : Nat) (what : LiftFrame)
  /-- `LIFT_LOCK_LOSS` (R107). -/
  | liftLockLoss (up : Bool)
  /-- `LIFT_SILENCE` (R126). -/
  | liftSilence
  /-- `SNOWPLOUGH_STOP` (R127). -/
  | snowploughStop (rcUs : Nat)
  /-- `LIFT_ERROR_SECOND` (R124). -/
  | liftErrorSecond
  /-- `CONVERSION_END` (R143). -/
  | conversionEnd (ch : Fin 32) (smp : AfeSample)
  /-- `POLARITY_SWAP` (R144). -/
  | polaritySwap (ch : Fin 32)
  /-- `SPARE_SLOT_END` (R154). -/
  | spareSlotEnd (g : Fin 4) (smp : SpareSample)
  /-- `MODULATOR_STUCK` (R155). -/
  | modulatorStuck (ch : Fin 32)
  /-- `SPARE_CALIBRATION_END` (R156). -/
  | spareCalibrationEnd (g : Fin 4)
  /-- `BLANKING_EDGE` (R174). -/
  | blankingEdge (k : Fin 2) (edge : BlankEdge)
  /-- `BLANKING_STUCK` (R176). -/
  | blankingStuck (k : Fin 2)
  /-- `EXCITATION_COMPLIANCE_BREAK` (R180). -/
  | excitationComplianceBreak (ch : Fin 32)
  /-- `AFE_STALE` (R168). -/
  | afeStale (ch : Fin 32)
  /-- `GUARD_FAULT` (R177). -/
  | guardFault (gd : Fin 8)
  /-- `AFE_READ` (R188). -/
  | afeRead (c : CmdId)
  /-- `AFE_LEAD_NOW` (R188). -/
  | afeLeadNow (c : CmdId)
  /-- `DLX_SWEEP_START` (R197). -/
  | dlxSweepStart (n : Fin 4)
  /-- `SWEEP_POINT_END` (R195). -/
  | sweepPointEnd (n : Fin 4) (p : SweepPoint)
  /-- `DXS_REFERENCE_CHECK` (R220). -/
  | dxsReferenceCheck (r : DxsCheck)
  /-- `DXS_CALIBRATION_END` (R221). -/
  | dxsCalibrationEnd (n : Fin 4)
  /-- `DLX_STALE` (R215). -/
  | dlxStale (n : Fin 4)
  /-- `DLX_READ` (R226). -/
  | dlxRead (c : CmdId)
  /-- `DLX_POINT_READ` (R226). -/
  | dlxPointRead (c : CmdId)
  /-- `DLX_PROBE_CAL` (R204). -/
  | dlxProbeCal (c : CmdId)
  /-- `DLX_REF_CAPTURE` (R222). -/
  | dlxRefCapture (c : CmdId)
  /-- `DLX_REF_SET` (R222). -/
  | dlxRefSet (c : CmdId)
  /-- `DLX_FIT` (R223). -/
  | dlxFit (c : CmdId)
  /-- `DLX_CAL_READ` (R226). -/
  | dlxCalRead (c : CmdId)
  /-- `FILTER_TICK` (R232). -/
  | filterTick (n : Fin 64) (smps : List PinSample)
  /-- `FREQ_GATE` (R240). -/
  | freqGate (n : Fin 64)
  /-- `CURRENT_LIMIT` (R250). -/
  | currentLimit (n : Fin 64)
  /-- `CURRENT_LIMIT_END` (R250). -/
  | currentLimitEnd (n : Fin 64)
  /-- `PIN_THERMAL_SHUTOFF` (R251). -/
  | pinThermalShutoff (n : Fin 64)
  /-- `PIN_THERMAL_RESTART` (R251). -/
  | pinThermalRestart (n : Fin 64)
  /-- `OPEN_LOAD` (R254). -/
  | openLoad (n : Fin 64)
  /-- `OVER_LOAD` (R255). -/
  | overLoad (n : Fin 64)
  /-- `SHORT_TO_SUPPLY` (R256). -/
  | shortToSupply (n : Fin 64)
  /-- `REVERSE_BLOCKING` (R257). -/
  | reverseBlocking (n : Fin 64)
  /-- `BANK_LOW` (R259). -/
  | bankLow (b : Fin 8)
  /-- `FIO_READ` (R266). -/
  | fioRead (c : CmdId)
  /-- `FIO_CLEAR` (R252). -/
  | fioClear (c : CmdId)
  /-- `FIO_CNT_CLEAR` (R241). -/
  | fioCntClear (c : CmdId)
  /-- `FIO_BANK_READ` (R266). -/
  | fioBankRead (c : CmdId)
  /-- `VLV_DELAY_END` (R281). -/
  | vlvDelayEnd (n : Fin 16)
  /-- `DEFER_REJECT` (R294). -/
  | deferReject (n : Fin 16)
  /-- `PEAK_REACHED` (R286). -/
  | peakReached (n : Fin 16) (us : Nat)
  /-- `PEAK_END` (R281). -/
  | peakEnd (n : Fin 16) (deferUs : Nat)
  /-- `HOLD_END` (R281). -/
  | holdEnd (n : Fin 16)
  /-- `DECAY_END` (R280). -/
  | decayEnd (n : Fin 16) (deferUs : Nat)
  /-- `VLV_TRIP` (R288). -/
  | vlvTrip (n : Fin 16) (hs : Bool)
  /-- `VLV_THERMAL_SHUTOFF` (R289). -/
  | vlvThermalShutoff (n : Fin 16) (hs : Bool)
  /-- `VLV_THERMAL_RESTART` (R289). -/
  | vlvThermalRestart (n : Fin 16) (hs : Bool)
  /-- `OPEN_COIL` (R287). -/
  | openCoil (n : Fin 16)
  /-- `REGULATOR_FAULT` (R284). -/
  | regulatorFault (n : Fin 16)
  /-- `DUTY_BIN` (R290). -/
  | dutyBin (n : Fin 16)
  /-- `F2_WAIT_EXPIRED` (R298). -/
  | f2WaitExpired (n : Fin 16)
  /-- `VLV_PULSE` (R301). -/
  | vlvPulse (c : CmdId)
  /-- `VLV_READ` (R301). -/
  | vlvRead (c : CmdId)
  /-- `VLV_CLEAR` (R289). -/
  | vlvClear (c : CmdId)
  /-- `CTL_GATE` (R309). -/
  | ctlGate (k : Fin 64)
  /-- `CTL_COMPUTE_DONE` (R305). -/
  | ctlComputeDone (k : Fin 64) (eng : Fin 3) (bad : Option Word)
  /-- `CTL_DEADLINE` (R309). -/
  | ctlDeadline (k : Fin 64)
  /-- `COAST_EXPIRED` (R344). -/
  | coastExpired (k : Fin 64)
  /-- `START_SEED_TIMEOUT` (R328). -/
  | startSeedTimeout (k : Fin 64)
  /-- `ENGINE_FAULT` (R525). -/
  | engineFault (e : Fin 3)
  /-- `CARVE_HANDOVER` (R351). -/
  | carveHandover (home : Fin 2)
  /-- `CTL_COEF_WRITE` (R335). -/
  | ctlCoefWrite (c : CmdId)
  /-- `CTL_SET_WRITE` (R337). -/
  | ctlSetWrite (c : CmdId)
  /-- `CTL_SET_SEAL` (R337). -/
  | ctlSetSeal (c : CmdId)
  /-- `CTL_SRC_SELECT` (R340). -/
  | ctlSrcSelect (c : CmdId)
  /-- `CTL_RESUME` (R328). -/
  | ctlResume (c : CmdId)
  /-- `CTL_STATE_WRITE` (R355). -/
  | ctlStateWrite (c : CmdId)
  /-- `CTL_READ` (R355). -/
  | ctlRead (c : CmdId)
  /-- `CTL_CLEAR_FLAGS` (R321). -/
  | ctlClearFlags (c : CmdId)
  /-- `CTL_ADMIT_CHECK` (R320). -/
  | ctlAdmitCheck (c : CmdId)
  /-- `CTL_SET_READ` (R338). -/
  | ctlSetRead (c : CmdId)
  /-- `SERVICE_STEP` (R358). -/
  | serviceStep
  /-- `WATER_BLOCK_JOURNALLED` (R381). -/
  | waterBlockJournalled (k : Fin 2)
  /-- `AER_EVALUATION` (R377). -/
  | aerEvaluation
  /-- `RESUME_RECORD` (R394). -/
  | resumeRecord
  /-- `AUTO_RELEASE` (R392). -/
  | autoRelease
  /-- `SVC_START` (R359). -/
  | svcStart (c : CmdId)
  /-- `SVC_STOP` (R370). -/
  | svcStop (c : CmdId)
  /-- `SVC_ABORT` (R370). -/
  | svcAbort (c : CmdId)
  /-- `SVC_NEXT` (R370). -/
  | svcNext (c : CmdId)
  /-- `SVC_READ` (R396). -/
  | svcRead (c : CmdId)
  /-- `SVC_RELEASE` (R392). -/
  | svcRelease (c : CmdId)
  /-- `SVC_FAULT_CLEAR` (R396). -/
  | svcFaultClear (c : CmdId)
  /-- `SVC_RECIPE_LOAD` (R389). -/
  | svcRecipeLoad (c : CmdId)
  /-- `SVC_WATER_DOSE` (R396). -/
  | svcWaterDose (c : CmdId)
  /-- `SVC_LEDGER_READ` (R383). -/
  | svcLedgerRead (c : CmdId)
  /-- `SVC_LOT_OPEN` (R390). -/
  | svcLotOpen (c : CmdId)
  /-- `SVC_LOT_CLOSE` (R390). -/
  | svcLotClose (c : CmdId)
  /-- `BUS_FRAME_RECEIVED` (R406). -/
  | busFrameReceived (ch : Fin 2) (f : BusFrame)
  /-- `ROSTER_HEARTBEAT` (R432). -/
  | rosterHeartbeat (ch : Fin 2) (f : BusFrame)
  /-- `ROSTER_DATA` (R431). -/
  | rosterData (ch : Fin 2) (f : BusFrame)
  /-- `ROSTER_MISS` (R432). -/
  | rosterMiss (r : Fin 96)
  /-- `ASSIGN_TIMEOUT` (R432). -/
  | assignTimeout (r : Fin 96)
  /-- `STANDBY_REPEAT` (R433). -/
  | standbyRepeat (r : Fin 96) (node : Fin 128)
  /-- `OWN_HEARTBEAT` (R429). -/
  | ownHeartbeat (ch : Fin 2)
  /-- `RMB_REQUEST_SEGMENT` (R435). -/
  | rmbRequestSegment (ch : Fin 2) (f : BusFrame)
  /-- `RMB_SEGMENT_TIMEOUT` (R435). -/
  | rmbSegmentTimeout (ch : Fin 2) (c : Fin 8)
  /-- `BUS_REFERENCE_RECEIVED` (R427). -/
  | busReferenceReceived (ch : Fin 2) (f : BusFrame)
  /-- `TIME_INFO_RECEIVED` (R425). -/
  | timeInfoReceived (ch : Fin 2) (f : BusFrame)
  /-- `REFERENCE_SEND` (R424). -/
  | referenceSend (ch : Fin 2) (k : Nat)
  /-- `TT_TIME_MARK` (R421). -/
  | ttTimeMark (ch : Fin 2) (col : Fin 32)
  /-- `TX_ENABLE_EXPIRED` (R421). -/
  | txEnableExpired (ch : Fin 2)
  /-- `REFERENCE_LOST` (R427). -/
  | referenceLost (ch : Fin 2)
  /-- `BUS_TX_TAKE` (R410). -/
  | busTxTake (ch : Fin 2)
  /-- `BUS_TX_DONE` (R412). -/
  | busTxDone (ch : Fin 2) (out : TxOutcome) (ago : Nat)
  /-- `BUS_ERROR_DETECTED` (R414). -/
  | busErrorDetected (ch : Fin 2) (transmitting : Bool) (e : BusError) (ago : Nat)
  /-- `BUS_RECOVERED` (R415). -/
  | busRecovered (ch : Fin 2) (us : Nat)
  /-- `TRANSCEIVER_DOWN` (R403). -/
  | transceiverDown (ch : Fin 2)
  /-- `TRANSCEIVER_UP` (R403). -/
  | transceiverUp (ch : Fin 2)
  /-- `BUS_MODE_APPLY` (R401). -/
  | busModeApply (ch : Fin 2)
  /-- `BUS_IDLE_PARAM_APPLY` (R436). -/
  | busIdleParamApply (ch : Fin 2)
  /-- `RATE_DWELL_END` (R404). -/
  | rateDwellEnd (ch : Fin 2)
  /-- `RATE_DETECT_TIMEOUT` (R404). -/
  | rateDetectTimeout (ch : Fin 2)
  /-- `BUS_RATE_DETECT` (R404). -/
  | busRateDetect (c : CmdId)
  /-- `BUS_READ` (R437). -/
  | busRead (c : CmdId)
  /-- `BUS_TX_FLUSH` (R416). -/
  | busTxFlush (c : CmdId)
  /-- `BUS_FRAME_US` (R413). -/
  | busFrameUs (c : CmdId)
  /-- `BUS_ROLE_ASSIGN` (R433). -/
  | busRoleAssign (c : CmdId)
  /-- `BUS_ROLE_READ` (R437). -/
  | busRoleRead (c : CmdId)
  /-- `GNSS_EPOCH` (R453). -/
  | gnssEpoch (k : Nat) (meas : List GnsMeas) (sol : Option GnsSol)
  /-- `NAV_UNIT_COMPLETE` (R455). -/
  | navUnitComplete (u : NavUnit)
  /-- `SOLUTION_TIMEOUT` (R464). -/
  | solutionTimeout
  /-- `DT_STEP` (R462). -/
  | dtStep
  /-- `HOLDOVER_UPDATE` (R466). -/
  | holdoverUpdate
  /-- `LEAP_SECOND` (R441). -/
  | leapSecond (ofs : Int) (dt : Nat)
  /-- `TIME_PULSE` (R468). -/
  | timePulse (k : Nat)
  /-- `SAMPLE_COUNT_CHECK` (R446). -/
  | sampleCountCheck (b : Fin 2) (n : Nat)
  /-- `GSCLK_GAP` (R446). -/
  | gsclkGap (b : Fin 2)
  /-- `AGC_CHECK` (R447): how often each code of R445 came in 100 ms, I and Q together. -/
  | agcCheck (b : Fin 2) (codes : Vector Nat 4)
  /-- `BAND_DROP` (R449). -/
  | bandDrop (n : Fin 32) (b : Fin 2)
  /-- `SNAP_CAPTURE_START` (R470). -/
  | snapCaptureStart
  /-- `SNAP_CAPTURE_END` (R470, R471): the samples of each band, I in [3:2] and Q in [1:0], and the ns from the moment the capture
  waited for to its first sample. -/
  | snapCaptureEnd (l1 l5 : List (BitVec 4)) (lead : Fin 25)
  /-- `SNAP_PROCESS_DONE` (R473). -/
  | snapProcessDone (found : List SnapSat)
  /-- `GNS_READ` (R479). -/
  | gnsRead (c : CmdId)
  /-- `GNS_TIME_SET` (R462). -/
  | gnsTimeSet (c : CmdId)
  /-- `GNS_SURVEY_RESTART` (R459). -/
  | gnsSurveyRestart (c : CmdId)
  /-- `GNS_SNAP` (R470). -/
  | gnsSnap (c : CmdId)
  /-- `GNS_SNAP_RELEASE` (R470). -/
  | gnsSnapRelease (c : CmdId)
  /-- `GNS_CH_READ` (R479). -/
  | gnsChRead (c : CmdId)
  /-- `POWER_ON` (R490). -/
  | powerOn (pins : Fin 4)
  /-- `POWER_ON_RESET` (R490). -/
  | powerOnReset
  /-- `NRST_RELEASE` (R490). -/
  | nrstRelease (pins : Fin 4)
  /-- `START_UP` (R491). -/
  | startUp (keyOk sigA sigB : Bool) (vlogMv : Nat) (test : Option FieldTest)
  /-- `LIFT_START_TIMEOUT` (R493). -/
  | liftStartTimeout
  /-- `FIELD_DIE_START_UP` (R493). -/
  | fieldDieStartUp (t : FieldTest)
  /-- `FIELD_WATCHDOG_RESET` (R530). -/
  | fieldWatchdogReset
  /-- `WAKE_ATTEMPT_FAIL` (R496). -/
  | wakeAttemptFail (unit : Fin 3) (linkRuns : Bool)
  /-- `DOMAIN_RETURN_TIMEOUT` (R497). -/
  | domainReturnTimeout (n : Fin 11) (back : Bool)
  /-- `CORE_BROWNOUT_LOW_POWER` (R485). -/
  | coreBrownoutLowPower (asleepMs : Nat) (late : BitVec 11)
  /-- `CORE_BROWNOUT_FULL` (R485). -/
  | coreBrownoutFull
  /-- `CHALET_CONTENT_LOSS` (R485). -/
  | chaletContentLoss
  /-- `REGULATOR_READY` (R489). -/
  | regulatorReady
  /-- `SLEEP_REQ` (R499). -/
  | sleepReq (c : CmdId)
  /-- `SLEEP_ENTRY` (R500). -/
  | sleepEntry
  /-- `PAD_RELEASE` (R502). -/
  | padRelease (c : CmdId)
  /-- `PWR_READ` (R512). -/
  | pwrRead (c : CmdId)
  /-- `WAKE` (R504). -/
  | wake (src : Fin 6) (late : BitVec 11)
  /-- `FIELD_STEP_BEGIN` (R506). -/
  | fieldStepBegin (mv : Nat)
  /-- `FIELD_STEP_END` (R506). -/
  | fieldStepEnd (mv : Nat)
  /-- `F3_CLASS_SHED` (R507). -/
  | f3ClassShed (c : Fin 4)
  /-- `F3_CLASS_RELEASE` (R507). -/
  | f3ClassRelease (c : Fin 4)
  /-- `LOGIC_STEP_BEGIN` (R509). -/
  | logicStepBegin (mv : Nat)
  /-- `LOGIC_STEP_END` (R509). -/
  | logicStepEnd (mv : Nat)
  /-- `VFLD_HIGH` (R483). -/
  | vfldHigh (mv : Nat)
  /-- `HOUSEKEEPING_ROUND` (R515). -/
  | housekeepingRound (r : HouseRound)
  /-- `THERMAL_CAP_STEP` (R540). -/
  | thermalCapStep
  /-- `LOCKSTEP_MISMATCH` (R523). -/
  | lockstepMismatch (us : Nat) (differs : Bool)
  /-- `SUPERVISOR_HEARTBEAT_MISS` (R524). -/
  | supervisorHeartbeatMiss
  /-- `PATROL_STALL` (R516). -/
  | patrolStall
  /-- `ECC_UNCORRECTABLE` (R518). -/
  | eccUncorrectable (region : Fin 9) (addr : BitVec 32) (other : Bool)
  /-- `QUARANTINE_DONE` (R527). -/
  | quarantineDone (u : Fin 52) (passed : Bool)
  /-- `GROOMING_PASS` (R533). -/
  | groomingPass
  /-- `GROOMING_COMMIT` (R533). -/
  | groomingCommit (p : GroomPlan)
  /-- `CONTROL_DIE_SHUTDOWN` (R542). -/
  | controlDieShutdown (sensor : Fin 6) (value : Int)
  /-- `FIELD_DIE_SHUTDOWN` (R543). -/
  | fieldDieShutdown
  /-- `FIELD_LATCH_CLEAR` (R541). -/
  | fieldLatchClear
  /-- `FLASH_OPERATION_DONE` (R544). -/
  | flashOperationDone
  /-- `HLT_READ` (R551). -/
  | hltRead (c : CmdId)
  /-- `HLT_GROOM_NOW` (R551). -/
  | hltGroomNow (c : CmdId)
  /-- `HLT_LOG_READ` (R551). -/
  | hltLogRead (c : CmdId)
  /-- `HLT_DEMAND_CLEAR` (R517). -/
  | hltDemandClear (c : CmdId)
  /-- `LOT_RECORD_SIGNED` (R564). -/
  | lotRecordSigned
  /-- `ID_ATTEST` (R556). -/
  | idAttest (c : CmdId)
  /-- `ID_READ` (R566). -/
  | idRead (c : CmdId)
  /-- `ID_ENROL` (R559). -/
  | idEnrol (c : CmdId)
  /-- `ID_RECORD_FETCH` (R564). -/
  | idRecordFetch (c : CmdId)
  /-- `ID_NONCE` (R566). -/
  | idNonce (c : CmdId)
  /-- `READ_TRANSACTION` (R58). -/
  | readTransaction (mosi : List Byte)
  /-- `OPEN_LOAD_END` (R254). -/
  | openLoadEnd (n : Fin 64)
  /-- `OVER_LOAD_END` (R255). -/
  | overLoadEnd (n : Fin 64)
  /-- `SHORT_TO_SUPPLY_END` (R256). -/
  | shortToSupplyEnd (n : Fin 64)
  /-- `REVERSE_BLOCKING_END` (R257). -/
  | reverseBlockingEnd (n : Fin 64)
  /-- `OPEN_COIL_END` (R287). -/
  | openCoilEnd (n : Fin 16)
  /-- `FLASH_REFRESH_DUE` (R534). -/
  | flashRefreshDue (sectors discarded : Nat)
  /-- `SIGNAL_ACQUISITION` (R449). -/
  | signalAcquisition (sys : Fin 3) (sv : Fin 64) (elev : Option Nat) (bands : Fin 4)
  deriving DecidableEq, Repr

end Sys2Proof
end

