-- ==== Sys2Proof/Machine/State.lean ====
section
/-!
DEFINITION. Machine/State.lean: the state of the TCB-9640 as one plain record, the reasons a step may stop, and the
state right after the power-on reset of domain D0.
-/
namespace Sys2Proof.Machine

/-- Why a step stops with a fault: for no reason. Every address a command can reach lies in the memory map (R66, R71), and
the spec gives every command of the table an effect. -/
inductive Fault where
  deriving DecidableEq, Repr

/-- Why a command is refused by the model. -/
inductive Refusal where
  /-- The command has no meaning in this model yet. Raised by the dispatch alone. Safe. -/
  | notModelled (mnemonic : String)
  deriving DecidableEq, Repr

/-- Sparse memory in canonical form: addresses strictly rising, no entry equal to what an unlisted address reads as. -/
abbrev Mem := List Host.Cell

/-- What an unlisted byte of the queue region or of the snapshot buffer reads as (DESIGN CHOICE, log entry 2). -/
def memDefault : Byte := 0

/-- Every register, buffer, queue and pin of the block but its memories and the waiting commands. -/
structure Dev where
  time : TimeSt
  gate : GateSt
  host : HostSt
  rings : Vector Ring 20
  laidOut : Bool
  out : List RingWrite
  cmd : CmdSt
  lift : LiftSt
  afe : AfeSt
  dlx : DlxSt
  fio : FioSt
  vlv : VlvSt
  ctl : CtlSt
  svc : SvcSt
  bus : BusSt
  gns : GnsSt
  pwr : PwrSt
  hlt : HltSt
  idn : IdnSt
  /-- The model's own field, no register of the device: the number of free values taken so far (log entry 4). -/
  free : Nat
  deriving DecidableEq, Repr

/-- The state of the block: the commands that wait, first in first out, the queue region's bytes (R71), the bytes of the
GNSS snapshot buffer (R26) and everything else. -/
structure State where
  pending : List Instr
  mem : Mem
  snap : Mem
  dev : Dev
  deriving DecidableEq, Repr

/-- The default number of entries of each queue (R71). -/
def ringDefault (q : Nat) : Nat :=
  [16, 64, 64, 64, 16, 64, 64, 64, 1024, 2048, 512, 64, 64, 128, 64, 128, 16, 1024, 0, 0].getD q 0

/-- The entry size of each queue in bytes (R71). -/
def ringEntry (q : Nat) : Nat :=
  [64, 64, 64, 64, 32, 32, 32, 32, 32, 16, 64, 32, 128, 128, 128, 128, 512, 32, 0, 0].getD q 0

def Ring.reset (q : Nat) : Ring where
  base := 0
  size := ringDefault q
  head := 0
  tail := 0
  en := false
  irqTime := 0
  irqCount := 0
  cfgErr := false
  dbErr := false
  aux := 0
  aged := false

def TimeSt.reset : TimeSt where
  tick := 0
  dtFs := 0
  steer := 0
  tickDt := 0
  nextDt := 1000000000000
  edges := []
  running := false

def GateSt.reset : GateSt where
  ports := Vector.replicate 8 []
  bib := 0
  wrap := 0
  buffer := []
  loss := none

def HostSt.reset : HostSt where
  hrdy := false
  resetSeen := true
  crcErr := false
  frameErr := false
  addrErr := false
  crcCount := 0
  faCount := 0
  wakeFail := false
  limp := false
  layoutErr := false
  imgErr := false
  bootMode := 0
  fwBank := false
  stage := 0
  cause := 0
  loaderNext := false
  dtHi := 0
  tickHi := 0
  winPage := 0
  snapPage := 0
  scratch := 0
  intStatus := 0
  intEnable := 0
  miso := []
  heard := false
  silent := false
  rmbSilent := []
  rmbHeard := []
  badWords := []
  fieldMir := Vector.replicate 64 0
  healthMir := Vector.replicate 64 0

def ImgSlot.reset : ImgSlot where
  bytes := []
  opened := none
  closed := false
  header := []

def CmdSt.reset : CmdSt where
  live := []
  resv := Vector.replicate 4 0
  remoteLane := Vector.replicate 4 []
  q23 := false
  laneTurn := Vector.replicate 4 false
  params := []
  pairs := []
  waits := []
  batches := []
  discarded := []
  nextId := 1
  blobs := []
  slots := Vector.replicate 2 ImgSlot.reset
  fw := { opened := none, bytes := [], checked := false, nextBank := false }
  reads := []

/-- An output slot that commands nothing: duties 0, or no pulse and no current. -/
def SlotVal.idle (n : Nat) : SlotVal :=
  if n < 8 then .bank (List.replicate 8 0) none
  else .valve { cseq := 0, kind := 0, setMa := 0, holdT := 0 }

/-- The output slots as they stand when nothing has been commanded. -/
def SlotVal.idles : Vector SlotVal 24 := Vector.ofFn fun n => SlotVal.idle n.val

def LiftSt.reset : LiftSt where
  up := .out 0 0
  downSeq := 0
  sent := 0
  rcvd := 0
  upDisc := 0
  echoErr := 0
  applySent := 0
  appliedRep := 0
  missRep := 0
  fencedRep := 0
  downDiscRep := 0
  missSeen := 0
  fencedSeen := 0
  marked := true
  depthMaxDown := 0
  depthMaxUp := 0
  cycDown := 0
  cycDownMax := 0
  cycUp := 0
  cycUpMax := 0
  runDown := 0
  runUp := 0
  cycle := 0
  frames := 0
  applyLeft := 0
  safeSent := false
  relSent := false
  eyeUp := 0
  phaseUp := 0
  goalUp := 0
  eyeDown := 0
  phaseDown := 0
  goalDown := 0
  eyeLow := 0
  secUp := 0
  secDown := 0
  silent := false
  silentFr := 0
  lastUpTick := 0
  staleSlots := 2 ^ 64 - 1
  newest := 0
  stopSeen := false
  holdSeen := false
  opened := SlotVal.idles
  openMask := 0
  closed := none
  apply := none
  missTick := 0
  missMask := 0
  safePend := []
  relPend := []
  pairPrio := []
  pairRound := 0
  echoRound := 0
  echoBad := []
  cfg := []
  reported := false
  temps := Vector.replicate 8 0
  tempTick := 0
  down := .out 0 0
  upSeq := 0
  fTick := 0
  fDt := 0
  fTq := 0
  fTrim := 0
  fCycle := 0
  fFlags := 0
  fDom := Vector.replicate 11 0
  excSlot := Vector.replicate 8 0
  sweepSlot := Vector.replicate 4 0
  downDisc := 0
  copies := Vector.replicate 24 (Vector.replicate 4 none)
  applyLost := 0
  lastApply := 0
  miss := 0
  fenced := 0
  fencedEpoch := 0
  armed := false
  stopped := false
  validOfs := 0
  stopUs := 0
  stopOfs := 0
  reportLeft := 0
  relField := 0
  cntRound := 0
  urg := Vector.replicate 5 none
  evt := Vector.replicate 8 none
  diagNext := []
  pairs := []
  fsqRep := []
  fsqReq := []

def AfeCh.reset : AfeCh where
  on := false
  seq := 0
  settled := 0
  settleUs := 0
  setting := 0
  restart := false
  hist := []
  recent := []
  winFrom := 0
  winTick := 0
  winCnt := 0
  abandoned := false
  brk := none
  excOff := false
  swapped := false
  leads := []
  rLead := none
  leadNext := none
  leadTurn := false
  leadCmd := []
  shadow := 0
  sub := .none
  conv := none
  refCnt := 0
  refs := []
  fit := none
  word := none
  wordOfs := 0
  depWhy := none
  overHigh := false
  uncal := false
  result := 0x50
  resTick := 0
  rcvSeq := none
  stale := false
  cdBroken := false
  brkSaid := false
  cdOver := false
  cdDep := false
  lastSettled := 0x50
  breaks := 0
  streamCnt := 0

def BlkSt.reset : BlkSt where
  level := false
  stuck := false
  edges := []

def AfeSt.reset : AfeSt where
  ch := Vector.replicate 32 AfeCh.reset
  grp := Vector.replicate 4 { serves := none, spare := none, unavailable := false, pos := 0 }
  blk := Vector.replicate 2 BlkSt.reset

def CalData.none : CalData where
  open_ := .none
  short := .none
  load := .none
  air := .none
  ref := .none

def DlxCh.reset : DlxCh where
  mode := 0
  grain := 1
  seq := 0
  win := []
  filled := false
  settled := 0
  fault := none
  clean := 0
  path := .own
  differs := 0
  last := []
  steps := []
  cal := CalData.none
  word := none
  computed := false
  oocCause := 0
  result := 0x50
  density := 0
  resTick := 0
  rcvSeq := none
  stale := false
  cdFault := false
  cdPartial := false
  cdOoc := false
  lastSettled := 0x50
  streamCnt := 0

def DlxSt.reset : DlxSt where
  ch := Vector.replicate 4 DlxCh.reset
  sweep := none
  queue := []
  paused := false
  rot := 0
  spareFree := true
  recs := Vector.replicate 32 { cap := none, oven := none }

def Pin.reset : Pin where
  raw := false
  since := 0
  count := 0
  next := false
  filtered := false
  band := .broken
  closedLast := false
  wbCount := 0
  wbNext := false
  broken := false
  fresh := true
  freshAt := none
  pulses := 0
  latched_ := 0
  latchTick := 0
  cmd := 0
  duty := 0
  hz := 100
  hzCmd := 100
  ilim := false
  therm := false
  latched := false
  restarts := []
  openLoad := none
  overLoad := false
  shortSup := false
  reverse := false
  shed := false
  safe := false
  relPend := false
  seen := 0xC
  cdCount := 0
  cdTick := none
  cntRcv := 0
  gateDue := false
  gate := none
  freq := 0
  freqStale := false
  gateSilent := false
  clearCmd := []
  clearPend := false
  cntCmd := []
  latchRec := false

def FioSt.reset : FioSt where
  pin := Vector.replicate 64 Pin.reset
  bank := Vector.replicate 8 { low := 0, lowRaised := false, imgTick := 0, freqWait := [] }

def VlvCh.reset : VlvCh where
  phase := .off
  prof := none
  ttp := none
  defer := 0
  deferAt := 0
  cause := 0
  ignored := 0
  ignoredCmds := []
  reports := []
  next := none
  cseq := 0
  cseqNew := true
  sp := 0
  cmdSp := 0
  tripSp := none
  dutyLimit := false
  forced := false
  fault := false
  therm := false
  restarts := []
  latched := false
  hsFault := false
  openCoil := false
  coilSeen := false
  dither := 0
  safe := false
  relPend := false
  safePeak := false
  shed := false
  f2Hold := false
  hot := false
  bins := []
  status := 0x00000B00
  statTick := 0
  last := 0xFFF00000
  lastKind := 0
  reqs := []
  placed := []
  clearPend := false
  clearCmd := []
  latchRec := false

def VlvSt.reset : VlvSt where
  ch := Vector.replicate 16 VlvCh.reset
  hs := Vector.replicate 8 { therm := false, restarts := [] }

def CtlInst.reset : CtlInst where
  attempt := []
  base := .free
  cause := 0
  bfp := false
  held := false
  coast := false
  st := []
  ste := 0
  u := []
  uraw := []
  next := none
  uPrev := []
  backlog := []
  done := none
  refs := []
  ramp := []
  seenSrc := []
  ins := []
  gate := none
  lastGate := 0
  sticky := 0
  limit := false
  zclamp := false
  handover := false
  overruns := 0
  late := 0
  since := 0
  sets := []
  setUse := 0
  auto := false
  setPend := none
  pend := []
  resume := []
  enable := none
  wrote := false
  liveCdr := none
  prbs := 0x1FF
  reseed := false
  chk := none
  extNew := 0
  outTick := 0

def CtlSt.reset : CtlSt where
  inst := Vector.replicate 64 CtlInst.reset
  serving := Vector.ofFn fun e => e.val
  faulty := Vector.replicate 3 false
  claims := 0
  fenced := Vector.replicate 2 0

/-- The units of R550 in service or spare as a part leaves test: SC, CE2, the group spares and DXS are spares. The words of
`HLT_UNIT` at reset follow its Effect (log entry 137). -/
def UnitSt.reset (u : Nat) : UnitSt where
  st := if u = 2 ∨ u = 5 ∨ (38 ≤ u ∧ u ≤ 41) ∨ u = 46 ∨ u = 48 then 1 else 0
  role :=
    if u ≤ 1 then 0
    else if u = 3 then 1
    else if u = 4 then 2
    else if 6 ≤ u ∧ u ≤ 37 then 3 + (u - 6) / 8
    else if 42 ≤ u ∧ u ≤ 45 then 7 + (u - 42)
    else 255
  faults := 0
  replaced := none
  again := false

def HltSt.reset : HltSt where
  units := Vector.ofFn fun u => UnitSt.reset u.val
  counts := Vector.replicate 8 0
  subs := 0
  synthTaken := false
  doubleFault := false
  scActive := false
  supSingle := false
  rollback := none
  rollbacks := 0
  patrolLost := false
  patrolRestart := none
  demand := false
  causes := Vector.replicate 4 false
  refs := Vector.replicate 3 { ppm := 0, rounds := 0, failed := false, suspect := false }
  refsDisagree := false
  refUsed := 0
  clockRounds := 0
  clockFault := false
  echoCycles := 0
  epochUsed := Vector.replicate 11 0
  sensors := Vector.replicate 14 { value := 0, rounds := 0, failed := false, warn := false, ofs := 0, history := [] }
  thrStep := 0
  thrBelow := Vector.replicate 4 0
  thrAbove := Vector.replicate 4 0
  margin := 0
  capOn := false
  capLevel := 0
  capMargin := 0
  ctlLatch := false
  fieldLatch := false
  shutdownWord := none
  groomBoot := false
  groomRun := false
  groomReason := 0
  groomPass := 0
  groomRepeat := none
  groomLast := 0
  groomCmd := none
  v3 := 1100
  pl3 := true
  exhausted := false
  planDt := 0
  refresh := Vector.replicate 8 525600
  flash := []
  flashOpen := false
  replay := (0, 0)
  erases := 0
  healthLog := []
  ageLog := []
  logSeq := 0

def PwrSt.reset : PwrSt where
  powered := true
  bootPins := 0
  bootCount := 0
  fresh := true
  started := false
  autoWait := none
  dom := Vector.ofFn fun n => if n.val = 0 then 0 else 2
  domRetry := Vector.replicate 11 0
  domDead := Vector.replicate 11 false
  lowPower := false
  lpBarred := false
  pll := false
  xin := false
  level := 0
  raiseTo := none
  raiseReady := false
  pl3Mv := 1100
  coreMv := 0
  wakeRetry := 0
  fieldUp := false
  fieldPow := false
  pinFail := 0
  vdFail := 0
  modFail := 0
  excFail := 0
  hold := true
  holdEnd := .run
  sleepCmd := none
  stopped := []
  enterD6 := none
  enterD1 := none
  sleepSlot := false
  pads := Vector.replicate 11 false
  hirqHeld := false
  fStep := 0
  lStep := 0
  shed := Vector.replicate 4 false
  f3Ended := false
  relClass := Vector.replicate 4 false
  vfld := 0
  vlog := 0
  vfb := Vector.replicate 8 0
  vvg := Vector.replicate 4 0
  vfldField := 0
  vfldHigh := false

def Dry.reset : Dry where
  phase := 0
  susp := false
  fault := false
  obsFault := false
  limitHeld := false
  silentHeld := false
  silentDone := false
  ms := 0
  pinMs := 0
  runout := none
  noMeasMs := 0
  drop := 0
  tooHot := false
  dryMs := 0
  cdr := none
  recipe := 0xFF
  recipeCrc := 0
  rollCount := 0
  emptied := 0
  heldRoll := 0
  builtSp := 0
  rebuild := none
  closing := false
  lot := none

def Burner.reset : Burner where
  st := 0
  ms := 0
  retries := 0
  pause := 0
  fault := false
  owner := none
  want := false
  sp := 0
  settleMs := 0
  gasCount := 0
  energy := 0

def Conv.reset : Conv where
  on := false
  proven := false
  ms := 0
  slip := 0
  stopIn := none
  fault := false
  gate := none
  gateTries := 0
  gateOut := false

def AerBin.reset : AerBin where
  fan := false
  want := false
  suits := false
  frost := false
  susp := false
  suitSince := none
  failSince := none
  emc := 0
  runMs := 0
  cables := Vector.replicate 8 { seen := 0, lost := false, sensors := [] }

def Water.reset : Water where
  phase := 0
  susp := false
  held := false
  cdr := none
  ms := 0
  acc := 0
  block := none
  next := 15
  fails := []
  out := []
  flight := []
  dose := none
  leakMs := 0
  leakMeter := 0
  recipe := 0xFF
  recipeCrc := 0
  closing := false
  lot := none

def Ledger.reset : Ledger where
  used := 0
  pulsed := 0
  metered := 0
  total := 0
  dayNo := 0
  lastTick := 0
  lastDay := none
  flags := 0
  quotaSaid := false
  records := []

def SvcSt.reset : SvcSt where
  ran := false
  running := false
  stopping := false
  claims := 0
  owners := []
  vals := []
  valsOld := []
  steps := 0
  lastStep := none
  cmds := []
  dry := Vector.replicate 6 Dry.reset
  brn := Vector.replicate 4 Burner.reset
  cnv := Vector.replicate 16 Conv.reset
  chain := Vector.replicate 4 { want := false, owner := none, fault := false }
  aer := Vector.replicate 12 AerBin.reset
  amb := { tSum := 0, tN := 0, hSum := 0, hN := 0 }
  ambMins := []
  lastFan := none
  lastHour := 0
  wat := Vector.replicate 2 Water.reset
  ledger := Ledger.reset
  pulseEnds := []
  lotNext := 1
  closed := []
  resume := []
  release := none
  spoiled := false

def GnsLock.reset : GnsLock where
  code := 0
  carrier := 0
  lost := false
  slip := false
  ms := 0
  weak := 0

def GnsCh.reset : GnsCh where
  used := false
  system := 0
  sv := 0
  elev := none
  bands := 0
  locked := 0
  cn0 := Vector.replicate 2 0
  doppler := Vector.replicate 2 0
  lock := Vector.replicate 2 GnsLock.reset
  mp := Vector.replicate 2 0
  mpOver := 0
  dualIn := false

def SnapSt.reset : SnapSt where
  st := 0
  number := 0
  bands := 0
  process := false
  len := 0
  at_ := none
  begun := false
  first := 0
  time := 0
  steps := 0
  m1 := 0
  m5 := 0
  cmd := none
  desc := none

def GnsSt.reset : GnsSt where
  tq := 0
  unc := none
  solved := false
  steps := 0
  utcOfs := none
  pos := Vector.replicate 3 0
  posSigma := 0
  posMode := 0
  due := none
  dueCause := 0
  dueCmd := none
  dueUnc := 0
  lastStep := none
  setMs := none
  slewing := false
  sats := 0
  good := 0
  lastValid := 0
  lastDual := 0
  u0 := 0
  acc := 0
  accMs := 0
  theta0 := 0
  y0 := 0
  a := 0
  c := 0
  sigmaY := 50000
  sigmaTheta := 20000
  dBound := 1000000
  lockMs := 0
  trained := false
  survey := none
  held := none
  lost := Vector.replicate 2 false
  goodCounts := Vector.replicate 2 0
  agcOut := Vector.replicate 2 false
  chans := Vector.replicate 32 GnsCh.reset
  cap := false
  hold := false
  pulses := 0
  lastPulse := none
  pulseEnd := 0
  pulseLow := false
  snap := SnapSt.reset

def TtSt.reset : TtSt where
  state := 0
  role := 3
  prio := 255
  take := false
  serve := false
  cycle := 0
  matrix := 0
  col := 0
  cell := 0
  excl := none
  missed := 0
  lastRef := none
  disc := false
  ofs := 0
  ofsTq := 0

def BusCh.reset : BusCh where
  tec := 0
  rec_ := 0
  flt := 0
  down := false
  noAck := false
  acks := 0
  offs := 0
  stats := Vector.replicate 8 0
  txq := []
  inner := []
  sent := none
  hbSeq := 0
  rate := none
  tt := TtSt.reset

def RoleSt.reset : RoleSt where
  state := 0
  holder := 0
  former := 0
  cand := 0
  spares := []
  misses := 0
  hbDt := 0
  epPrim := (0, 0xFFFFFFFF)
  epShad := (0, 0xFFFFFFFF)
  stale := []

def BusSt.reset : BusSt where
  ch := Vector.replicate 2 BusCh.reset
  roles := Vector.replicate 96 RoleSt.reset
  nodes := []
  rmb := Vector.replicate 16 none
  rmbOut := Vector.replicate 16 0

def IdnSt.reset : IdnSt where
  records := []
  next := 0
  copies := []
  exported := 0
  keyFault := false
  nonce := none
  lost := false
  attests := []
  statements := []

def Dev.reset : Dev where
  time := TimeSt.reset
  gate := GateSt.reset
  host := HostSt.reset
  rings := Vector.ofFn fun q => Ring.reset q.val
  laidOut := false
  out := []
  cmd := CmdSt.reset
  lift := LiftSt.reset
  afe := AfeSt.reset
  dlx := DlxSt.reset
  fio := FioSt.reset
  vlv := VlvSt.reset
  ctl := CtlSt.reset
  svc := SvcSt.reset
  bus := BusSt.reset
  gns := GnsSt.reset
  pwr := PwrSt.reset
  hlt := HltSt.reset
  idn := IdnSt.reset
  free := 0

/-- The block right after the power-on reset of D0 (R490, R40): every field at the value the spec states for reset, and
at the value the assumption log names where it states none. No command waits. -/
def State.reset : State where
  pending := []
  mem := []
  snap := []
  dev := Dev.reset

end Sys2Proof.Machine
end

