-- ==== Sys2Proof/Machine/Flags.lean ====
section
/-!
DEFINITION. Machine/Flags.lean: the status bits the host window computes from the rings: how full a ring is, when a queue's
interrupt bit is set, and the interrupt line.
-/
namespace Sys2Proof.Machine

/-- Entries between a ring's indexes, modulo 65,536 (R73). -/
def Ring.count (r : Ring) : Nat := (r.tail + 65536 - r.head) % 65536

/-- Free entries of a ring. -/
def Ring.free (r : Ring) : Nat := r.size - r.count

/-- The byte offset of the slot of an index (R72, R73). -/
def Ring.slotAt (r : Ring) (q idx : Nat) : Nat := r.base + (idx % r.size) * ringEntry q

/-- The host produces the commands (Q0-Q3) and the bus transmit entries (Q12, Q14); the device every other ring (R71). -/
def hostProduced (q : Nat) : Bool := q < 4 || q == 12 || q == 14

/-- The index the host counts free slots from: `Q_AUX` for the bus transmit rings (R410), else the head. -/
def Ring.back (r : Ring) (q : Nat) : Nat := if q == 12 || q == 14 then r.aux % 65536 else r.head

/-- The slots of a host-produced ring the host may fill (R74, R410). -/
def Ring.room (r : Ring) (q : Nat) : Nat := r.size - (r.tail + 65536 - r.back q) % 65536

/-- The age condition of R68: the oldest unconsumed entry of a device-produced ring is older than IRQ_TIME. -/
def ageCond (q : Nat) (r : Ring) : Bool := !hostProduced q && r.irqTime != 0 && r.count != 0 && r.aged

/-- The conditions of R68 for a queue's interrupt bit: its count, or the age of its oldest entry. -/
def irqCond (q : Nat) (r : Ring) : Bool :=
  r.en && r.irqCount != 0 &&
    ((if hostProduced q then r.irqCount ≤ r.room q else r.irqCount ≤ r.count) || ageCond q r)

/-- Sets bits of HST_INT_STATUS. -/
def intSet (mask : Nat) (d : Dev) : Dev :=
  { d with host := { d.host with intStatus := d.host.intStatus ||| w32 mask } }

/-- Sets a queue's interrupt bit when its condition holds (R68). -/
def irqCheck (q : Nat) (d : Dev) : Dev :=
  if q < 18 && irqCond q (vAt d.rings q (Ring.reset q)) then intSet (2 ^ q) d else d

/-- A queue's registers. -/
def ringOf (d : Dev) (q : Nat) : Ring := vAt d.rings q (Ring.reset q)

/-- HIRQn is asserted (low): some status bit is also enabled (R65). -/
def hirq (d : Dev) : Bool := (d.host.intStatus &&& d.host.intEnable) != 0

end Sys2Proof.Machine
end

