-- ==== Sys2Proof/Machine/Ops.lean ====
section
/-!
DEFINITION. Machine/Ops.lean: the named operations every command is written with: sparse memory, rings and their
interrupts, events handed to the Start Gate, completions of commands.
-/
namespace Sys2Proof.Machine

/-! ## Memory -/

/-- One byte of memory: a listed byte, or what an unlisted address reads as. -/
def memGet : Mem → Nat → Byte
  | [], _ => memDefault
  | (b, v) :: rest, a => if a = b then v else memGet rest a

/-- Writes one byte; the list stays in canonical form: writing the default value removes the entry. -/
def memSet : Mem → Nat → Byte → Mem
  | [], a, v => if v = memDefault then [] else [(a, v)]
  | (b, w) :: rest, a, v =>
    if a < b then (if v = memDefault then (b, w) :: rest else (a, v) :: (b, w) :: rest)
    else if a = b then (if v = memDefault then rest else (b, v) :: rest)
    else (b, w) :: memSet rest a v

/-- Writes bytes from an address upwards. -/
def memWrite (m : Mem) (a : Nat) : List Byte → Mem
  | [] => m
  | v :: vs => memWrite (memSet m a v) (a + 1) vs

/-- Reads `n` bytes from an address upwards. -/
def memRead (m : Mem) (a : Nat) : (n : Nat) → List Byte
  | 0 => []
  | n + 1 => memGet m a :: memRead m (a + 1) n

/-- Every listed address lies above `lo`, in rising order, and no entry holds the default value. -/
def memSorted : (lo : Option Nat) → Mem → Bool
  | _, [] => true
  | lo, (a, v) :: rest =>
    (match lo with
     | none => true
     | some l => decide (l < a)) && decide (v ≠ memDefault) && memSorted (some a) rest

/-- The canonical form of a memory. -/
abbrev Mem.wf (m : Mem) : Prop := memSorted none m = true

/-! ## Time and event records -/

/-- DT in whole nanoseconds, as a 64-bit count (R439). -/
def dtNs (d : Dev) : Nat := toBits 64 (d.time.dtFs / 1000000)

/-- DT of the latest TICK edge, in ns (R24). -/
def tickDtNs (d : Dev) : Nat := toBits 64 (d.time.tickDt / 1000000)

/-- `x` divided by `y`, rounded up. -/
def ceilDiv (x y : Nat) : Nat := (x + (y - 1)) / y

/-- The TIME field of R96 from a time quality and an uncertainty in ns, coded under R443. -/
def timeCode (tq : Nat) (unc : Option Nat) : Nat :=
  let t := (tq % 4) * 16384
  match unc with
  | none => t + 0x3FFF
  | some u =>
    if u ≤ 4095 then t + u
    else if ceilDiv u 1000 ≤ 4095 then t + 0x1000 + ceilDiv u 1000
    else if ceilDiv u 1000000 ≤ 4095 then t + 0x2000 + ceilDiv u 1000000
    else if ceilDiv u 1000000000 ≤ 4094 then t + 0x3000 + ceilDiv u 1000000000
    else t + 0x3FFE

/-- The time quality and uncertainty of DT now (R35, R442). -/
def timeWord (d : Dev) : Nat := timeCode d.gns.tq d.gns.unc

/-- PATH of R96: subsystem, level and object. -/
def mkPath (sub level obj : Nat) : Nat := sub * 2 ^ 28 + level * 2 ^ 24 + obj % 2 ^ 24

/-- PATH of a channel at level 3 with its bank or group, by the numbers in its name (R4, R96; log entry 134). -/
def chanPath (sub bank ch : Nat) : Nat := mkPath sub 3 (bank * 65536 + ch * 256 + 0xFF)

/-- PATH of a bank or group at level 4 (R96). -/
def bankPath (sub bank : Nat) : Nat := mkPath sub 4 (bank * 65536 + 0xFFFF)

/-- PATH of the subsystem of an event code, at level 5 (R96). -/
def subPath (sub : Nat) : Nat := mkPath sub 5 0xFFFFFF

/-- PATH of a die at level 6: 0 control, 1 field (R96). -/
def diePath (sub die : Nat) : Nat := mkPath sub 6 (die * 65536 + 0xFFFF)

/-- PATH of the package at level 7 (R96). -/
def pkgPath (sub : Nat) : Nat := mkPath sub 7 0xFFFFFF

/-- PATH of a parameter word at level 2 (R96). -/
def paramPath (addr : Nat) : Nat := mkPath (addr / 2 ^ 20) 2 (addr % 2 ^ 20)

/-- Hands an item to a Start Gate port, behind what waits there (R30). -/
def post (port : Fin 8) (g : GateItem) (d : Dev) : Dev :=
  { d with gate := { d.gate with ports := vMod d.gate.ports port (· ++ [g]) } }

/-- Raises an event on a port with a given stamp (R30, R34, R35, R96). -/
def raiseAt (port : Fin 8) (code path dt time : Nat) (data : List Byte) (d : Dev) : Dev :=
  post port (.ev { code := code, path := path, dt := dt, time := time, data := padTo 12 data }) d

/-- Raises an event on a port, stamped now. -/
def raise (port : Fin 8) (code path : Nat) (data : List Byte) (d : Dev) : Dev :=
  raiseAt port code path (dtNs d) (timeWord d) data d

/-- Folds a function over a list of things, changing the device at each. -/
def forEach {α : Type} (xs : List α) (f : α → Dev → Dev) (d : Dev) : Dev := xs.foldl (fun d x => f x d) d

/-- A function applied only where a condition holds. -/
def when (b : Bool) (f : Dev → Dev) (d : Dev) : Dev := if b then f d else d

/-! ## Rings -/

/-- Changes a queue's registers. -/
def ringMod (q : Nat) (f : Ring → Ring) (d : Dev) : Dev := { d with rings := vModN d.rings q f }

/-- Asks for a ring write, which `settle` performs at the end of the command. -/
def emit (w : RingWrite) (d : Dev) : Dev := { d with out := d.out ++ [w] }

/-- RING_ERR and the event of R69: a doorbell (0), layout (1) or configuration (2) error of a queue. -/
def ringError (q kind : Nat) (d : Dev) : Dev :=
  raise 6 0xC004 (subPath 0xC) (le 1 q ++ le 1 kind) (intSet (2 ^ 24) d)

/-- Bytes written over in the queue region hold no error any more (R518). -/
def badClear (lo n : Nat) (d : Dev) : Dev :=
  { d with host := { d.host with badWords := d.host.badWords.filter fun w => w + 4 ≤ lo || lo + n ≤ w } }

/-- Some word of a range of the queue region holds an uncorrectable error (R518). -/
def badIn (d : Dev) (lo n : Nat) : Bool := d.host.badWords.any fun w => lo < w + 4 && w < lo + n

/-- A ring write performed: a pushed entry goes to the slot of the producer index, or is discarded and counted where
the ring is full (R71); a completion goes to the slot reserved for it (R76). A disabled ring takes nothing. -/
def settleOne (s : State) (w : RingWrite) : State :=
  match w with
  | .push q bytes =>
    let r := ringOf s.dev q
    if r.en = false then s
    else if r.free = 0 then { s with dev := ringMod q (fun r => { r with aux := (r.aux + 1) % 2 ^ 32 }) s.dev }
    else
      { s with
        mem := memWrite s.mem (r.slotAt q r.tail) (padTo (ringEntry q) bytes)
        dev := irqCheck q (ringMod q (fun r => { r with tail := (r.tail + 1) % 65536 })
          (badClear (r.slotAt q r.tail) (ringEntry q) s.dev)) }
  | .at q slot bytes =>
    let r := ringOf s.dev q
    if r.en = false then s
    else
      { s with
        mem := memWrite s.mem (r.slotAt q slot) (padTo (ringEntry q) bytes)
        dev := badClear (r.slotAt q slot) (ringEntry q) s.dev }
  | .part q slot ofs bytes =>
    let r := ringOf s.dev q
    { s with
      mem := memWrite s.mem (r.slotAt q slot + ofs) bytes
      dev := badClear (r.slotAt q slot + ofs) bytes.length s.dev }

/-- The ring writes a command asked for, performed in order. -/
def settle (s : State) : State :=
  s.dev.out.foldl settleOne { s with dev := { s.dev with out := [] } }

/-! ## Completions -/

/-- The live command a command row names (R83). -/
def liveCmd (d : Dev) (id : CmdId) : Option Cmd := d.cmd.live.find? fun c => c.id = id && !c.dup

/-- Changes the live command of an id. -/
def cmdMod (id : CmdId) (f : Cmd → Cmd) (d : Dev) : Dev :=
  { d with cmd := { d.cmd with live := d.cmd.live.map fun c => if c.id = id && !c.dup then f c else c } }

/-- The completion of a command with a status, detail and result (R33, R82). -/
def compOf (c : Cmd) (status detail : Nat) (superseded : Bool) (result : List Byte) : Completion where
  id := c.id
  ring := c.ring
  slot := c.slot
  opcode := c.opcode
  target := c.target
  status := status
  detail := detail
  dup := c.dup
  superseded := superseded
  result := padTo 20 result

/-- Completes a command: its completion event waits at port 5 (R33), and its tag stays live until the host consumes
the completion (R83). -/
def complete (c : Cmd) (status detail : Nat) (result : List Byte) (d : Dev) : Dev :=
  post 5 (.comp (compOf c status detail false result)) (cmdMod c.id (fun c => { c with phase := .done }) d)

/-- Completes the command of an id, if it is live and not yet complete. -/
def completeId (id : CmdId) (status detail : Nat) (result : List Byte) (d : Dev) : Dev :=
  match liveCmd d id with
  | none => d
  | some c => if c.phase = .done then d else complete c status detail result d

/-- Completes a write that a later write replaced at the same boundary (R89). -/
def completeSuperseded (id : CmdId) (result : List Byte) (d : Dev) : Dev :=
  match liveCmd d id with
  | none => d
  | some c =>
    if c.phase = .done then d
    else post 5 (.comp (compOf c 0 0 true result)) (cmdMod c.id (fun c => { c with phase := .done }) d)

/-- Status codes of R95. -/
def stOk := 0x00
def stBusyRunning := 0x01
def stPairMismatch := 0x02
def stRange := 0x03
def stClass := 0x04
def stRefused := 0x05
def stNoTag := 0x06
def stTimeout := 0x07
def stFenced := 0x08
def stQuota := 0x09
def stShed := 0x0A
def stIntegrity := 0x0B
def stUnknownOp := 0x0C
def stAdmission := 0x0D
def stAborted := 0x0E

/-- A refusal: a status code and its detail (R82, R95). -/
structure Refuse where
  status : Nat
  detail : Nat
  deriving DecidableEq, Repr

/-- A command refused with ST_REFUSED and a detail. -/
def refused (detail : Nat) : Refuse := ⟨0x05, detail⟩

/-- The first refusal of a list of checks, in order. -/
def firstRefusal : List (Bool × Refuse) → Option Refuse
  | [] => none
  | (b, r) :: rest => if b then some r else firstRefusal rest

/-- A tick number as the 8 bytes of a RESULT (R89). -/
def tickBytes (d : Dev) : List Byte := le 8 d.time.tick

/-! ## Starting a command -/

/-- Opcodes that write a parameter (R88, R594). -/
def isParamWrite (op : Nat) : Bool := op == 0x0101 || op == 0x0102 || op == 0x0103

/-- A taken command may start: every command taken before it from the same ring or lane has started (R80), and so has
every earlier write to the same parameter (R80). -/
def startable (live : List Cmd) (id : CmdId) : Bool :=
  match live with
  | [] => false
  | c :: rest =>
    if c.id = id && !c.dup then c.phase == .taken
    else
      startable rest id &&
        !(c.phase == .taken &&
          rest.any fun x => x.id = id && !x.dup &&
            ((x.ring = c.ring && (x.commander == 0) == (c.commander == 0)) ||
             (isParamWrite c.opcode && isParamWrite x.opcode && c.target % 2 ^ 24 == x.target % 2 ^ 24)))

/-- Runs a command row: the live command of the id, taken, with the row's opcode and next in order (R80). Where there is
none, the row has no effect (log entry 5). -/
def withCmd (op : Nat) (id : CmdId) (f : Cmd → Dev → Dev) (d : Dev) : Dev :=
  match liveCmd d id with
  | none => d
  | some c => if c.opcode = op && startable d.cmd.live id then f c d else d

/-- A command that answers at once: refused with the first refusal that applies, else completed ST_OK with a result. -/
def answer (checks : List (Bool × Refuse)) (result : List Byte) (c : Cmd) (d : Dev) : Dev :=
  match firstRefusal checks with
  | some r => complete c r.status r.detail [] d
  | none => complete c 0 0 result d

/-- Refuses a command. -/
def refuse (c : Cmd) (r : Refuse) (d : Dev) : Dev := complete c r.status r.detail [] d

/-- Marks a command as having begun to apply (R86). -/
def begin_ (id : CmdId) (d : Dev) : Dev := cmdMod id (fun c => { c with phase := .begun }) d

/-- Marks a command as started but not yet begun to apply, so that it can still be aborted or time out (R86). -/
def waitOn (id : CmdId) (d : Dev) : Dev := cmdMod id (fun c => { c with phase := .waiting }) d

/-- One free value taken: the counter that makes it fresh moves on (log entry 4). -/
def takeFree (d : Dev) : Dev := { d with free := d.free + 1 }

/-- A flash command begins while no other flash operation is before it and step L3 does not hold it; else it keeps its place in the
queue (kind 5) and waits (R86, R87, R509). -/
def flashTurn (f : Cmd → Dev → Dev) (c : Cmd) (d : Dev) : Dev :=
  if d.hlt.flash.isEmpty && d.pwr.lStep < 3 then f c d
  else waitOn c.id { d with hlt := { d.hlt with flash := d.hlt.flash ++
    [{ cmd := some c.id, kind := 5, ref := 0, result := [], wr := none }] } }

/-- Queues the flash operation of a flash command, which completes with it (R87). -/
def queueFlash (c : Cmd) (kind ref : Nat) (result : List Byte) (wr : Option (Nat × List Word)) (d : Dev) : Dev :=
  begin_ c.id { d with hlt := { d.hlt with flash := d.hlt.flash ++
    [{ cmd := some c.id, kind := kind, ref := ref, result := padTo 20 result, wr := wr }] } }

/-! ## The two forms of a step -/

/-- A command that writes no ring: the memories and the queue of commands stay as they are. -/
def quiet (f : Dev → Dev) (s : State) : Host.Outcome State Fault Refusal := .next { s with dev := f s.dev }

/-- A command that may write rings: its ring writes follow its effect. -/
def loud (f : Dev → Dev) (s : State) : Host.Outcome State Fault Refusal := .next (settle { s with dev := f s.dev })

end Sys2Proof.Machine
end

