-- ==== Sys2Proof/Machine/Params.lean ====
section
/-!
DEFINITION. Machine/Params.lean: every parameter of the device (R6-R9, R14, R92 and the parameter table of each chapter)
with its class, type, reset value and range, and the operations that read and write the parameter store (R44, R49-R52,
R88, R89, R593, R595).
-/
namespace Sys2Proof.Machine

/-- Parameter classes; the code is that of R9. -/
inductive PClass where
  | live
  | staged
  | paired
  | read
  deriving DecidableEq, Repr

/-- Parameter types (R14). -/
inductive PType where
  | u8
  | u16
  | u32
  | s16
  | s32
  | bool
  | enum
  | bits
  | blob (bytes : Nat)
  deriving DecidableEq, Repr

/-- The Range column of a parameter table: no range; intervals of allowed values, each with the step its values are
multiples of; or the bits that are defined. -/
inductive PRange where
  | none
  | alts (xs : List (Int × Int × Nat))
  | mask (m : Nat)

/-- One row of a parameter table: subsystem and key, number of consecutive keys, instances, class, type, reset words by
instance and range. -/
structure PDef where
  key : Nat
  keys : Nat
  insts : Nat
  cls : PClass
  ty : PType
  reset : Nat → List Word
  range : PRange

/-- A reset value of 0, or a Reset column that holds a dash (log entry 1). -/
def zeroReset (_ : Nat) : List Word := [0]

/-- The maximum grain temperatures at reset, by use and grain (R367). -/
def tmaxReset (use grain : Nat) : List Word :=
  let row : Nat × Nat :=
    if grain = 1 ∨ grain = 2 ∨ grain = 3 ∨ grain = 11 then (55000, 43000)
    else if grain = 4 ∨ grain = 5 ∨ grain = 12 then (60000, 43000)
    else if grain = 6 then (45000, 40000)
    else if grain = 7 ∨ grain = 8 ∨ grain = 9 ∨ grain = 10 then (50000, 43000)
    else (43000, 43000)
  [w32 (if use = 0 then row.1 else row.2)]

/-- Factory EMC constants: barley's are given (R377); of the other grains 1-12 they are left open and 32-47 are 0. -/
def emcReset (grain : Nat) : List Word :=
  if grain = 3 then [1, 0x443E6A3D, 0x419F1CAC, 0x42B6A560]
  else if grain ≤ 12 then
    [Config.emcFactory grain 0, Config.emcFactory grain 1, Config.emcFactory grain 2, Config.emcFactory grain 3]
  else [0]

/-- A user table with the two points (0, 0) and (1, 1) (R161). -/
def afeTableReset (_ : Nat) : List Word := [2, 0, 0, 1, 1]

/-- A user calibration of form 1 on base 1 with a = 0 and b = 1 (R211, R225). -/
def dlxUserCalReset (_ : Nat) : List Word := [0x00000101, 0, 0, 0, 0x3F800000]

/-- Cable roles, all 0xFF. -/
def allOnes (n : Nat) (_ : Nat) : List Word := List.replicate n 0xFFFFFFFF

/-! ## Addresses: subsystem code and key of each parameter, without its instance (R6) -/

def kSysLiftSilenceMs : Nat := 0x0100
def kSysLiftErrWarn : Nat := 0x0101
def kSysLiftEyeWarn : Nat := 0x0102
def kSysLiftState : Nat := 0x0103
def kFioMode : Nat := 0x1040
def kFioInType : Nat := 0x1041
def kFioFiltN : Nat := 0x1042
def kFioFiltTick : Nat := 0x1043
def kFioInvert : Nat := 0x1044
def kFioEvtEdge : Nat := 0x1045
def kFioCntEdge : Nat := 0x1048
def kFioCntGateMs : Nat := 0x1049
def kFioOut : Nat := 0x1050
def kFioPwmHz : Nat := 0x1051
def kFioSafe : Nat := 0x1052
def kFioShedClass : Nat := 0x1053
def kFioOvlMa : Nat := 0x1055
def kFioOvlMs : Nat := 0x1056
def kFioOlOn : Nat := 0x1057
def kFioOlOff : Nat := 0x1058
def kFioState : Nat := 0x1060
def kFioCount : Nat := 0x1061
def kFioFreq : Nat := 0x1062
def kFioOutEn : Nat := 0x1080
def kFioVfbLowMv : Nat := 0x1081
def kFioVfb : Nat := 0x1082
def kAfeEnable : Nat := 0x2010
def kAfeWiring : Nat := 0x2011
def kAfeCurve : Nat := 0x2012
def kAfeExcMode : Nat := 0x2013
def kAfeExcUa : Nat := 0x2014
def kAfeExcV : Nat := 0x2015
def kAfePol : Nat := 0x2016
def kAfeGain : Nat := 0x2017
def kAfeRate : Nat := 0x2018
def kAfeFilter : Nat := 0x2019
def kAfeNotch : Nat := 0x201A
def kAfeLeadMode : Nat := 0x201B
def kAfeLeadMohm : Nat := 0x201C
def kAfeCjChan : Nat := 0x201D
def kAfeCjFixed : Nat := 0x201E
def kAfeTempChan : Nat := 0x201F
def kAfeCoef : Nat := 0x2020
def kAfeTable : Nat := 0x2021
def kAfeUserOfs : Nat := 0x2022
def kAfeUserGain : Nat := 0x2023
def kAfeStream : Nat := 0x2024
def kAfeStreamDiv : Nat := 0x2025
def kAfeRefChan : Nat := 0x2026
def kAfeBurnout : Nat := 0x2027
def kAfeResult : Nat := 0x2040
def kAfeLeadMeas : Nat := 0x2041
def kAfeState : Nat := 0x2042
def kAfeBreaks : Nat := 0x2043
def kAfeBlkSel : Nat := 0x2080
def kAfeBlkFrac : Nat := 0x2081
def kAfeGuardSrc : Nat := 0x2082
def kAfeSpareState : Nat := 0x2083
def kAfeBlkPol : Nat := 0x20C0
def kAfeBlkStuckMs : Nat := 0x20C1
def kDlxEnable : Nat := 0x3010
def kDlxFStart : Nat := 0x3011
def kDlxPoints : Nat := 0x3012
def kDlxSpacing : Nat := 0x3013
def kDlxAmplMv : Nat := 0x3014
def kDlxAvg : Nat := 0x3015
def kDlxGrain : Nat := 0x3016
def kDlxTempChan : Nat := 0x3017
def kDlxTempFixed : Nat := 0x3018
def kDlxFillMin : Nat := 0x3019
def kDlxFillQuorum : Nat := 0x301A
def kDlxC0Ff : Nat := 0x301B
def kDlxCfFf : Nat := 0x301C
def kDlxProbeCal : Nat := 0x301D
def kDlxStream : Nat := 0x301E
def kDlxStreamDiv : Nat := 0x301F
def kDlxUserCal : Nat := 0x3020
def kDlxResult : Nat := 0x3040
def kDlxDensity : Nat := 0x3041
def kDlxState : Nat := 0x3042
def kDlxWindow : Nat := 0x3043
def kDlxCycleMs : Nat := 0x3080
def kVlvMode : Nat := 0x4010
def kVlvDelayUs : Nat := 0x4011
def kVlvPeakMa : Nat := 0x4012
def kVlvPeakMaxUs : Nat := 0x4013
def kVlvPeakDwellUs : Nat := 0x4014
def kVlvHoldMa : Nat := 0x4015
def kVlvHoldT : Nat := 0x4016
def kVlvDecay : Nat := 0x4017
def kVlvChopKhz : Nat := 0x4018
def kVlvTtpMinUs : Nat := 0x4019
def kVlvTtpMaxUs : Nat := 0x401A
def kVlvDeferMaxUs : Nat := 0x401B
def kVlvDutyPct : Nat := 0x4020
def kVlvDutyWinS : Nat := 0x4021
def kVlvDutyHystPct : Nat := 0x4022
def kVlvPropMa : Nat := 0x4030
def kVlvDitherHz : Nat := 0x4031
def kVlvDitherMa : Nat := 0x4032
def kVlvPropMaxMa : Nat := 0x4033
def kVlvSafe : Nat := 0x4040
def kVlvSafeMa : Nat := 0x4041
def kVlvShedClass : Nat := 0x4042
def kVlvF2WaitMs : Nat := 0x4043
def kVlvState : Nat := 0x4050
def kVlvLast : Nat := 0x4051
def kVlvDutyNow : Nat := 0x4052
def kVlvOutEn : Nat := 0x4080
def kVlvVvg : Nat := 0x4081
def kCtlDesc : Nat := 0x5010
def kCtlEnable : Nat := 0x5011
def kCtlSchedBp : Nat := 0x5012
def kCtlIdOut : Nat := 0x5013
def kCtlIdAmpl : Nat := 0x5014
def kCtlState : Nat := 0x5040
def kCtlFlags : Nat := 0x5041
def kCtlLoad : Nat := 0x5042
def kCtlLiveCrc : Nat := 0x5043
def kCtlFallback : Nat := 0x5100
def kCtlOutMin : Nat := 0x5120
def kCtlOutMax : Nat := 0x5130
def kCtlTarget : Nat := 0x5140
def kCtlGlideRate : Nat := 0x5150
def kCtlZLim : Nat := 0x5160
def kCtlOut : Nat := 0x5170
def kCtlRef : Nat := 0x5180
def kCtlExtIn : Nat := 0x5190
def kCtlXhat : Nat := 0x5200
def kCtlCoefSet : Nat := 0x5300
def kCtlEngineLoad : Nat := 0x5800
def kSvcLocalOfsMin : Nat := 0x6010
def kSvcWaterQuotaL : Nat := 0x6011
def kSvcAutoReleaseMs : Nat := 0x6012
def kSvcHostSilenceAct : Nat := 0x6013
def kSvcResumeOnBoot : Nat := 0x6014
def kSvcTmaxMargin : Nat := 0x6015
def kSvcTmaxRate : Nat := 0x6016
def kSvcLotNext : Nat := 0x6017
def kSvcLedgerUsedMl : Nat := 0x6018
def kSvcTmaxCom : Nat := 0x6020
def kSvcTmaxSeed : Nat := 0x6021
def kSvcTmaxMalt : Nat := 0x6022
def kSvcEmcCoef : Nat := 0x6023
def kSvcBinBurner : Nat := 0x6100
def kSvcBinFanPin : Nat := 0x6101
def kSvcBinFillChain : Nat := 0x6102
def kSvcBinUnloadChain : Nat := 0x6103
def kSvcBinFullPin : Nat := 0x6104
def kSvcBinEmptyPin : Nat := 0x6105
def kSvcBinGtChans : Nat := 0x6106
def kSvcBinAmbChan : Nat := 0x6107
def kSvcBinMSrc : Nat := 0x6108
def kSvcBinWeighChan : Nat := 0x6109
def kSvcBinGPerCount : Nat := 0x610A
def kSvcBinGrain : Nat := 0x610B
def kSvcBinUse : Nat := 0x610C
def kSvcBinPlenum : Nat := 0x610D
def kSvcBinMTarget : Nat := 0x610E
def kSvcBinCoolDrop : Nat := 0x610F
def kSvcBinHeatT : Nat := 0x6110
def kSvcBinCoolDt : Nat := 0x6111
def kSvcBinFillKg : Nat := 0x6112
def kSvcBinMMan : Nat := 0x6113
def kSvcBinFillS : Nat := 0x6114
def kSvcBinDryMaxS : Nat := 0x6115
def kSvcBinCoolMaxS : Nat := 0x6116
def kSvcBinUnloadS : Nat := 0x6117
def kSvcBinState : Nat := 0x6140
def kSvcColBurners : Nat := 0x6200
def kSvcColLiObs : Nat := 0x6201
def kSvcColLiRoll : Nat := 0x6202
def kSvcColRollPin : Nat := 0x6203
def kSvcColMgPerPulse : Nat := 0x6204
def kSvcColDxOut : Nat := 0x6205
def kSvcColDxIn : Nat := 0x6206
def kSvcColMIn : Nat := 0x6207
def kSvcColProbes : Nat := 0x6208
def kSvcColExhChan : Nat := 0x6209
def kSvcColHoldKg : Nat := 0x620A
def kSvcColMTarget : Nat := 0x620B
def kSvcColMBand : Nat := 0x620C
def kSvcColPlenum : Nat := 0x620D
def kSvcColPlenumGap : Nat := 0x620E
def kSvcColRollMin : Nat := 0x620F
def kSvcColRollMax : Nat := 0x6210
def kSvcColCoastS : Nat := 0x6211
def kSvcColEmptyLayers : Nat := 0x6212
def kSvcColFullPin : Nat := 0x6213
def kSvcColInlowPin : Nat := 0x6214
def kSvcColEmptyPin : Nat := 0x6215
def kSvcColFillChain : Nat := 0x6216
def kSvcColOutChain : Nat := 0x6217
def kSvcColFillS : Nat := 0x6218
def kSvcColCoolS : Nat := 0x6219
def kSvcColLotKg : Nat := 0x621A
def kSvcColGrain : Nat := 0x621B
def kSvcColUse : Nat := 0x621C
def kSvcColState : Nat := 0x6240
def kSvcAerEnable : Nat := 0x6300
def kSvcAerFanPin : Nat := 0x6301
def kSvcAerGrain : Nat := 0x6302
def kSvcAerM : Nat := 0x6303
def kSvcAerMode : Nat := 0x6304
def kSvcAerBandLo : Nat := 0x6305
def kSvcAerBandHi : Nat := 0x6306
def kSvcAerDtMin : Nat := 0x6307
def kSvcAerTmin : Nat := 0x6308
def kSvcAerOnMin : Nat := 0x6309
def kSvcAerOffMin : Nat := 0x630A
def kSvcAerCables : Nat := 0x630B
def kSvcAerHotC : Nat := 0x630C
def kSvcAerRiseK : Nat := 0x630D
def kSvcAerHotAct : Nat := 0x630E
def kSvcAerState : Nat := 0x6340
def kSvcAerAmbChan : Nat := 0x6380
def kSvcAerRhChan : Nat := 0x6381
def kSvcAerFanMax : Nat := 0x6382
def kSvcWatInj : Nat := 0x6400
def kSvcWatPulseUl : Nat := 0x6401
def kSvcWatMeterPin : Nat := 0x6402
def kSvcWatMeterUl : Nat := 0x6403
def kSvcWatFlowSrc : Nat := 0x6404
def kSvcWatGPerCount : Nat := 0x6405
def kSvcWatDx : Nat := 0x6406
def kSvcWatMTarget : Nat := 0x6407
def kSvcWatMaxLph : Nat := 0x6408
def kSvcWatBlockMl : Nat := 0x6409
def kSvcWatTolPct : Nat := 0x640A
def kSvcCnvRunPin : Nat := 0x6500
def kSvcCnvSpeedPin : Nat := 0x6501
def kSvcCnvPlugPin : Nat := 0x6502
def kSvcCnvAlignPin : Nat := 0x6503
def kSvcCnvGateVd : Nat := 0x6504
def kSvcCnvDown : Nat := 0x6505
def kSvcCnvChain : Nat := 0x6506
def kSvcCnvNomMhz : Nat := 0x6507
def kSvcCnvProvePct : Nat := 0x6508
def kSvcCnvSlipPct : Nat := 0x6509
def kSvcCnvSlipMs : Nat := 0x650A
def kSvcCnvStartS : Nat := 0x650B
def kSvcCnvRunoutS : Nat := 0x650C
def kSvcBrnReqPin : Nat := 0x6600
def kSvcBrnProvenPin : Nat := 0x6601
def kSvcBrnLi : Nat := 0x6602
def kSvcBrnPlenumChan : Nat := 0x6603
def kSvcBrnPlenumMax : Nat := 0x6604
def kSvcBrnLowfireMa : Nat := 0x6605
def kSvcBrnProveS : Nat := 0x6606
def kSvcBrnLowfireS : Nat := 0x6607
def kSvcBrnRetries : Nat := 0x6608
def kSvcBrnGasPin : Nat := 0x6609
def kSvcBrnKjPerPulse : Nat := 0x660A
def kSvcBrnKwPerA : Nat := 0x660B
def kSvcRecipe : Nat := 0x6700
def kBusMode : Nat := 0x7010
def kBusNomKbps : Nat := 0x7011
def kBusNomSp : Nat := 0x7012
def kBusDataKbps : Nat := 0x7013
def kBusDataSp : Nat := 0x7014
def kBusOptions : Nat := 0x7015
def kBusNomatch : Nat := 0x7016
def kBusNodeId : Nat := 0x7017
def kBusRateList : Nat := 0x7018
def kBusFilt : Nat := 0x7020
def kBusPiste : Nat := 0x7030
def kBusSmo : Nat := 0x7031
def kBusTmPrio : Nat := 0x7032
def kBusTmMinTq : Nat := 0x7033
def kBusRefId : Nat := 0x7034
def kBusTimeInfoId : Nat := 0x7035
def kBusState : Nat := 0x7040
def kBusStats : Nat := 0x7041
def kBusTimeOfs : Nat := 0x7042
def kBusRole : Nat := 0x7100
def kBusRoleState : Nat := 0x7101
def kBusRstEnable : Nat := 0x7180
def kBusRstBase : Nat := 0x7181
def kBusRstHbMs : Nat := 0x7182
def kBusRmbBase : Nat := 0x7190
def kBusRmbRole : Nat := 0x7191
def kGnsEnable : Nat := 0x8010
def kGnsSystems : Nat := 0x8011
def kGnsBands : Nat := 0x8012
def kGnsMaxCh : Nat := 0x8013
def kGnsIfFmt : Nat := 0x8014
def kGnsIfHz : Nat := 0x8015
def kGnsCorrSpacing : Nat := 0x8016
def kGnsElevMask : Nat := 0x8017
def kGnsCn0Min : Nat := 0x8018
def kGnsMpEnable : Nat := 0x8019
def kGnsMpExcl : Nat := 0x801A
def kGnsMeasMs : Nat := 0x8020
def kGnsOut : Nat := 0x8021
def kGnsPosMode : Nat := 0x8030
def kGnsSurveyMin : Nat := 0x8031
def kGnsSurveyCm : Nat := 0x8032
def kGnsPosFix : Nat := 0x8033
def kGnsAntDelay : Nat := 0x8034
def kGnsDelayUncNs : Nat := 0x8035
def kGnsTimeRef : Nat := 0x8036
def kGnsLoopS : Nat := 0x8037
def kGnsSlewNsS : Nat := 0x8038
def kGnsHoSensor : Nat := 0x8039
def kGnsPulseHz : Nat := 0x8040
def kGnsPulseWidthUs : Nat := 0x8041
def kGnsPulsePol : Nat := 0x8042
def kGnsPulseOfs : Nat := 0x8043
def kGnsPulseMinTq : Nat := 0x8044
def kGnsState : Nat := 0x8060
def kGnsUncNs : Nat := 0x8061
def kGnsUtcOfs : Nat := 0x8062
def kGnsHoModel : Nat := 0x8063
def kGnsSnapState : Nat := 0x8064
def kGnsStepCount : Nat := 0x8065
def kGnsPos : Nat := 0x8066
def kGnsChState : Nat := 0x8070
def kPwrPlReq : Nat := 0x9010
def kPwrF3StepMs : Nat := 0x9011
def kPwrF3ReleaseMs : Nat := 0x9012
def kPwrWakeSrc : Nat := 0x9013
def kPwrWakePattern : Nat := 0x9014
def kPwrLpAllow : Nat := 0x9015
def kPwrState : Nat := 0x9040
def kPwrShed : Nat := 0x9041
def kPwrVlog : Nat := 0x9042
def kPwrVfld : Nat := 0x9043
def kPwrPl3Mv : Nat := 0x9044
def kHltGroomH : Nat := 0xA010
def kHltThrMarginK : Nat := 0xA011
def kHltEpoch : Nat := 0xA020
def kHltTemp : Nat := 0xA040
def kHltTempOfs : Nat := 0xA041
def kHltThrottle : Nat := 0xA042
def kHltPlan : Nat := 0xA043
def kHltUnit : Nat := 0xA044
def kHltCounts : Nat := 0xA045
def kIdnEnrolReq : Nat := 0xB010
def kIdnBinding : Nat := 0xB020
def kIdnState : Nat := 0xB040
def kIdnChain : Nat := 0xB041
def kIdnLastIndex : Nat := 0xB042
def kIdnExportNext : Nat := 0xB043
def kHstSilenceMs : Nat := 0xC001
def kHstRmbEnable : Nat := 0xC002
def kHstRmbGrant : Nat := 0xC003
def kHstRmbSilenceMs : Nat := 0xC004
def kHstEvtMask : Nat := 0xC005

/-! ## The parameter tables -/

/-- Parameters of R134. -/
def sysParams : List PDef := [
  ⟨kSysLiftSilenceMs, 1, 1, .paired, .u32, (fun _ => [20]), .alts [(1, 500, 1)]⟩,
  ⟨kSysLiftErrWarn, 1, 1, .live, .u32, (fun _ => [64]), .alts [(1, 65535, 1)]⟩,
  ⟨kSysLiftEyeWarn, 1, 1, .live, .u8, (fun _ => [40]), .alts [(10, 90, 1)]⟩,
  ⟨kSysLiftState, 1, 1, .read, .u32, zeroReset, .none⟩]

/-- Parameters of R265. -/
def fioParams : List PDef := [
  ⟨kFioMode, 1, 64, .staged, .enum, zeroReset, .alts [(0, 5, 1)]⟩,
  ⟨kFioInType, 1, 64, .staged, .enum, (fun _ => [1]), .alts [(1, 1, 1), (3, 3, 1)]⟩,
  ⟨kFioFiltN, 1, 64, .live, .u8, (fun _ => [3]), .alts [(1, 255, 1)]⟩,
  ⟨kFioFiltTick, 1, 64, .live, .u16, (fun _ => [10]), .alts [(1, 1000, 1)]⟩,
  ⟨kFioInvert, 1, 64, .live, .bool, zeroReset, .alts [(0, 1, 1)]⟩,
  ⟨kFioEvtEdge, 1, 64, .live, .bits, (fun _ => [3]), .mask 3⟩,
  ⟨kFioCntEdge, 1, 64, .live, .enum, zeroReset, .alts [(0, 2, 1)]⟩,
  ⟨kFioCntGateMs, 1, 64, .live, .u16, (fun _ => [1000]), .alts [(10, 10000, 1)]⟩,
  ⟨kFioOut, 1, 64, .live, .u8, zeroReset, .alts [(0, 255, 1)]⟩,
  ⟨kFioPwmHz, 1, 64, .live, .u16, (fun _ => [100]), .alts [(1, 1000, 1)]⟩,
  ⟨kFioSafe, 1, 64, .paired, .enum, zeroReset, .alts [(0, 2, 1)]⟩,
  ⟨kFioShedClass, 1, 64, .live, .u8, (fun _ => [3]), .alts [(0, 3, 1)]⟩,
  ⟨kFioOvlMa, 1, 64, .live, .u16, (fun _ => [600]), .alts [(100, 900, 1)]⟩,
  ⟨kFioOvlMs, 1, 64, .live, .u16, (fun _ => [100]), .alts [(1, 10000, 1)]⟩,
  ⟨kFioOlOn, 1, 64, .live, .bool, (fun _ => [1]), .alts [(0, 1, 1)]⟩,
  ⟨kFioOlOff, 1, 64, .live, .bool, zeroReset, .alts [(0, 1, 1)]⟩,
  ⟨kFioState, 1, 64, .read, .bits, (fun _ => [12]), .none⟩,
  ⟨kFioCount, 1, 64, .read, .u32, zeroReset, .none⟩,
  ⟨kFioFreq, 1, 64, .read, .u32, zeroReset, .none⟩,
  ⟨kFioOutEn, 1, 8, .paired, .bits, zeroReset, .mask 0xFF⟩,
  ⟨kFioVfbLowMv, 1, 8, .live, .u16, (fun _ => [18000]), .alts [(10000, 30000, 1)]⟩,
  ⟨kFioVfb, 1, 8, .read, .u32, zeroReset, .none⟩]

/-- Parameters of R187. -/
def afeParams : List PDef := [
  ⟨kAfeEnable, 1, 32, .live, .bool, zeroReset, .alts [(0, 1, 1)]⟩,
  ⟨kAfeWiring, 1, 32, .staged, .enum, (fun _ => [2]), .alts [(0, 5, 1)]⟩,
  ⟨kAfeCurve, 1, 32, .staged, .enum, zeroReset,
    .alts [(0, 3, 1), (10, 14, 1), (20, 21, 1), (30, 30, 1), (40, 40, 1), (50, 50, 1), (60, 63, 1)]⟩,
  ⟨kAfeExcMode, 1, 32, .live, .enum, zeroReset, .alts [(0, 3, 1)]⟩,
  ⟨kAfeExcUa, 1, 32, .live, .u16, (fun _ => [1000]), .alts [(50, 2000, 50)]⟩,
  ⟨kAfeExcV, 1, 32, .live, .enum, (fun _ => [5000]), .alts [(2500, 2500, 1), (5000, 5000, 1)]⟩,
  ⟨kAfePol, 1, 32, .live, .enum, zeroReset, .alts [(0, 1, 1)]⟩,
  ⟨kAfeGain, 1, 32, .live, .enum, (fun _ => [1]),
    .alts [(1, 1, 1), (2, 2, 1), (4, 4, 1), (8, 8, 1), (16, 16, 1), (32, 32, 1), (64, 64, 1), (128, 128, 1)]⟩,
  ⟨kAfeRate, 1, 32, .live, .enum, (fun _ => [2]), .alts [(0, 9, 1)]⟩,
  ⟨kAfeFilter, 1, 32, .live, .enum, (fun _ => [4]), .alts [(3, 3, 1), (4, 4, 1)]⟩,
  ⟨kAfeNotch, 1, 32, .live, .enum, zeroReset, .alts [(0, 0, 1), (50, 50, 1), (60, 60, 1)]⟩,
  ⟨kAfeLeadMode, 1, 32, .staged, .enum, zeroReset, .alts [(0, 0, 1), (1, 1, 1), (2, 2, 1)]⟩,
  ⟨kAfeLeadMohm, 1, 32, .live, .u32, zeroReset, .alts [(0, 100000, 1)]⟩,
  ⟨kAfeCjChan, 1, 32, .staged, .u8, (fun _ => [255]), .alts [(0, 31, 1), (255, 255, 1)]⟩,
  ⟨kAfeCjFixed, 1, 32, .live, .s32, (fun _ => [25000]), .alts [(-40000, 125000, 1)]⟩,
  ⟨kAfeTempChan, 1, 32, .staged, .u8, (fun _ => [255]), .alts [(0, 31, 1), (255, 255, 1)]⟩,
  ⟨kAfeCoef, 1, 32, .live, .blob 16, zeroReset, .none⟩,
  ⟨kAfeTable, 1, 4, .staged, .blob 516, afeTableReset, .none⟩,
  ⟨kAfeUserOfs, 1, 32, .live, .s32, zeroReset, .alts [(-8388607, 8388607, 1)]⟩,
  ⟨kAfeUserGain, 1, 32, .live, .u32, (fun _ => [16777216]), .alts [(8388608, 33554432, 1)]⟩,
  ⟨kAfeStream, 1, 32, .live, .bool, zeroReset, .alts [(0, 1, 1)]⟩,
  ⟨kAfeStreamDiv, 1, 32, .live, .u16, (fun _ => [1]), .alts [(1, 1000, 1)]⟩,
  ⟨kAfeRefChan, 1, 32, .staged, .u8, (fun _ => [255]), .alts [(0, 31, 1), (255, 255, 1)]⟩,
  ⟨kAfeBurnout, 1, 32, .live, .bool, (fun _ => [1]), .alts [(0, 1, 1)]⟩,
  ⟨kAfeResult, 1, 32, .read, .u32, (fun _ => [80]), .none⟩,
  ⟨kAfeLeadMeas, 1, 32, .read, .u32, zeroReset, .none⟩,
  ⟨kAfeState, 1, 32, .read, .bits, zeroReset, .none⟩,
  ⟨kAfeBreaks, 1, 32, .read, .u32, zeroReset, .none⟩,
  ⟨kAfeBlkSel, 1, 4, .live, .bits, zeroReset, .mask 3⟩,
  ⟨kAfeBlkFrac, 1, 4, .live, .u8, (fun _ => [10]), .alts [(1, 100, 1)]⟩,
  ⟨kAfeGuardSrc, 1, 4, .live, .u8, (fun _ => [255]), .alts [(0, 7, 1), (254, 255, 1)]⟩,
  ⟨kAfeSpareState, 1, 4, .read, .u32, zeroReset, .none⟩,
  ⟨kAfeBlkPol, 1, 1, .live, .bits, (fun _ => [3]), .mask 3⟩,
  ⟨kAfeBlkStuckMs, 1, 1, .live, .u32, (fun _ => [1000]), .alts [(10, 60000, 1)]⟩]

/-- Parameters of R225. -/
def dlxParams : List PDef := [
  ⟨kDlxEnable, 1, 4, .live, .enum, zeroReset, .alts [(0, 2, 1)]⟩,
  ⟨kDlxFStart, 1, 4, .staged, .u32, (fun _ => [1000]), .alts [(1000, 10000, 10)]⟩,
  ⟨kDlxPoints, 1, 4, .staged, .u8, (fun _ => [16]), .alts [(4, 32, 1)]⟩,
  ⟨kDlxSpacing, 1, 4, .staged, .enum, zeroReset, .alts [(0, 1, 1)]⟩,
  ⟨kDlxAmplMv, 1, 4, .live, .u16, (fun _ => [1000]), .alts [(500, 2000, 100)]⟩,
  ⟨kDlxAvg, 1, 4, .live, .u16, (fun _ => [50]), .alts [(1, 256, 1)]⟩,
  ⟨kDlxGrain, 1, 4, .live, .enum, (fun _ => [1]), .alts [(1, 12, 1), (32, 47, 1)]⟩,
  ⟨kDlxTempChan, 1, 4, .staged, .u8, (fun _ => [255]), .alts [(0, 31, 1), (255, 255, 1)]⟩,
  ⟨kDlxTempFixed, 1, 4, .live, .s32, (fun _ => [25000]), .alts [(-40000, 125000, 1)]⟩,
  ⟨kDlxFillMin, 1, 4, .live, .u16, (fun _ => [1800]), .alts [(1100, 5000, 1)]⟩,
  ⟨kDlxFillQuorum, 1, 4, .live, .u8, (fun _ => [50]), .alts [(1, 100, 1)]⟩,
  ⟨kDlxC0Ff, 1, 4, .staged, .u32, zeroReset, .alts [(0, 0, 1), (500, 50000, 1)]⟩,
  ⟨kDlxCfFf, 1, 4, .staged, .s32, zeroReset, .alts [(-5000, 20000, 1)]⟩,
  ⟨kDlxProbeCal, 1, 4, .staged, .blob 776, zeroReset, .none⟩,
  ⟨kDlxStream, 1, 4, .live, .bool, zeroReset, .alts [(0, 1, 1)]⟩,
  ⟨kDlxStreamDiv, 1, 4, .live, .u16, (fun _ => [1]), .alts [(1, 1000, 1)]⟩,
  ⟨kDlxUserCal, 1, 16, .staged, .blob 80, dlxUserCalReset, .none⟩,
  ⟨kDlxResult, 1, 4, .read, .u32, (fun _ => [80]), .none⟩,
  ⟨kDlxDensity, 1, 4, .read, .u32, zeroReset, .none⟩,
  ⟨kDlxState, 1, 4, .read, .bits, zeroReset, .none⟩,
  ⟨kDlxWindow, 1, 4, .read, .u32, zeroReset, .none⟩,
  ⟨kDlxCycleMs, 1, 1, .live, .u16, (fun _ => [20]), .alts [(5, 10000, 1)]⟩]

/-- Parameters of R300. -/
def vlvParams : List PDef := [
  ⟨kVlvMode, 1, 16, .staged, .enum, zeroReset, .alts [(0, 4, 1)]⟩,
  ⟨kVlvDelayUs, 1, 16, .live, .u32, zeroReset, .alts [(0, 100000, 10)]⟩,
  ⟨kVlvPeakMa, 1, 16, .live, .u16, (fun _ => [1500]), .alts [(500, 3000, 10)]⟩,
  ⟨kVlvPeakMaxUs, 1, 16, .live, .u32, (fun _ => [5000]), .alts [(100, 20000, 1)]⟩,
  ⟨kVlvPeakDwellUs, 1, 16, .live, .u32, zeroReset, .alts [(0, 10000, 1)]⟩,
  ⟨kVlvHoldMa, 1, 16, .live, .u16, (fun _ => [500]), .alts [(100, 1500, 10)]⟩,
  ⟨kVlvHoldT, 1, 16, .live, .u32, (fun _ => [100]), .alts [(10, 6000000, 1)]⟩,
  ⟨kVlvDecay, 1, 16, .live, .enum, zeroReset, .alts [(0, 1, 1)]⟩,
  ⟨kVlvChopKhz, 1, 16, .live, .u8, (fun _ => [20]), .alts [(10, 40, 1)]⟩,
  ⟨kVlvTtpMinUs, 1, 16, .live, .u32, zeroReset, .alts [(0, 20000, 1)]⟩,
  ⟨kVlvTtpMaxUs, 1, 16, .live, .u32, (fun _ => [5000]), .alts [(100, 20000, 1)]⟩,
  ⟨kVlvDeferMaxUs, 1, 16, .live, .u16, (fun _ => [500]), .alts [(0, 2000, 1)]⟩,
  ⟨kVlvDutyPct, 1, 16, .paired, .u8, (fun _ => [100]), .alts [(1, 100, 1)]⟩,
  ⟨kVlvDutyWinS, 1, 16, .live, .u16, (fun _ => [60]), .alts [(1, 600, 1)]⟩,
  ⟨kVlvDutyHystPct, 1, 16, .live, .u8, (fun _ => [5]), .alts [(1, 50, 1)]⟩,
  ⟨kVlvPropMa, 1, 16, .live, .u16, zeroReset, .alts [(0, 1500, 1)]⟩,
  ⟨kVlvDitherHz, 1, 16, .live, .u16, (fun _ => [100]), .alts [(0, 0, 1), (50, 300, 1)]⟩,
  ⟨kVlvDitherMa, 1, 16, .live, .u16, (fun _ => [100]), .alts [(0, 500, 1)]⟩,
  ⟨kVlvPropMaxMa, 1, 16, .paired, .u16, (fun _ => [1500]), .alts [(0, 1500, 1)]⟩,
  ⟨kVlvSafe, 1, 16, .paired, .enum, zeroReset, .alts [(0, 2, 1)]⟩,
  ⟨kVlvSafeMa, 1, 16, .paired, .u16, zeroReset, .alts [(0, 1500, 1)]⟩,
  ⟨kVlvShedClass, 1, 16, .live, .u8, (fun _ => [3]), .alts [(0, 3, 1)]⟩,
  ⟨kVlvF2WaitMs, 1, 16, .live, .u16, (fun _ => [100]), .alts [(0, 10000, 1)]⟩,
  ⟨kVlvState, 1, 16, .read, .u32, (fun _ => [2816]), .none⟩,
  ⟨kVlvLast, 1, 16, .read, .u32, (fun _ => [4293918720]), .none⟩,
  ⟨kVlvDutyNow, 1, 16, .read, .u16, zeroReset, .none⟩,
  ⟨kVlvOutEn, 1, 4, .paired, .bits, zeroReset, .mask 0xF⟩,
  ⟨kVlvVvg, 1, 4, .read, .u32, zeroReset, .none⟩]

/-- Parameters of R354. -/
def ctlParams : List PDef := [
  ⟨kCtlDesc, 1, 64, .staged, .blob 256, zeroReset, .none⟩,
  ⟨kCtlEnable, 1, 64, .live, .enum, zeroReset, .alts [(0, 3, 1)]⟩,
  ⟨kCtlSchedBp, 1, 64, .live, .blob 32, zeroReset, .none⟩,
  ⟨kCtlIdOut, 1, 64, .live, .u8, zeroReset, .alts [(0, 15, 1)]⟩,
  ⟨kCtlIdAmpl, 1, 64, .live, .u32, zeroReset, .alts [(0, 1073741824, 1)]⟩,
  ⟨kCtlState, 1, 64, .read, .bits, zeroReset, .none⟩,
  ⟨kCtlFlags, 1, 64, .read, .bits, zeroReset, .none⟩,
  ⟨kCtlLoad, 1, 64, .read, .u32, zeroReset, .none⟩,
  ⟨kCtlLiveCrc, 1, 64, .read, .u32, zeroReset, .none⟩,
  ⟨kCtlFallback, 16, 64, .paired, .s32, zeroReset, .alts [(-2147483648, 2147483647, 1)]⟩,
  ⟨kCtlOutMin, 16, 64, .live, .s32, zeroReset, .alts [(-2147483648, 2147483647, 1)]⟩,
  ⟨kCtlOutMax, 16, 64, .live, .s32, zeroReset, .alts [(-2147483648, 2147483647, 1)]⟩,
  ⟨kCtlTarget, 16, 64, .live, .s32, zeroReset, .alts [(-2147483648, 2147483647, 1)]⟩,
  ⟨kCtlGlideRate, 16, 64, .live, .u32, zeroReset, .alts [(0, 2147483647, 1)]⟩,
  ⟨kCtlZLim, 16, 64, .live, .u32, (fun _ => [2147483647]), .alts [(0, 0x7FFFFFFF, 1)]⟩,
  ⟨kCtlOut, 16, 64, .read, .s32, zeroReset, .none⟩,
  ⟨kCtlRef, 16, 64, .read, .s32, zeroReset, .none⟩,
  ⟨kCtlExtIn, 16, 64, .live, .s32, zeroReset, .alts [(-2147483648, 2147483647, 1)]⟩,
  ⟨kCtlXhat, 64, 64, .read, .s32, zeroReset, .none⟩,
  ⟨kCtlCoefSet, 9, 64, .staged, .blob 1412, zeroReset, .none⟩,
  ⟨kCtlEngineLoad, 1, 3, .read, .u32, zeroReset, .none⟩]

/-- Parameters of R395. -/
def svcParams : List PDef := [
  ⟨kSvcLocalOfsMin, 1, 1, .live, .s32, zeroReset, .alts [(-720, 840, 1)]⟩,
  ⟨kSvcWaterQuotaL, 1, 1, .paired, .u32, zeroReset, .alts [(0, 1000000, 1)]⟩,
  ⟨kSvcAutoReleaseMs, 1, 1, .live, .u32, zeroReset, .alts [(0, 0, 1), (20, 10000, 1)]⟩,
  ⟨kSvcHostSilenceAct, 1, 1, .live, .enum, zeroReset, .alts [(0, 2, 1)]⟩,
  ⟨kSvcResumeOnBoot, 1, 1, .live, .bool, zeroReset, .alts [(0, 1, 1)]⟩,
  ⟨kSvcTmaxMargin, 1, 1, .live, .u32, (fun _ => [3000]), .alts [(0, 10000, 1)]⟩,
  ⟨kSvcTmaxRate, 1, 1, .live, .u32, (fun _ => [1000]), .alts [(100, 10000, 1)]⟩,
  ⟨kSvcLotNext, 1, 1, .read, .u32, (fun _ => [1]), .none⟩,
  ⟨kSvcLedgerUsedMl, 1, 1, .read, .u32, zeroReset, .none⟩,
  ⟨kSvcTmaxCom, 1, 48, .paired, .s32, (tmaxReset 0), .alts [(20000, 80000, 1)]⟩,
  ⟨kSvcTmaxSeed, 1, 48, .paired, .s32, (tmaxReset 1), .alts [(20000, 80000, 1)]⟩,
  ⟨kSvcTmaxMalt, 1, 48, .paired, .s32, (tmaxReset 2), .alts [(20000, 80000, 1)]⟩,
  ⟨kSvcEmcCoef, 1, 48, .live, .blob 16, emcReset, .none⟩,
  ⟨kSvcBinBurner, 1, 4, .staged, .u8, (fun _ => [255]), .alts [(0, 3, 1)]⟩,
  ⟨kSvcBinFanPin, 1, 4, .staged, .u8, (fun _ => [255]), .alts [(0, 63, 1)]⟩,
  ⟨kSvcBinFillChain, 1, 4, .staged, .u8, (fun _ => [255]), .alts [(0, 3, 1), (255, 255, 1)]⟩,
  ⟨kSvcBinUnloadChain, 1, 4, .staged, .u8, (fun _ => [255]), .alts [(0, 3, 1), (255, 255, 1)]⟩,
  ⟨kSvcBinFullPin, 1, 4, .staged, .u8, (fun _ => [255]), .alts [(0, 63, 1), (255, 255, 1)]⟩,
  ⟨kSvcBinEmptyPin, 1, 4, .staged, .u8, (fun _ => [255]), .alts [(0, 63, 1), (255, 255, 1)]⟩,
  ⟨kSvcBinGtChans, 1, 4, .staged, .bits, zeroReset, .mask 0xFFFFFFFF⟩,
  ⟨kSvcBinAmbChan, 1, 4, .staged, .u8, (fun _ => [255]), .alts [(0, 31, 1)]⟩,
  ⟨kSvcBinMSrc, 1, 4, .staged, .u8, (fun _ => [254]), .alts [(0, 3, 1), (254, 254, 1)]⟩,
  ⟨kSvcBinWeighChan, 1, 4, .staged, .u8, (fun _ => [255]), .alts [(0, 31, 1), (255, 255, 1)]⟩,
  ⟨kSvcBinGPerCount, 1, 4, .live, .u32, (fun _ => [1000]), .alts [(1, 1000000, 1)]⟩,
  ⟨kSvcBinGrain, 1, 4, .live, .enum, (fun _ => [3]), .alts [(1, 12, 1), (32, 47, 1)]⟩,
  ⟨kSvcBinUse, 1, 4, .live, .enum, zeroReset, .alts [(0, 2, 1)]⟩,
  ⟨kSvcBinPlenum, 1, 4, .live, .s32, (fun _ => [60000]), .alts [(20000, 120000, 1)]⟩,
  ⟨kSvcBinMTarget, 1, 4, .live, .u32, (fun _ => [12000]), .alts [(5000, 30000, 1)]⟩,
  ⟨kSvcBinCoolDrop, 1, 4, .live, .u32, (fun _ => [500]), .alts [(0, 3000, 1)]⟩,
  ⟨kSvcBinHeatT, 1, 4, .live, .s32, (fun _ => [35000]), .alts [(10000, 70000, 1)]⟩,
  ⟨kSvcBinCoolDt, 1, 4, .live, .s32, (fun _ => [5000]), .alts [(0, 30000, 1)]⟩,
  ⟨kSvcBinFillKg, 1, 4, .live, .u32, zeroReset, .alts [(0, 1000000, 1)]⟩,
  ⟨kSvcBinMMan, 1, 4, .live, .u32, zeroReset, .alts [(0, 60000, 1)]⟩,
  ⟨kSvcBinFillS, 1, 4, .live, .u32, (fun _ => [7200]), .alts [(60, 86400, 1)]⟩,
  ⟨kSvcBinDryMaxS, 1, 4, .live, .u32, (fun _ => [43200]), .alts [(600, 259200, 1)]⟩,
  ⟨kSvcBinCoolMaxS, 1, 4, .live, .u32, (fun _ => [7200]), .alts [(60, 86400, 1)]⟩,
  ⟨kSvcBinUnloadS, 1, 4, .live, .u32, (fun _ => [120]), .alts [(0, 3600, 1)]⟩,
  ⟨kSvcBinState, 1, 4, .read, .bits, zeroReset, .none⟩,
  ⟨kSvcColBurners, 1, 2, .staged, .bits, zeroReset, .mask 0xF⟩,
  ⟨kSvcColLiObs, 1, 2, .staged, .u8, (fun _ => [255]), .alts [(0, 63, 1)]⟩]

/-- Parameters of R395. -/
def svcParams2 : List PDef := [
  ⟨kSvcColLiRoll, 1, 2, .staged, .u8, (fun _ => [255]), .alts [(0, 63, 1)]⟩,
  ⟨kSvcColRollPin, 1, 2, .staged, .u8, (fun _ => [255]), .alts [(0, 63, 1)]⟩,
  ⟨kSvcColMgPerPulse, 1, 2, .live, .u32, zeroReset, .alts [(0, 100000000, 1)]⟩,
  ⟨kSvcColDxOut, 1, 2, .staged, .u8, (fun _ => [255]), .alts [(0, 3, 1)]⟩,
  ⟨kSvcColDxIn, 1, 2, .staged, .u8, (fun _ => [255]), .alts [(0, 3, 1), (255, 255, 1)]⟩,
  ⟨kSvcColMIn, 1, 2, .live, .u32, (fun _ => [16000]), .alts [(5000, 40000, 1)]⟩,
  ⟨kSvcColProbes, 1, 2, .staged, .blob 16, (allOnes 4), .none⟩,
  ⟨kSvcColExhChan, 1, 2, .staged, .u8, (fun _ => [255]), .alts [(0, 31, 1)]⟩,
  ⟨kSvcColHoldKg, 1, 2, .live, .u32, zeroReset, .alts [(0, 0, 1), (100, 1000000, 1)]⟩,
  ⟨kSvcColMTarget, 1, 2, .live, .u32, (fun _ => [12000]), .alts [(5000, 30000, 1)]⟩,
  ⟨kSvcColMBand, 1, 2, .live, .u32, (fun _ => [500]), .alts [(100, 5000, 1)]⟩,
  ⟨kSvcColPlenum, 1, 2, .live, .s32, (fun _ => [80000]), .alts [(20000, 120000, 1)]⟩,
  ⟨kSvcColPlenumGap, 1, 2, .live, .s32, (fun _ => [30000]), .alts [(0, 100000, 1)]⟩,
  ⟨kSvcColRollMin, 1, 2, .live, .u32, zeroReset, .alts [(0, 10000000, 1)]⟩,
  ⟨kSvcColRollMax, 1, 2, .live, .u32, zeroReset, .alts [(0, 10000000, 1)]⟩,
  ⟨kSvcColCoastS, 1, 2, .live, .u16, (fun _ => [600]), .alts [(10, 30000, 1)]⟩,
  ⟨kSvcColEmptyLayers, 1, 2, .live, .u8, (fun _ => [8]), .alts [(0, 31, 1)]⟩,
  ⟨kSvcColFullPin, 1, 2, .staged, .u8, (fun _ => [255]), .alts [(0, 63, 1)]⟩,
  ⟨kSvcColInlowPin, 1, 2, .staged, .u8, (fun _ => [255]), .alts [(0, 63, 1)]⟩,
  ⟨kSvcColEmptyPin, 1, 2, .staged, .u8, (fun _ => [255]), .alts [(0, 63, 1)]⟩,
  ⟨kSvcColFillChain, 1, 2, .staged, .u8, (fun _ => [255]), .alts [(0, 3, 1)]⟩,
  ⟨kSvcColOutChain, 1, 2, .staged, .u8, (fun _ => [255]), .alts [(0, 3, 1)]⟩,
  ⟨kSvcColFillS, 1, 2, .live, .u32, (fun _ => [7200]), .alts [(60, 86400, 1)]⟩,
  ⟨kSvcColCoolS, 1, 2, .live, .u16, (fun _ => [600]), .alts [(0, 7200, 1)]⟩,
  ⟨kSvcColLotKg, 1, 2, .live, .u32, (fun _ => [50000]), .alts [(1000, 10000000, 1)]⟩,
  ⟨kSvcColGrain, 1, 2, .live, .enum, (fun _ => [3]), .alts [(1, 12, 1), (32, 47, 1)]⟩,
  ⟨kSvcColUse, 1, 2, .live, .enum, zeroReset, .alts [(0, 2, 1)]⟩,
  ⟨kSvcColState, 1, 2, .read, .bits, zeroReset, .none⟩,
  ⟨kSvcAerEnable, 1, 12, .live, .enum, zeroReset, .alts [(0, 3, 1)]⟩,
  ⟨kSvcAerFanPin, 1, 12, .staged, .u8, (fun _ => [255]), .alts [(0, 63, 1)]⟩,
  ⟨kSvcAerGrain, 1, 12, .live, .enum, (fun _ => [3]), .alts [(1, 12, 1), (32, 47, 1)]⟩,
  ⟨kSvcAerM, 1, 12, .live, .u32, (fun _ => [12000]), .alts [(5000, 30000, 1)]⟩,
  ⟨kSvcAerMode, 1, 12, .live, .enum, zeroReset, .alts [(0, 1, 1)]⟩,
  ⟨kSvcAerBandLo, 1, 12, .live, .u32, (fun _ => [1500]), .alts [(0, 5000, 1)]⟩,
  ⟨kSvcAerBandHi, 1, 12, .live, .u32, (fun _ => [1000]), .alts [(0, 5000, 1)]⟩,
  ⟨kSvcAerDtMin, 1, 12, .live, .s32, (fun _ => [5000]), .alts [(0, 30000, 1)]⟩,
  ⟨kSvcAerTmin, 1, 12, .live, .s32, (fun _ => [2000]), .alts [(-20000, 20000, 1)]⟩,
  ⟨kSvcAerOnMin, 1, 12, .live, .u16, (fun _ => [20]), .alts [(1, 240, 1)]⟩,
  ⟨kSvcAerOffMin, 1, 12, .live, .u16, (fun _ => [10]), .alts [(1, 240, 1)]⟩,
  ⟨kSvcAerCables, 1, 12, .staged, .blob 8, (allOnes 2), .none⟩]

/-- Parameters of R395. -/
def svcParams3 : List PDef := [
  ⟨kSvcAerHotC, 1, 12, .live, .s32, (fun _ => [35000]), .alts [(10000, 80000, 1)]⟩,
  ⟨kSvcAerRiseK, 1, 12, .live, .s32, (fun _ => [3000]), .alts [(500, 20000, 1)]⟩,
  ⟨kSvcAerHotAct, 1, 12, .live, .enum, zeroReset, .alts [(0, 1, 1)]⟩,
  ⟨kSvcAerState, 1, 12, .read, .bits, zeroReset, .none⟩,
  ⟨kSvcAerAmbChan, 1, 1, .staged, .u8, (fun _ => [255]), .alts [(0, 31, 1)]⟩,
  ⟨kSvcAerRhChan, 1, 1, .staged, .u8, (fun _ => [255]), .alts [(0, 31, 1)]⟩,
  ⟨kSvcAerFanMax, 1, 1, .live, .u8, (fun _ => [12]), .alts [(1, 12, 1)]⟩,
  ⟨kSvcWatInj, 1, 2, .staged, .bits, zeroReset, .mask 0xFFFF⟩,
  ⟨kSvcWatPulseUl, 1, 2, .live, .u32, (fun _ => [10000]), .alts [(100, 1000000, 1)]⟩,
  ⟨kSvcWatMeterPin, 1, 2, .staged, .u8, (fun _ => [255]), .alts [(0, 63, 1), (255, 255, 1)]⟩,
  ⟨kSvcWatMeterUl, 1, 2, .live, .u32, (fun _ => [1000]), .alts [(1, 1000000, 1)]⟩,
  ⟨kSvcWatFlowSrc, 1, 2, .staged, .u16, (fun _ => [65535]), .alts [(0x100, 0x11F, 1), (0x200, 0x201, 1)]⟩,
  ⟨kSvcWatGPerCount, 1, 2, .live, .u32, (fun _ => [1000]), .alts [(1, 1000000, 1)]⟩,
  ⟨kSvcWatDx, 1, 2, .staged, .u8, (fun _ => [255]), .alts [(0, 3, 1)]⟩,
  ⟨kSvcWatMTarget, 1, 2, .live, .u32, (fun _ => [12000]), .alts [(5000, 30000, 1)]⟩,
  ⟨kSvcWatMaxLph, 1, 2, .live, .u32, (fun _ => [200]), .alts [(1, 10000, 1)]⟩,
  ⟨kSvcWatBlockMl, 1, 2, .live, .u32, (fun _ => [5000]), .alts [(100, 100000, 1)]⟩,
  ⟨kSvcWatTolPct, 1, 2, .live, .u8, (fun _ => [10]), .alts [(1, 50, 1)]⟩,
  ⟨kSvcCnvRunPin, 1, 16, .staged, .u8, (fun _ => [255]), .alts [(0, 63, 1)]⟩,
  ⟨kSvcCnvSpeedPin, 1, 16, .staged, .u8, (fun _ => [255]), .alts [(0, 63, 1), (255, 255, 1)]⟩,
  ⟨kSvcCnvPlugPin, 1, 16, .staged, .u8, (fun _ => [255]), .alts [(0, 63, 1), (255, 255, 1)]⟩,
  ⟨kSvcCnvAlignPin, 1, 16, .staged, .u8, (fun _ => [255]), .alts [(0, 63, 1), (255, 255, 1)]⟩,
  ⟨kSvcCnvGateVd, 1, 16, .staged, .u16, (fun _ => [65535]), .alts [(0, 0xFFFF, 1)]⟩,
  ⟨kSvcCnvDown, 1, 16, .staged, .u8, (fun _ => [255]), .alts [(0, 15, 1), (255, 255, 1)]⟩,
  ⟨kSvcCnvChain, 1, 16, .staged, .u8, zeroReset, .alts [(0, 3, 1)]⟩,
  ⟨kSvcCnvNomMhz, 1, 16, .live, .u32, zeroReset, .alts [(0, 20000000, 1)]⟩,
  ⟨kSvcCnvProvePct, 1, 16, .live, .u8, (fun _ => [80]), .alts [(10, 100, 1)]⟩,
  ⟨kSvcCnvSlipPct, 1, 16, .live, .u8, (fun _ => [70]), .alts [(10, 100, 1)]⟩,
  ⟨kSvcCnvSlipMs, 1, 16, .live, .u16, (fun _ => [3000]), .alts [(100, 60000, 1)]⟩,
  ⟨kSvcCnvStartS, 1, 16, .live, .u16, (fun _ => [10]), .alts [(1, 600, 1)]⟩,
  ⟨kSvcCnvRunoutS, 1, 16, .live, .u16, (fun _ => [15]), .alts [(0, 600, 1)]⟩,
  ⟨kSvcBrnReqPin, 1, 4, .staged, .u8, (fun _ => [255]), .alts [(0, 63, 1), (255, 255, 1)]⟩,
  ⟨kSvcBrnProvenPin, 1, 4, .staged, .u8, (fun _ => [255]), .alts [(0, 63, 1), (255, 255, 1)]⟩,
  ⟨kSvcBrnLi, 1, 4, .staged, .u8, (fun _ => [255]), .alts [(0, 63, 1), (255, 255, 1)]⟩,
  ⟨kSvcBrnPlenumChan, 1, 4, .staged, .u8, (fun _ => [255]), .alts [(0, 31, 1), (255, 255, 1)]⟩,
  ⟨kSvcBrnPlenumMax, 1, 4, .paired, .s32, (fun _ => [90000]), .alts [(20000, 150000, 1)]⟩,
  ⟨kSvcBrnLowfireMa, 1, 4, .live, .u16, (fun _ => [200]), .alts [(0, 1500, 1)]⟩,
  ⟨kSvcBrnProveS, 1, 4, .live, .u16, (fun _ => [60]), .alts [(5, 600, 1)]⟩,
  ⟨kSvcBrnLowfireS, 1, 4, .live, .u16, (fun _ => [10]), .alts [(0, 300, 1)]⟩,
  ⟨kSvcBrnRetries, 1, 4, .live, .u8, (fun _ => [1]), .alts [(0, 5, 1)]⟩]

/-- Parameters of R395. -/
def svcParams4 : List PDef := [
  ⟨kSvcBrnGasPin, 1, 4, .staged, .u8, (fun _ => [255]), .alts [(0, 63, 1), (255, 255, 1)]⟩,
  ⟨kSvcBrnKjPerPulse, 1, 4, .live, .u32, zeroReset, .alts [(0, 1000000, 1)]⟩,
  ⟨kSvcBrnKwPerA, 1, 4, .live, .u32, zeroReset, .alts [(0, 1000000, 1)]⟩,
  ⟨kSvcRecipe, 1, 32, .staged, .blob 4096, zeroReset, .none⟩]

/-- Parameters of R436. -/
def busParams : List PDef := [
  ⟨kBusMode, 1, 2, .live, .enum, zeroReset, .alts [(0, 3, 1)]⟩,
  ⟨kBusNomKbps, 1, 2, .staged, .enum, (fun _ => [500]),
    .alts [(50, 50, 1), (100, 100, 1), (125, 125, 1), (250, 250, 1), (500, 500, 1), (800, 800, 1), (1000, 1000, 1)]⟩,
  ⟨kBusNomSp, 1, 2, .staged, .u16, (fun _ => [800]), .alts [(600, 900, 1)]⟩,
  ⟨kBusDataKbps, 1, 2, .staged, .enum, zeroReset, .alts [(0, 0, 1), (1000, 1000, 1), (2000, 2000, 1), (4000, 4000, 1), (5000, 5000, 1)]⟩,
  ⟨kBusDataSp, 1, 2, .staged, .u16, (fun _ => [750]), .alts [(600, 900, 1)]⟩,
  ⟨kBusOptions, 1, 2, .staged, .bits, zeroReset, .mask 3⟩,
  ⟨kBusNomatch, 1, 2, .live, .enum, zeroReset, .alts [(0, 1, 1)]⟩,
  ⟨kBusNodeId, 1, 2, .staged, .u8, (fun _ => [1]), .alts [(1, 127, 1)]⟩,
  ⟨kBusRateList, 1, 2, .live, .blob 32, (fun _ => [w32 500]), .none⟩,
  ⟨kBusFilt, 1, 256, .live, .blob 12, zeroReset, .none⟩,
  ⟨kBusPiste, 1, 2, .staged, .blob 400, zeroReset, .none⟩,
  ⟨kBusSmo, 1, 64, .live, .blob 72, zeroReset, .none⟩,
  ⟨kBusTmPrio, 1, 2, .live, .u8, (fun _ => [255]), .alts [(0, 7, 1), (255, 255, 1)]⟩,
  ⟨kBusTmMinTq, 1, 2, .live, .enum, (fun _ => [2]), .alts [(0, 3, 1)]⟩,
  ⟨kBusRefId, 1, 2, .staged, .u16, (fun _ => [16]), .alts [(0, 0x7F8, 8)]⟩,
  ⟨kBusTimeInfoId, 1, 2, .staged, .u16, (fun _ => [24]), .alts [(0, 0x7FF, 1)]⟩,
  ⟨kBusState, 1, 2, .read, .bits, zeroReset, .none⟩,
  ⟨kBusStats, 1, 2, .read, .blob 32, zeroReset, .none⟩,
  ⟨kBusTimeOfs, 1, 2, .read, .s32, zeroReset, .none⟩,
  ⟨kBusRole, 1, 96, .staged, .blob 16, zeroReset, .none⟩,
  ⟨kBusRoleState, 1, 96, .read, .u32, zeroReset, .none⟩,
  ⟨kBusRstEnable, 1, 1, .live, .bits, zeroReset, .mask 3⟩,
  ⟨kBusRstBase, 1, 1, .staged, .u16, (fun _ => [1024]), .alts [(0, 0x600, 0x200)]⟩,
  ⟨kBusRstHbMs, 1, 1, .live, .u16, (fun _ => [1000]), .alts [(10, 60000, 1)]⟩,
  ⟨kBusRmbBase, 1, 1, .staged, .u16, (fun _ => [1984]), .alts [(0, 0x7E0, 0x20)]⟩,
  ⟨kBusRmbRole, 1, 8, .staged, .u8, (fun _ => [255]), .alts [(0, 95, 1), (255, 255, 1)]⟩]

/-- Parameters of R478. -/
def gnsParams : List PDef := [
  ⟨kGnsEnable, 1, 1, .live, .enum, zeroReset, .alts [(0, 2, 1)]⟩,
  ⟨kGnsSystems, 1, 1, .live, .bits, (fun _ => [7]), .mask 7⟩,
  ⟨kGnsBands, 1, 1, .live, .bits, (fun _ => [3]), .mask 3⟩,
  ⟨kGnsMaxCh, 1, 1, .live, .u8, (fun _ => [32]), .alts [(1, 32, 1)]⟩,
  ⟨kGnsIfFmt, 1, 1, .staged, .enum, zeroReset, .alts [(0, 0, 1), (1, 1, 1)]⟩,
  ⟨kGnsIfHz, 1, 2, .staged, .s32, zeroReset, .alts [(-10000000, 10000000, 1)]⟩,
  ⟨kGnsCorrSpacing, 1, 2, .live, .u32, (fun b => [if b = 0 then 0x0064320A else 0x0064321E]), .alts [(0, 0xFFFFFF, 1)]⟩,
  ⟨kGnsElevMask, 1, 1, .live, .u8, (fun _ => [10]), .alts [(0, 45, 1)]⟩,
  ⟨kGnsCn0Min, 1, 1, .live, .u16, (fun _ => [3000]), .alts [(2000, 4500, 1)]⟩,
  ⟨kGnsMpEnable, 1, 1, .live, .bool, (fun _ => [1]), .alts [(0, 1, 1)]⟩,
  ⟨kGnsMpExcl, 1, 1, .live, .u8, (fun _ => [12]), .alts [(1, 15, 1)]⟩,
  ⟨kGnsMeasMs, 1, 1, .live, .enum, (fun _ => [1000]), .alts [(100, 100, 1), (200, 200, 1), (500, 500, 1), (1000, 1000, 1)]⟩,
  ⟨kGnsOut, 1, 1, .live, .bits, (fun _ => [12]), .mask 0xF⟩,
  ⟨kGnsPosMode, 1, 1, .live, .enum, (fun _ => [1]), .alts [(0, 2, 1)]⟩,
  ⟨kGnsSurveyMin, 1, 1, .live, .u16, (fun _ => [60]), .alts [(10, 10080, 1)]⟩,
  ⟨kGnsSurveyCm, 1, 1, .live, .u16, (fun _ => [100]), .alts [(10, 5000, 1)]⟩,
  ⟨kGnsPosFix, 1, 1, .live, .blob 16, zeroReset, .none⟩,
  ⟨kGnsAntDelay, 1, 1, .live, .s32, zeroReset, .alts [(0, 100000, 1)]⟩,
  ⟨kGnsDelayUncNs, 1, 1, .live, .u16, (fun _ => [5]), .alts [(0, 1000, 1)]⟩,
  ⟨kGnsTimeRef, 1, 1, .live, .enum, zeroReset, .alts [(0, 0, 1), (1, 1, 1), (2, 2, 1)]⟩,
  ⟨kGnsLoopS, 1, 1, .live, .u16, (fun _ => [60]), .alts [(10, 1000, 1)]⟩,
  ⟨kGnsSlewNsS, 1, 1, .live, .u16, (fun _ => [200]), .alts [(10, 200, 1)]⟩,
  ⟨kGnsHoSensor, 1, 1, .live, .u8, zeroReset, .alts [(0, 5, 1)]⟩,
  ⟨kGnsPulseHz, 1, 1, .live, .enum, (fun _ => [1]), .alts [(0, 0, 1), (1, 1, 1), (2, 2, 1), (4, 4, 1), (5, 5, 1), (8, 8, 1), (10, 10, 1)]⟩,
  ⟨kGnsPulseWidthUs, 1, 1, .live, .u32, (fun _ => [100000]), .alts [(1, 499999, 1)]⟩,
  ⟨kGnsPulsePol, 1, 1, .live, .enum, zeroReset, .alts [(0, 1, 1)]⟩,
  ⟨kGnsPulseOfs, 1, 1, .live, .s32, zeroReset, .alts [(-10000000, 10000000, 1)]⟩,
  ⟨kGnsPulseMinTq, 1, 1, .live, .enum, zeroReset, .alts [(0, 3, 1)]⟩,
  ⟨kGnsState, 1, 1, .read, .bits, zeroReset, .none⟩,
  ⟨kGnsUncNs, 1, 1, .read, .u32, (fun _ => [4294967295]), .none⟩,
  ⟨kGnsUtcOfs, 1, 1, .read, .s32, zeroReset, .none⟩,
  ⟨kGnsHoModel, 1, 1, .read, .blob 16, zeroReset, .none⟩,
  ⟨kGnsSnapState, 1, 1, .read, .u32, zeroReset, .none⟩,
  ⟨kGnsStepCount, 1, 1, .read, .u32, zeroReset, .none⟩,
  ⟨kGnsPos, 1, 1, .read, .blob 16, zeroReset, .none⟩,
  ⟨kGnsChState, 1, 32, .read, .u32, zeroReset, .none⟩]

/-- Parameters of R510. -/
def pwrParams : List PDef := [
  ⟨kPwrPlReq, 1, 1, .live, .enum, (fun _ => [3]), .alts [(0, 3, 1)]⟩,
  ⟨kPwrF3StepMs, 1, 1, .live, .u16, (fun _ => [10]), .alts [(1, 1000, 1)]⟩,
  ⟨kPwrF3ReleaseMs, 1, 1, .live, .u16, (fun _ => [100]), .alts [(10, 10000, 1)]⟩,
  ⟨kPwrWakeSrc, 1, 1, .live, .bits, (fun _ => [3]), .mask 0xF⟩,
  ⟨kPwrWakePattern, 1, 1, .live, .u32, (fun _ => [2774142870]), .alts [(1, 0xFFFFFFFE, 1)]⟩,
  ⟨kPwrLpAllow, 1, 1, .live, .bool, (fun _ => [1]), .alts [(0, 1, 1)]⟩,
  ⟨kPwrState, 1, 1, .read, .u32, zeroReset, .none⟩,
  ⟨kPwrShed, 1, 1, .read, .u32, zeroReset, .none⟩,
  ⟨kPwrVlog, 1, 1, .read, .u32, zeroReset, .none⟩,
  ⟨kPwrVfld, 1, 1, .read, .u32, zeroReset, .none⟩,
  ⟨kPwrPl3Mv, 1, 1, .read, .u32, (fun _ => [1100]), .none⟩]

/-- Parameters of R550. -/
def hltParams : List PDef := [
  ⟨kHltGroomH, 1, 1, .live, .u16, (fun _ => [24]), .alts [(1, 168, 1)]⟩,
  ⟨kHltThrMarginK, 1, 1, .live, .u8, (fun _ => [30]), .alts [(20, 40, 1)]⟩,
  ⟨kHltEpoch, 1, 11, .paired, .u32, (fun _ => [1]), .none⟩,
  ⟨kHltTemp, 1, 14, .read, .s32, zeroReset, .none⟩,
  ⟨kHltTempOfs, 1, 14, .read, .s32, zeroReset, .none⟩,
  ⟨kHltThrottle, 1, 1, .read, .u32, zeroReset, .none⟩,
  ⟨kHltPlan, 1, 1, .read, .blob 16, zeroReset, .none⟩,
  ⟨kHltUnit, 1, 52, .read, .u32, zeroReset, .none⟩,
  ⟨kHltCounts, 1, 1, .read, .blob 32, zeroReset, .none⟩]

/-- Parameters of R565. -/
def idnParams : List PDef := [
  ⟨kIdnEnrolReq, 1, 1, .live, .blob 224, zeroReset, .none⟩,
  ⟨kIdnBinding, 1, 1, .paired, .blob 60, zeroReset, .none⟩,
  ⟨kIdnState, 1, 1, .read, .bits, zeroReset, .none⟩,
  ⟨kIdnChain, 1, 1, .read, .u32, zeroReset, .none⟩,
  ⟨kIdnLastIndex, 1, 1, .read, .u32, zeroReset, .none⟩,
  ⟨kIdnExportNext, 1, 1, .read, .u32, zeroReset, .none⟩]

/-- Parameters of R92. -/
def hstParams : List PDef := [
  ⟨kHstSilenceMs, 1, 1, .live, .u32, zeroReset, .alts [(0, 0, 1), (10, 60000, 1)]⟩,
  ⟨kHstRmbEnable, 1, 1, .live, .bits, zeroReset, .mask 3⟩,
  ⟨kHstRmbGrant, 1, 1, .live, .bits, zeroReset, .mask 0xF⟩,
  ⟨kHstRmbSilenceMs, 1, 1, .live, .u32, zeroReset, .alts [(0, 0, 1), (100, 600000, 1)]⟩,
  ⟨kHstEvtMask, 1, 1, .live, .bits, (fun _ => [8191]), .mask 0x1FFF⟩]

/-- The parameter table of a subsystem (R3). -/
def paramTable (sub : Nat) : List PDef :=
  match sub with
  | 0 => sysParams
  | 1 => fioParams
  | 2 => afeParams
  | 3 => dlxParams
  | 4 => vlvParams
  | 5 => ctlParams
  | 6 => svcParams ++ svcParams2 ++ svcParams3 ++ svcParams4
  | 7 => busParams
  | 8 => gnsParams
  | 9 => pwrParams
  | 10 => hltParams
  | 11 => idnParams
  | 12 => hstParams
  | _ => []

/-! ## Looking a parameter up -/

/-- The code of a class (R9). -/
def PClass.code : PClass → Nat
  | .live => 0
  | .staged => 1
  | .paired => 2
  | .read => 3

/-- The code of a type (R14). -/
def PType.code : PType → Nat
  | .u8 => 0
  | .u16 => 1
  | .u32 => 2
  | .s16 => 3
  | .s32 => 4
  | .bool => 5
  | .enum => 6
  | .bits => 7
  | .blob _ => 8

/-- The size of a value in 32-bit words (R14). -/
def PType.words : PType → Nat
  | .blob n => (n + 3) / 4
  | _ => 1

/-- A BLOB type. -/
def PType.isBlob : PType → Bool
  | .blob _ => true
  | _ => false

/-- Values of the type are signed (R14). -/
def PType.signed : PType → Bool
  | .s16 => true
  | .s32 => true
  | _ => false

/-- Subsystem and key of a parameter address (R6). -/
def keyOf (addr : Nat) : Nat := addr / 256

/-- Instance of a parameter address (R6). -/
def instOf (addr : Nat) : Nat := addr % 256

/-- The address of a key and an instance (R6). -/
def addrOf (key inst : Nat) : Nat := key * 256 + inst

/-- An instance of a parameter exists (R8); a limit parameter takes the grain number as instance (R395). -/
def instOk (p : PDef) (inst : Nat) : Bool :=
  if kSvcTmaxCom ≤ p.key ∧ p.key ≤ kSvcEmcCoef then
    (1 ≤ inst && inst ≤ 12) || (32 ≤ inst && inst ≤ 47)
  else inst < p.insts

/-- The instance count that `PARAM_INFO` returns (R593). -/
def PDef.count (p : PDef) : Nat :=
  if kSvcTmaxCom ≤ p.key ∧ p.key ≤ kSvcEmcCoef then 28 else p.insts

/-- The row of a parameter address, where subsystem, key and instance are defined (R8). -/
def findDef (addr : Nat) : Option PDef :=
  (paramTable (addr / 2 ^ 20)).find? fun p =>
    p.key ≤ keyOf addr && keyOf addr < p.key + p.keys && instOk p (instOf addr)

/-- The reset words of a parameter, filled with zeros to its size. -/
def resetWords (p : PDef) (inst : Nat) : List Word :=
  let r := p.reset inst
  r ++ List.replicate (p.ty.words - r.length) 0

/-- The reset words of an address; none where it is not defined. -/
def resetOf (addr : Nat) : List Word :=
  match findDef addr with
  | none => []
  | some p => resetWords p (instOf addr)

/-! ## Reading -/

/-- The words in force of a LIVE or STAGED parameter: what was last written, or the reset value. -/
def pwords (d : Dev) (addr : Nat) : List Word :=
  match d.cmd.params.find? fun e => e.1 = addr with
  | some e => e.2.words
  | none => resetOf addr

/-- The first word in force of a LIVE or STAGED parameter. -/
def pw (d : Dev) (key inst : Nat) : Word := (pwords d (addrOf key inst)).headD 0

/-- The value in force as an unsigned number. -/
def pget (d : Dev) (key inst : Nat) : Nat := (pw d key inst).toNat

/-- The value in force as a signed number. -/
def pgetI (d : Dev) (key inst : Nat) : Int := (pw d key inst).toInt

/-- The bytes in force of a BLOB parameter. -/
def pbytes (d : Dev) (key inst : Nat) : List Byte := bytesOf (pwords d (addrOf key inst))

/-- A pair is valid: V XOR C = 0xFFFF_FFFF (R42). -/
def pairValid (p : Word × Word) : Bool := p.1 ^^^ p.2 == 0xFFFFFFFF

/-- A value wider than 32 bits is valid only when every pair is (R42). -/
def pairsValid (ps : List (Word × Word)) : Bool := ps.all pairValid

/-- The valid pair of a word. -/
def mkPair (v : Word) : Word × Word := (v, ~~~v)

/-- The PAIRED parameters with a persistent pair in data flash: the role epochs and the binding (R44). -/
def persists (addr : Nat) : Bool := keyOf addr == kHltEpoch || keyOf addr == kIdnBinding

/-- A PAIRED parameter as the device starts with it: its reset value, valid in both copies (R44). -/
def resetPair (addr : Nat) : Pair where
  prim := (resetOf addr).map mkPair
  shad := (resetOf addr).map mkPair
  flash := if persists addr then some ((resetOf addr).map mkPair) else none
  gen := 0
  lost := false
  tick := 0

/-- A PAIRED parameter in main SRAM. -/
def pairOf (d : Dev) (addr : Nat) : Pair :=
  match d.cmd.pairs.find? fun e => e.1 = addr with
  | some e => e.2
  | none => resetPair addr

/-- The value used while a PAIRED word has no valid copy: the one that lets its block do least (R595). -/
def lostValue (key : Nat) : Word :=
  if key = kSysLiftSilenceMs then 1
  else if kSvcTmaxCom ≤ key ∧ key ≤ kSvcTmaxMalt then 20000
  else if key = kSvcBrnPlenumMax then 20000
  else 0

/-- The words a consumer on the control die uses: the primary pair, else the shadow, else the value of R595 (R46, R49). -/
def pairWords (d : Dev) (addr : Nat) : List Word :=
  let p := pairOf d addr
  if pairsValid p.prim then p.prim.map (·.1)
  else if pairsValid p.shad then p.shad.map (·.1)
  else [lostValue (keyOf addr)]

/-- The value of a PAIRED parameter a consumer on the control die uses. -/
def pairV (d : Dev) (key inst : Nat) : Nat := ((pairWords d (addrOf key inst)).headD 0).toNat

/-- The same value, signed. -/
def pairI (d : Dev) (key inst : Nat) : Int := ((pairWords d (addrOf key inst)).headD 0).toInt

/-- The field die's copy of a PAIRED word, where it holds one (R52). -/
def fieldPair (d : Dev) (addr : Nat) : Option FieldPair :=
  (d.lift.pairs.find? fun e => e.1 = addr).map (·.2)

/-- The value the field die uses for a PAIRED word: the active pair, else the shadow, else the value of R595 (R52). -/
def fpairV (d : Dev) (key inst : Nat) : Nat :=
  match fieldPair d (addrOf key inst) with
  | none => (lostValue key).toNat
  | some f =>
    if pairValid f.act then f.act.1.toNat
    else if pairValid f.shad then f.shad.1.toNat
    else (lostValue key).toNat

/-! ## Writing -/

/-- Sets a LIVE or STAGED parameter; its tick of last change is the present tick (R93). -/
def setParam (addr : Nat) (ws : List Word) (d : Dev) : Dev :=
  { d with cmd := { d.cmd with params := alSet d.cmd.params addr { words := ws, tick := d.time.tick } } }

/-- Writes a PAIRED parameter: the shadow pair first and the primary second in one locked step (R44), its write count
(R123) and the persistent pair where it has one. -/
def setPair (addr : Nat) (vs : List (Word × Word)) (d : Dev) : Dev :=
  let p := pairOf d addr
  { d with
    cmd := { d.cmd with
      pairs := alSet d.cmd.pairs addr
        { prim := vs, shad := vs, flash := if persists addr then some vs else none, gen := (p.gen + 1) % 4, lost := false,
          tick := d.time.tick } } }

/-- V and C of each pair from the words of a PAIRED write or record (R93, R94). -/
def pairsOfWords : List Word → List (Word × Word)
  | v :: c :: rest => (v, c) :: pairsOfWords rest
  | _ => []

/-- A value put into the store at its boundary: a PAIRED value as its pairs, any other as its words. -/
def applyValue (addr : Nat) (ws : List Word) (d : Dev) : Dev :=
  match findDef addr with
  | none => d
  | some p => if p.cls = .paired then setPair addr (pairsOfWords ws) d else setParam addr ws d

/-- Puts a value on the list of those that wait for their boundary. -/
def addWait (w : Wait) (d : Dev) : Dev := { d with cmd := { d.cmd with waits := d.cmd.waits ++ [w] } }

/-- Applies the waiting values of a list, oldest first; a value that a later one of the same list replaces is not
applied, and its command completes with SUPERSEDED (R89). `hook` is what the block does when its parameter changes. -/
def applyWaits (hook : Nat → Dev → Dev) : List Wait → Dev → Dev
  | [], d => d
  | w :: rest, d =>
    let t := tickBytes d
    if rest.any fun x => x.addr = w.addr then
      applyWaits hook rest (match w.cmd with
        | none => d
        | some id => completeSuperseded id t d)
    else
      let d := hook w.addr (applyValue w.addr w.words d)
      applyWaits hook rest (match w.cmd with
        | none => d
        | some id => completeId id 0 0 t d)

/-- A boundary reached: every waiting value that the test names and that has crossed the Lift applies (R88, R89). -/
def boundary (hook : Nat → Dev → Dev) (p : Wait → Bool) (d : Dev) : Dev :=
  let ready := d.cmd.waits.filter fun w => p w && w.left == 0
  applyWaits hook ready
    { d with cmd := { d.cmd with waits := d.cmd.waits.filter fun w => !(p w && w.left == 0) } }

/-! ## Ranges -/

/-- A word as the number its type makes of it (R12, R14). -/
def typed (ty : PType) (w : Word) : Int := if ty.signed then w.toInt else (w.toNat : Int)

/-- A value lies in the Range column (R88). -/
def inRange (p : PDef) (w : Word) : Bool :=
  match p.range with
  | .none => true
  | .alts xs => xs.any fun (lo, hi, step) =>
      lo ≤ typed p.ty w && typed p.ty w ≤ hi && (typed p.ty w) % (step : Int) == 0
  | .mask m => w.toNat ||| m == m

/-- Smallest and largest allowed values as words (R593). -/
def rangeMin (p : PDef) : Word :=
  match p.range with
  | .none => 0
  | .alts xs => iw ((xs.map (·.1)).min?.getD 0)
  | .mask _ => 0

def rangeMax (p : PDef) : Word :=
  match p.range with
  | .none => 0
  | .alts xs => iw ((xs.map (·.2.1)).max?.getD 0)
  | .mask m => w32 m

/-! ## Floating point -/

/-- The value of an IEEE 754 binary32 word; of an infinity or a NaN the spec states no use (log entry 4). -/
def f32 (w : Word) : Rat :=
  let n := w.toNat
  let e : Nat := fld n 23 8
  let m : Nat := n % 2 ^ 23
  let h : Nat := m + 2 ^ 23
  let v : Rat :=
    if e = 255 then Config.openFloat w
    else if e = 0 then (m : Rat) / (2 : Rat) ^ 149
    else if 150 ≤ e then (h : Rat) * (2 : Rat) ^ (e - 150)
    else (h : Rat) / (2 : Rat) ^ (150 - e)
  if n < 2 ^ 31 then v else -v

/-- A word is a finite binary32 number. -/
def f32Finite (w : Word) : Bool := fld w.toNat 23 8 != 255

/-- The largest `k` below `fuel` with `2 ^ k ≤ x`, for `x` of at least 1. -/
def log2Up : (fuel : Nat) → Rat → Nat
  | 0, _ => 0
  | n + 1, x => if x < 2 then 0 else 1 + log2Up n (x / 2)

/-- A binary32 word nearest to a rational, ties to even; too large a value becomes an infinity. -/
def toF32 (x : Rat) : Word :=
  let a := if x < 0 then -x else x
  let sgn := if x < 0 then 2 ^ 31 else 0
  if a = 0 then 0
  else
    -- exponent e with 2^e ≤ a < 2^(e+1)
    let e : Int :=
      if 1 ≤ a then (log2Up 400 a : Int)
      else
        let k := log2Up 400 (1 / a)
        if a * (2 : Rat) ^ k = 1 then -(k : Int) else -(k : Int) - 1
    let e := if e < -126 then -126 else e
    let m : Rat := if 23 ≤ e then a / (2 : Rat) ^ (e - 23).toNat else a * (2 : Rat) ^ (23 - e).toNat
    let fl := m.floor.toNat
    let frac := m - fl
    let r := if frac > 1 / 2 ∨ (frac = 1 / 2 ∧ fl % 2 = 1) then fl + 1 else fl
    let code := if r < 2 ^ 23 then r else ((e + 126).toNat * 2 ^ 23 + r)
    if code < 0x7F800000 then w32 (sgn + code) else w32 (sgn + 0x7F800000)

/-- A rational rounded to the nearest integer, ties away from zero. -/
def ratRound (x : Rat) : Int := divRound x.num x.den

end Sys2Proof.Machine
end

