-- ==== Sys2Proof/Machine/Real.lean ====
section
/-!
DEFINITION. Machine/Real.lean: the real functions the formulas of the spec use, over rationals. Division, sums and
products are exact; logarithm, power and square root are cut at 40 binary digits (log entry 13).
-/
namespace Sys2Proof.Machine

/-- A quotient; where the divisor is 0 the spec states no result (log entry 4). -/
def rdiv (a b : Rat) : Rat := if b = 0 then Config.openRat a else a / b

/-- Square root to 2^-40; of a negative number the spec states no result (log entry 4). -/
def ratSqrt (x : Rat) : Rat :=
  if x < 0 then Config.openRat x else (isqrt (x * (2 : Rat) ^ 80).floor.toNat : Rat) / (2 : Rat) ^ 40

/-- Binary digits of the logarithm of a mantissa `m ÷ 2^40` in [1, 2). -/
def log2Bits : (fuel : Nat) → (m acc : Nat) → Nat
  | 0, _, acc => acc
  | n + 1, m, acc =>
    let q := m * m / 2 ^ 40
    if 2 ^ 41 ≤ q then log2Bits n (q / 2) (acc * 2 + 1) else log2Bits n q (acc * 2)

/-- Base-2 logarithm of a number of at least 1, to 2^-40. -/
def log2Of (x : Rat) : Rat :=
  let k := log2Up 64 x
  let m := (x * (2 : Rat) ^ 40 / (2 : Rat) ^ k).floor.toNat
  ((k * 2 ^ 40 + log2Bits 40 m 0 : Nat) : Rat) / (2 : Rat) ^ 40

/-- 2 to the power of a binary fraction of 40 digits; `root` is 2 to the power of the present digit's weight. -/
def exp2Bits : (fuel : Nat) → (root frac acc : Nat) → Nat
  | 0, _, _, acc => acc
  | n + 1, root, frac, acc =>
    exp2Bits n (isqrt (root * 2 ^ 40)) (frac * 2 % 2 ^ 40)
      (if 2 ^ 40 ≤ frac * 2 then acc * root / 2 ^ 40 else acc)

/-- 2 to the power of a number that is not negative, to a relative 2^-38. -/
def exp2Of (x : Rat) : Rat :=
  let k := x.floor.toNat
  let f := ((x - k) * (2 : Rat) ^ 40).floor.toNat
  (2 : Rat) ^ k * (exp2Bits 40 (isqrt (2 * 2 ^ 80)) f (2 ^ 40) : Rat) / (2 : Rat) ^ 40

/-- π. -/
def ratPi : Rat := 31415926535897932 / 10000000000000000

/-- Sum of a list. -/
def rsum (xs : List Rat) : Rat := xs.foldl (· + ·) 0

/-- Mean of a list; of an empty list the spec states none. -/
def rmean (xs : List Rat) : Rat := rdiv (rsum xs) xs.length

/-- Largest of a list, 0 for an empty one. -/
def rmax (xs : List Rat) : Rat := xs.foldl (fun a x => if a < x then x else a) (xs.headD 0)

def Cx.add (a b : Cx) : Cx := ⟨a.re + b.re, a.im + b.im⟩
def Cx.sub (a b : Cx) : Cx := ⟨a.re - b.re, a.im - b.im⟩
def Cx.mul (a b : Cx) : Cx := ⟨a.re * b.re - a.im * b.im, a.re * b.im + a.im * b.re⟩
def Cx.scale (k : Rat) (a : Cx) : Cx := ⟨k * a.re, k * a.im⟩
def Cx.norm2 (a : Cx) : Rat := a.re * a.re + a.im * a.im

/-- Complex quotient; a zero divisor leaves the result open. -/
def Cx.div (a b : Cx) : Cx :=
  let n := b.norm2
  ⟨rdiv (a.re * b.re + a.im * b.im) n, rdiv (a.im * b.re - a.re * b.im) n⟩

/-- The mean of a list of complex numbers. -/
def cxMean (xs : List Cx) : Cx := ⟨rmean (xs.map (·.re)), rmean (xs.map (·.im))⟩

end Sys2Proof.Machine
end

