-- ==== Sys2Proof/Machine/Curves.lean ====
section
/-!
DEFINITION. Machine/Curves.lean: the sensor equations that R158 and R159 name: IEC 60751 platinum, nickel of TCR 6,180 ppm/K,
the IEC 60584 reference functions of five thermocouples, and Steinhart-Hart. The coefficients of the named standards are the
standards' own (PRESUMED, log entries 11 and 136); the nearest value is taken (log entry 12).
-/
namespace Sys2Proof.Machine

/-- The largest integer `x` in [lo, lo + 2^n) with `f x ≤ y`, for rising `f`; `lo` where there is none. -/
def searchMono (f : Int → Rat) (y : Rat) : (n : Nat) → (lo : Int) → Int
  | 0, lo => lo
  | n + 1, lo => let m := lo + 2 ^ n; if f m ≤ y then searchMono f y n m else searchMono f y n lo

/-- The temperature in 0.001 °C from `lo` upwards at which a rising function comes nearest to a value; below `lo` where it is less
than all of them. -/
def nearestMono (f : Int → Rat) (y : Rat) (lo : Int) : Int :=
  if y < f lo then lo - 1
  else
    let x := searchMono f y 21 lo
    if y - f x ≤ f (x + 1) - y then x else x + 1

/-! ## Resistance sensors -/

/-- IEC 60751: resistance in Ω of a platinum sensor of `r0` Ω at a temperature in 0.001 °C. The coefficient of the term
below 0 °C is IEC 60751's own (PRESUMED, log entry 11). -/
def ptOhm (r0 : Rat) (mc : Int) : Rat :=
  let t : Rat := (mc : Rat) / 1000
  let base := 1 + (39083 : Rat) / 10000000 * t - (5775 : Rat) / 10000000000 * t * t
  if 0 ≤ mc then r0 * base
  else r0 * (base - (4183 : Rat) / 1000000000000000 * (t - 100) * t * t * t)

/-- Temperature in 0.001 °C nearest to a platinum resistance (R158). -/
def ptTemp (r0 : Rat) (r : Rat) : Int := nearestMono (ptOhm r0) r (-300000)

/-- Resistance in Ω of the nickel sensor of 1,000 Ω and TCR 6,180 ppm/K at a temperature in 0.001 °C: the polynomial of DIN 43760
(PRESUMED, log entry 136). -/
def niOhm (mc : Int) : Rat :=
  let t : Rat := (mc : Rat) / 1000
  1000 + 5485 / 1000 * t + 665 / 100000 * t * t + 2805 / 100000000000 * t * t * t * t -
    2 / 100000000000000 * t * t * t * t * t * t

/-- Temperature in 0.001 °C nearest to a nickel resistance (R158). -/
def niTemp (r : Rat) : Int := nearestMono niOhm r (-100000)

/-- Natural logarithm of a number of at least 1. -/
def lnOf (x : Rat) : Rat := log2Of x * (6931471805599453 : Rat) / 10 ^ 16

/-- Steinhart-Hart: 1/T = A + B ln R + C (ln R)³ with T in kelvin and R in Ω, as 0.001 °C (R159). -/
def steinhart (a b c : Word) (r : Rat) : Int :=
  let l := lnOf r
  ratRound (1000 * (rdiv 1 (f32 a + f32 b * l + f32 c * l * l * l) - 27315 / 100))

/-! ## Thermocouples (IEC 60584; PRESUMED, log entry 136) -/

/-- A coefficient as digits and the power of ten they are divided by. -/
def decimal (c : Int × Nat) : Rat := (c.1 : Rat) / (10 : Rat) ^ c.2

/-- A polynomial in t with coefficients from the constant upwards. -/
def polyAt (cs : List (Int × Nat)) (t : Rat) : Rat := cs.foldr (fun c a => decimal c + t * a) 0

/-- Type J, -210 °C to 760 °C. -/
def typeJLow : List (Int × Nat) := [
  (0, 12), (503811878150, 13), (304758369300, 16), (-856810657200, 19), (132281952950, 21), (-170529583370, 24),
  (209480906970, 27), (-125383953360, 30), (156317256970, 34)]

/-- Type J, 760 °C to 1200 °C. -/
def typeJHigh : List (Int × Nat) := [
  (296456256810, 9), (-149761277860, 11), (317871039240, 14), (-318476867010, 17), (157208190040, 20),
  (-306913690560, 24)]

/-- Type K, -270 °C to 0 °C. -/
def typeKLow : List (Int × Nat) := [
  (0, 12), (394501280250, 13), (236223735980, 16), (-328589067840, 18), (-499048287770, 20), (-675090591730, 22),
  (-574103274280, 24), (-310888728940, 26), (-104516093650, 28), (-198892668780, 31), (-163226974860, 34)]

/-- Type K, 0 °C to 1372 °C. -/
def typeKHigh : List (Int × Nat) := [
  (-176004136860, 13), (389212049750, 13), (185587700320, 16), (-994575928740, 19), (318409457190, 21),
  (-560728448890, 24), (560750590590, 27), (-320207200030, 30), (971511471520, 34), (-121047212750, 37)]

/-- Type T, -270 °C to 0 °C. -/
def typeTLow : List (Int × Nat) := [
  (0, 12), (387481063640, 13), (441944343470, 16), (118443231050, 18), (200329735540, 19), (901380195590, 21),
  (226511565930, 22), (360711542050, 24), (384939398830, 26), (282135219250, 28), (142515947790, 30),
  (487686622860, 33), (107955392700, 35), (139450270620, 38), (797951539270, 42)]

/-- Type T, 0 °C to 400 °C. -/
def typeTHigh : List (Int × Nat) := [
  (0, 12), (387481063640, 13), (332922278800, 16), (206182434040, 18), (-218822568460, 20), (109968809280, 22),
  (-308157587720, 25), (454791352900, 28), (-275129016730, 31)]

/-- Type N, -270 °C to 0 °C. -/
def typeNLow : List (Int × Nat) := [
  (0, 12), (261591059620, 13), (109574842280, 16), (-938411115540, 19), (-464120397590, 22), (-263033577160, 23),
  (-226534380030, 25), (-760893007910, 28), (-934196678350, 31)]

/-- Type N, 0 °C to 1300 °C. -/
def typeNHigh : List (Int × Nat) := [
  (0, 12), (259293946010, 13), (157101418800, 16), (438256272370, 19), (-252611697940, 21), (643118193390, 24),
  (-100634715190, 26), (997453389920, 30), (-608632456070, 33), (208492293390, 36), (-306821961510, 40)]

/-- Type E, -270 °C to 0 °C. -/
def typeELow : List (Int × Nat) := [
  (0, 12), (586655087080, 13), (454109771240, 16), (-779980486860, 18), (-258001608430, 19), (-594525830570, 21),
  (-932140586670, 23), (-102876055340, 24), (-803701236210, 27), (-439794973910, 29), (-164147763550, 31),
  (-396736195160, 34), (-558273287210, 37), (-346578420130, 40)]

/-- Type E, 0 °C to 1000 °C. -/
def typeEHigh : List (Int × Nat) := [
  (0, 12), (586655087100, 13), (450322755820, 16), (289084072120, 19), (-330568966520, 21), (650244032700, 24),
  (-191974955040, 27), (-125366004970, 29), (214892175690, 32), (-143880417820, 35), (359608994810, 39)]

/-- The exponential term of type K above 0 °C: a₀ exp(a₁ (t - 126.9686)²). -/
def typeKExp (t : Rat) : Rat :=
  let u := t - 1269686 / 10000
  let x := (1183432 : Rat) / 10 ^ 10 * u * u * 14426950408889634 / 10 ^ 16
  (1185976 : Rat) / 10 ^ 7 / exp2Of x

/-- Voltage in mV of a thermocouple of a curve at a temperature in 0.001 °C, its other junction at 0 °C. -/
def thermoMv (curve : Nat) (mc : Int) : Rat :=
  let t : Rat := (mc : Rat) / 1000
  match curve with
  | 10 => if mc ≤ 760000 then polyAt typeJLow t else polyAt typeJHigh t
  | 11 => if mc < 0 then polyAt typeKLow t else polyAt typeKHigh t + typeKExp t
  | 12 => if mc < 0 then polyAt typeTLow t else polyAt typeTHigh t
  | 13 => if mc < 0 then polyAt typeNLow t else polyAt typeNHigh t
  | _ => if mc < 0 then polyAt typeELow t else polyAt typeEHigh t

/-- Temperature in 0.001 °C of a thermocouple from its voltage in µV and the temperature of its cold junction (R158, R162). -/
def thermoTemp (curve : Nat) (uv : Rat) (cold : Int) : Int :=
  nearestMono (thermoMv curve) (uv / 1000 + thermoMv curve cold) (if curve = 10 then -210000 else -270000)

end Sys2Proof.Machine
end

