-- ==== Sys2Proof/Machine/Cross.lean ====
section
/-!
DEFINITION. Machine/Cross.lean: Crossover: moving a role from a failed unit to its spare, advancing the role's epoch
(R521), and reporting double faults (R531).
-/
namespace Sys2Proof.Machine

/-- The epoch of a role, as consumers on the control die use it (R521). -/
def epochOf (d : Dev) (role : Nat) : Nat := pairV d kHltEpoch role

/-- The epoch of a role advances by 1 (R521); the SUP pair takes the next PAIR slot (R522). -/
def advanceEpoch (role : Nat) (d : Dev) : Dev :=
  let a := addrOf kHltEpoch role
  let d := setPair a [mkPair (w32 (epochOf d role + 1))] d
  if role = 0 then { d with lift := { d.lift with pairPrio := a :: d.lift.pairPrio.filter (· != a) } } else d

/-- Changes a unit's record (R550). -/
def unitMod (u : Nat) (f : UnitSt → UnitSt) (d : Dev) : Dev :=
  { d with hlt := { d.hlt with units := vModN d.hlt.units u f } }

/-- A unit's record. -/
def unitOf (d : Dev) (u : Nat) : UnitSt := vAt d.hlt.units u (UnitSt.reset u)

/-- Adds to one of the counts of `HLT_COUNTS` (R550). -/
def hltCount (k n : Nat) (d : Dev) : Dev :=
  { d with hlt := { d.hlt with counts := vModN d.hlt.counts k fun x => (x + n) % 2 ^ 32 } }

/-- A log partition of so many sectors with so many records each, one sector always erased (R28): a record that finds the sector
being filled full goes on in the erased one, and the oldest sector is erased with all its records. Newest last. -/
def logKeep {α : Type} (sectors per : Nat) (l : List α) : List α := if (sectors - 1) * per < l.length then l.drop per else l

/-- One record in the health log of 31 sectors of 128 records (R28), framed with its sequence number. -/
def healthLogAdd (bytes : List Byte) (d : Dev) : Dev :=
  { d with hlt := { d.hlt with healthLog := logKeep 31 128 (d.hlt.healthLog ++ [bytes]), logSeq := d.hlt.logSeq + 1 } }

/-- A double fault is reported (R531): 0 supervisor, 1 engine, 2 modulator, 3 DX path, 4 pair, 5 references, 6 sensors. -/
def doubleFault (case : Nat) (d : Dev) : Dev :=
  raise 1 0xA008 (subPath 0xA) (le 1 case) { d with hlt := { d.hlt with doubleFault := true } }

/-- Ticks in 30 days (R527). -/
def ticks30d : Nat := 30 * 86400 * 1000

/-- PATH of an event about a unit (R96): the subsystem for the supervisors and single units, an engine and a group spare
at the level of a bank, a modulator and a DX path at the level of a channel. -/
def unitPath (u : Nat) : Nat :=
  if u ≤ 2 ∨ 47 ≤ u then subPath 0xA
  else if u ≤ 5 then bankPath 0xA (u - 3)
  else if u ≤ 37 then chanPath 0xA ((u - 6) / 8) (u - 6)
  else if u ≤ 41 then bankPath 0xA (u - 38)
  else chanPath 0xA 0xFF (u - 42)

/-- Ticks in the 10 min after which an abandoned Grooming pass is repeated (R533). -/
def groomWait : Nat := 600000

/-- A Grooming pass is abandoned with no change of plan, and will be repeated 10 min after the cause has ended: a handover, which
ends as it begins, or a sleep that begins (R533). -/
def groomAbandon (sleep : Bool) (d : Dev) : Dev :=
  if d.hlt.groomRun then
    let t := d.time.tick + groomWait
    { d with hlt := { d.hlt with groomRun := false, groomRepeat := some (if sleep then none else some t) } }
  else d

/-- The sleep that abandoned a Grooming pass has ended, or has been refused (R533). -/
def groomResume (d : Dev) : Dev :=
  if d.hlt.groomRepeat = some none then
    let t := d.time.tick + groomWait
    { d with hlt := { d.hlt with groomRepeat := some (some t) } }
  else d

/-- Crossover of a role from one unit to another: the failed unit goes to quarantine with one fault more, the spare
serves the role, the epoch advances, the substitution is counted and EV_HLT_XOVER raised on port 1 (R521, R527, R552).
The handover time of the event is a measured value (log entry 4). -/
def crossover (old new role : Nat) (d : Dev) : Dev :=
  let us := (Config.freeWord d.free).toNat
  let t := d.time.tick
  let d := groomAbandon false (takeFree d)
  let d := unitMod old (fun u =>
    { u with st := 2, role := 255, faults := satAdd u.faults 1 0xFFFF, replaced := some t,
             again := match u.replaced with
               | none => false
               | some r => t - r ≤ ticks30d }) d
  let d := unitMod new (fun u => { u with st := 0, role := role }) d
  let d := advanceEpoch role d
  let d := { d with hlt := { d.hlt with subs := satAdd d.hlt.subs 1 0xFFFF } }
  let d := hltCount 4 1 d
  raise 1 0xA005 (unitPath old) (le 1 old ++ le 1 new ++ le 1 role ++ le 1 0 ++ le 4 (epochOf d role) ++ le 4 us) d

end Sys2Proof.Machine
end

