-- ==== Sys2Proof/Machine/Operands.lean ====
section
/-!
DEFINITION. Machine/Operands.lean: what the blocks ask of one another: whether a domain or the field die runs, the DT of
a past tick edge, and the joining of the field die's mask frames (R120, R121, R37).
-/
namespace Sys2Proof.Machine

/-- State of a domain, coded as in `MIR_PWR` (R511). -/
def domState (d : Dev) (n : Nat) : Nat := vAt d.pwr.dom n 2

/-- A domain is ON (R486). -/
def domOn (d : Dev) (n : Nat) : Bool := domState d n == 0

/-- A receiver out of lock that has no candidate (R107). -/
def LockSt.lost : LockSt := .out 0 0

/-- The receiver is in lock (R107). -/
def LockSt.inLock : LockSt → Bool
  | .locked _ => true
  | _ => false

/-- The field die runs on FCLK, recovered from a locked downlink (R17, R25). -/
def fieldRuns (d : Dev) : Bool := d.pwr.fieldPow && d.lift.down.inLock

/-- Current is in the safe states because of a stop, F4 or the start-up hold, so that excitation is off (R128, R169). -/
def fieldStopped (d : Dev) : Bool := d.lift.stopped || 4 ≤ d.pwr.fStep

/-- Excitation is off: by a stop or step F4 (R128, R169), or while the pads of D9 are held (R502). -/
def excStopped (d : Dev) : Bool := fieldStopped d || vAt d.pwr.pads 9 false

/-- DT of a recent tick edge in ns: the recorded value, or the latest one carried back at 1 ms a tick. -/
def edgeDt (d : Dev) (t : Nat) : Nat :=
  match d.time.edges.find? fun e => e.1 = t with
  | some e => toBits 64 (e.2 / 1000000)
  | none => toBits 64 ((d.time.tickDt - ((d.time.tick - t : Nat) : Int) * 1000000000000) / 1000000)

/-- The offset from the tick's edge in MCLK periods as the field die has it (R120): a frame period is 32/5 of them (R22, R103). -/
def fieldOfs (d : Dev) : Nat := min 7999 (d.lift.frames * 32 / 5)

/-- A mask frame that a detection opens, stamped with the field die's tick and offset (R121). -/
def maskOpen (d : Dev) (mask : Nat) : MaskFrame :=
  { tick := d.lift.fTick, ofs := fieldOfs d, mask := mask, late := !fieldRuns d }

/-- A detection joins the pending frame of its urgent code or opens one (R121). -/
def urgent (code : Fin 5) (bit : Nat) (d : Dev) : Dev :=
  let f : MaskFrame := match d.lift.urg.get code with
    | some f => { f with mask := f.mask ||| 2 ^ bit }
    | none => maskOpen d (2 ^ bit)
  { d with lift := { d.lift with urg := d.lift.urg.set code (some f) } }

/-- The same for an ordinary code, where a frame it opens takes a given stamp (R121). -/
def ordinaryBy (open_ : MaskFrame) (code : Fin 8) (bit : Nat) (d : Dev) : Dev :=
  let f : MaskFrame := match d.lift.evt.get code with
    | some f => { f with mask := f.mask ||| 2 ^ bit }
    | none => open_
  { d with lift := { d.lift with evt := d.lift.evt.set code (some f) } }

/-- A detection of an ordinary code now (R121). -/
def ordinary (code : Fin 8) (bit : Nat) (d : Dev) : Dev := ordinaryBy (maskOpen d (2 ^ bit)) code bit d

/-- A detection of valve diagnostics (EVT code 7): a channel the pending frame names with another kind is held for the
next frame of the code (R121). -/
def diag (vd kind : Nat) (d : Dev) : Dev :=
  let bits := 2 ^ vd + (kind % 16) * 2 ^ (16 + 4 * vd)
  match d.lift.evt.get 7 with
  | none => { d with lift := { d.lift with evt := d.lift.evt.set 7 (some (maskOpen d bits)) } }
  | some f =>
    if bitOf f.mask vd then
      if fld f.mask (16 + 4 * vd) 4 == kind % 16 then d
      else if d.lift.diagNext.any fun p => p == (vd, kind) then d
      else { d with lift := { d.lift with diagNext := d.lift.diagNext ++ [(vd, kind)] } }
    else { d with lift := { d.lift with evt := d.lift.evt.set 7 (some { f with mask := f.mask ||| bits }) } }

/-! ## Values that cross to the field die (R109, R150, R225) -/

/-- Parameters of a measurement channel that cross in slots 24-31 (R150). -/
def afeSlotKey (key : Nat) : Bool :=
  [kAfeEnable, kAfeExcMode, kAfeExcUa, kAfeExcV, kAfePol, kAfeGain, kAfeRate, kAfeFilter, kAfeNotch, kAfeBurnout].contains key

/-- Parameters of a dielectric channel that cross in slots 32-35 (R225). -/
def dlxSlotKey (key : Nat) : Bool :=
  [kDlxEnable, kDlxFStart, kDlxPoints, kDlxSpacing, kDlxAmplMv, kDlxAvg, kDlxGrain, kDlxTempChan, kDlxFillMin,
    kDlxFillQuorum].contains key

/-- Front-end and dielectric parameters that the field die works with: all but those of streams and of the sweep cycle. -/
def fieldSide (addr : Nat) : Bool :=
  let key := keyOf addr
  match addr / 2 ^ 20 with
  | 2 => key ≤ kAfeBurnout && key != kAfeStream && key != kAfeStreamDiv
  | 3 => key ≤ kDlxUserCal && key != kDlxStream && key != kDlxStreamDiv
  | _ => false

/-- Frames that carry a value: six bytes of a BLOB in each, or one (R225; of a BLOB of the front end by the same layout). -/
def fieldFrames (addr : Nat) : Nat :=
  match findDef addr with
  | some p => match p.ty with
    | .blob n => ceilDiv n 6
    | _ => 1
  | none => 1

/-- A field-side value without a boundary of its own goes out. -/
def cfgSend (addr : Nat) (d : Dev) : Dev :=
  if fieldSide addr then
    { d with lift := { d.lift with cfg := (d.lift.cfg.filter fun e => e.1 != addr) ++ [(addr, fieldFrames addr)] } }
  else d

/-- Every value that the field die lost in a reset goes out again, in the order of the parameters' writes: those of the front end and
of dielectric measurement, and the modes of the field pins (R225, R262). -/
def cfgAgain (d : Dev) : List (Nat × Nat) :=
  (d.cmd.params.filter fun p => fieldSide p.1 || keyOf p.1 == kFioMode).map fun p => (p.1, fieldFrames p.1)

/-- A value of a measurement channel, or its user table, has not yet reached the field die. -/
def afeAwaits (d : Dev) (ch : Nat) : Bool :=
  d.lift.cfg.any fun e => e.1 / 2 ^ 20 == 2 &&
    (if keyOf e.1 = kAfeTable then pget d kAfeCurve ch == 60 + instOf e.1 else instOf e.1 == ch)

/-- A value of a dielectric channel, or its user calibration, has not yet reached the field die. -/
def dlxAwaits (d : Dev) (n : Nat) : Bool :=
  d.lift.cfg.any fun e => e.1 / 2 ^ 20 == 3 &&
    (if keyOf e.1 = kDlxUserCal then pget d kDlxGrain n == 32 + instOf e.1 else instOf e.1 == n)

/-- The bits set in a mask, lowest first, below `n`. -/
def bitsOf (n mask : Nat) : List Nat := (List.range n).filter fun k => bitOf mask k

/-- Stamp of a field event: DT of its tick's edge and its offset (R34, R35, R120). -/
def stampDt (d : Dev) (f : MaskFrame) : Nat := (edgeDt d f.tick + 125 * f.ofs) % 2 ^ 64

end Sys2Proof.Machine
end

