-- ==== Sys2Proof/Machine/Afe.lean ====
section
/-!
DEFINITION. Machine/Afe.lean: the sensor front end (04): curves and compensation, the result word, settling, breaks,
the decimation filter, the group spare, blanking, guards, and the commands of group 0x12.
-/
namespace Sys2Proof.Machine

/-! ## Settings of a channel -/

/-- Conversion period in µs of `AFE_RATE` (R141). -/
def afePeriodUs (rate : Nat) : Nat :=
  [100000, 50000, 20000, 10000, 5000, 2000, 1000, 500, 250, 125].getD rate 20000

/-- Settling time in µs of a channel's filter and notch (R145). -/
def afeSettleUs (d : Dev) (ch : Nat) : Nat :=
  pget d kAfeFilter ch * afePeriodUs (pget d kAfeRate ch) +
    (if pget d kAfeNotch ch = 50 then 60000 else if pget d kAfeNotch ch = 60 then 50000 else 0)

/-- The group of a channel (R138). -/
def afeGroup (ch : Fin 32) : Fin 4 := ⟨ch.val / 8, by omega⟩

def afeMod (ch : Fin 32) (f : AfeCh → AfeCh) (d : Dev) : Dev :=
  { d with afe := { d.afe with ch := vMod d.afe.ch ch f } }

def afeGrpMod (g : Fin 4) (f : AfeGroup → AfeGroup) (d : Dev) : Dev :=
  { d with afe := { d.afe with grp := vMod d.afe.grp g f } }

/-- Channel AI(28 + n) is in dielectric use as DXn: `DLX_ENABLE[n]` is not 0 (05). -/
def dielectricUse (d : Dev) (ch : Nat) : Bool := 28 ≤ ch && pget d kDlxEnable (ch - 28) != 0

/-- A thermocouple curve (R158). -/
def isThermo (curve : Nat) : Bool := 10 ≤ curve && curve ≤ 14

/-- Combinations of hook-up, curve and excitation that R139 allows; R140 asks fixed polarity of loop mode. A sense channel, for
which the table has no row, may have every curve and mode (DESIGN CHOICE, log entry 139). -/
def afeCombo (d : Dev) (ch : Nat) : Bool :=
  let w := pget d kAfeWiring ch
  let c := pget d kAfeCurve ch
  let e := pget d kAfeExcMode ch
  let user := 60 ≤ c && c ≤ 63
  let rtd := c == 1 || c == 2 || c == 3 || user
  let refc := pget d kAfeRefChan ch
  (e != 3 || pget d kAfePol ch == 1) &&
  (match w with
   | 0 => (rtd || c == 40) && e == 1
   | 1 => rtd && e == 1
   | 2 => ((rtd || c == 40) && e == 1) || ((isThermo c || c == 0) && e == 0) || ((c == 30 || c == 0) && e == 2) ||
          (c == 20 && (e == 3 || e == 0)) || ((c == 0 || c == 50 || user) && (e == 3 || e == 0))
   | 3 => c == 30 && e == 2 && refc < 32 && refc / 8 == ch / 8 && pget d kAfeWiring refc == 5 &&
          pget d kAfeEnable refc == 1
   | 4 => (c == 0 || c == 21 || c == 50 || user) && (e == 3 || e == 0)
   | 5 => true
   | _ => false)

/-- Lead modes a hook-up allows (R151). -/
def afeLeadOk (d : Dev) (ch : Nat) : Bool :=
  let w := pget d kAfeWiring ch
  match pget d kAfeLeadMode ch with
  | 0 => true
  | 1 => w == 1
  | _ => w == 0 || w == 1

/-- The channel a channel's results depend on (R162, R160, R139): cold junction, temperature or sense channel. -/
def afeDep (d : Dev) (ch : Nat) : Option Nat :=
  let c := pget d kAfeCurve ch
  let x :=
    if isThermo c then pget d kAfeCjChan ch
    else if c == 50 then pget d kAfeTempChan ch
    else if pget d kAfeWiring ch == 3 then pget d kAfeRefChan ch
    else 255
  if x < 32 then some x else none

/-- A dependency R164 allows: not on itself, not on a channel that depends on another, and not where an enabled channel depends
on it already. -/
def afeDepOk (d : Dev) (ch : Nat) : Bool :=
  match afeDep d ch with
  | none => true
  | some x => x != ch && (afeDep d x).isNone &&
      (List.range 32).all fun y => y == ch || pget d kAfeEnable y != 1 || afeDep d y != some ch

/-- Whether a channel may be enabled with its settings (R139, R151, R164). -/
def afeEnableRefusal (d : Dev) (ch : Nat) : Option Refuse :=
  firstRefusal [
    (bitOf d.pwr.excFail ch && pget d kAfeExcMode ch != 0, refused 0x94),
    (bitOf d.pwr.modFail ch && (vAt d.afe.ch ch AfeCh.reset).sub == .dead, refused 0x94),
    (!(afeCombo d ch && afeLeadOk d ch), refused 0x20), (!afeDepOk d ch, refused 0x21)]

/-! ## Curves (R158-R163) -/

/-- Input voltage in µV of a filter output: full scale is 2.5 V / gain, times 5 behind the divider, or half the
excitation / gain for a bridge (R149). -/
def afeUv (d : Dev) (ch : Nat) (raw : Int) : Rat :=
  let fs : Nat :=
    if pget d kAfeExcMode ch = 2 then pget d kAfeExcV ch * 500
    else if pget d kAfeWiring ch = 4 then 12500000
    else 2500000
  (raw : Rat) * (fs : Rat) / ((pget d kAfeGain ch : Nat) : Rat) / 8388608

/-- The lead resistance subtracted, in mΩ (R151, R152). -/
def afeLead (d : Dev) (ch : Fin 32) : Nat :=
  match pget d kAfeLeadMode ch with
  | 1 => (d.afe.ch.get ch).rLead.getD 0
  | 2 => pget d kAfeLeadMohm ch
  | _ => 0

/-- Sensor resistance in Ω: voltage over excitation current, less the leads (R152, R158). -/
def afeOhm (d : Dev) (ch : Fin 32) (raw : Int) : Rat :=
  let i := pget d kAfeExcUa ch
  afeUv d ch raw / ((i : Nat) : Rat) - ((afeLead d ch : Nat) : Rat) / 1000

/-- Valid range of a curve's value, where R158 states one in the value's unit. -/
def curveRange (curve : Nat) : Option (Int × Int) :=
  match curve with
  | 0 => some (-8388608, 8388607)
  | 1 => some (-200000, 850000)
  | 2 => some (-200000, 850000)
  | 3 => some (-60000, 180000)
  | 10 => some (-210000, 1200000)
  | 11 => some (-270000, 1372000)
  | 12 => some (-270000, 400000)
  | 13 => some (-270000, 1300000)
  | 14 => some (-270000, 1000000)
  | 20 => some (3600, 21000)
  | 21 => some (-500, 10500)
  | 50 => some (0, 100000)
  | _ => none

/-- Points of a user table: input and output, as rising inputs (R161). -/
def tablePoints (d : Dev) (t : Nat) : List (Int × Int) :=
  let ws := pwords d (addrOf kAfeTable t)
  let n := (ws.headD 0).toNat
  (List.range (min n 64)).map fun k => ((ws.getD (1 + 2 * k) 0).toInt, (ws.getD (2 + 2 * k) 0).toInt)

/-- Linear interpolation in a user table, and where the input was clipped the end it lay beyond, true for the last point
(R161). -/
def tableEval : List (Int × Int) → Int → Int × Option Bool
  | [], _ => (0, none)
  | [p], x => (p.2, if x = p.1 then none else some (p.1 < x))
  | p :: q :: rest, x =>
    if x < p.1 then (p.2, some false)
    else if x ≤ q.1 then (p.2 + divRound ((x - p.1) * (q.2 - p.2)) (q.1 - p.1), none)
    else tableEval (q :: rest) x

/-- A user table that R161 allows: 2 to 64 points with strictly rising inputs. -/
def tableOk (ws : List Word) : Bool :=
  let n := (ws.headD 0).toNat
  let xs := (List.range (min n 64)).map fun k => (ws.getD (1 + 2 * k) 0).toInt
  2 ≤ n && n ≤ 64 && (xs.zip (xs.drop 1)).all fun p => p.1 < p.2

/-- The temperature in 0.001 °C that a thermocouple or a humidity curve takes from another channel. -/
def afeDepTemp (d : Dev) (ch : Fin 32) : Int :=
  match afeDep d ch with
  | some x => match vAt d.afe.ch x AfeCh.reset with
    | c => match c.word with
      | some (w, _) => sext 24 (w.toNat / 256)
      | none => 0
  | none => if isThermo (pget d kAfeCurve ch) then pgetI d kAfeCjFixed ch else Config.tempNone

/-- The value of the sense channel of a 6-wire bridge (R139). -/
def afeSense (d : Dev) (ch : Fin 32) : Int :=
  match afeDep d ch with
  | some x => match (vAt d.afe.ch x AfeCh.reset).word with
    | some (w, _) => sext 24 (w.toNat / 256)
    | none => 0
  | none => 0

/-- The limit a value is clipped to and the side it lay beyond, true for the high one. -/
def clipped (lo hi x : Int) : Int × Option Bool :=
  if x < lo then (lo, some false) else if hi < x then (hi, some true) else (x, none)

/-- The curve's value of a filter output before user gain and offset, and the side it was clipped on (R158-R161, R184). How the
sense channel enters a 6-wire bridge's value is left open (log entry 138). -/
def curveValue (d : Dev) (ch : Fin 32) (raw : Int) : Int × Option Bool :=
  let c := pget d kAfeCurve ch
  let uv := afeUv d ch raw
  let v : Int × Option Bool :=
    match c with
    | 0 => (raw, none)
    | 1 => (ptTemp 100 (afeOhm d ch raw), none)
    | 2 => (ptTemp 1000 (afeOhm d ch raw), none)
    | 3 => (niTemp (afeOhm d ch raw), none)
    | 20 => (ratRound (uv / 100), none)
    | 21 => (ratRound (uv / 1000), none)
    | 30 =>
      if pget d kAfeWiring ch = 3 then (Config.bridge6 raw (pget d kAfeGain ch) (afeSense d ch), none)
      else (ratRound ((raw : Rat) * 500000 / ((pget d kAfeGain ch : Nat) : Rat) / 8388608), none)
    | 40 =>
      let ws := pwords d (addrOf kAfeCoef ch)
      let r := afeOhm d ch raw
      let side := if r < 100 then some false else if 48000 < r then some true else none
      (steinhart (ws.getD 0 0) (ws.getD 1 0) (ws.getD 2 0) (max 100 (min 48000 r)), side)
    | 50 =>
      let ws := pwords d (addrOf kAfeCoef ch)
      let v := uv / 1000000
      let t := (afeDepTemp d ch : Rat) / 1000
      (ratRound (1000 * (f32 (ws.getD 0 0) + f32 (ws.getD 1 0) * v + f32 (ws.getD 2 0) * v * v +
        f32 (ws.getD 3 0) * (t - 25) * v)), none)
    | _ =>
      if isThermo c then (thermoTemp c uv (afeDepTemp d ch), none)
      else tableEval (tablePoints d (c - 60)) raw
  match curveRange c with
  | none => v
  | some (lo, hi) => clipped lo hi v.1

/-- The value field: user gain and offset (R163). Of a value that 24 bits do not hold the spec states nothing (log entry 4). -/
def userValue (d : Dev) (ch : Fin 32) (x : Int) : Int :=
  let v := divRound (x * (pget d kAfeUserGain ch : Nat)) 16777216 + pgetI d kAfeUserOfs ch
  if -8388608 ≤ v ∧ v ≤ 8388607 then v else Config.valueOver v

/-! ## The result word (R165-R168) -/

/-- Status codes of R166. -/
def sOk := 0
def sSettling := 1
def sBroken := 2
def sOver := 3
def sBlanked := 4
def sStale := 5
def sSubst := 6
def sUncal := 7

/-- A result word of VALUE, STATUS and SEQ (R165). -/
def resultWord (value : Int) (status seq : Nat) : Word :=
  w32 (toBits 24 value * 256 + (status % 16) * 16 + seq % 16)

/-- STATUS of a result word. -/
def statusOf (w : Word) : Nat := fld w.toNat 4 4

/-- SEQ of a result word. -/
def seqOf (w : Word) : Nat := w.toNat % 16

/-- VALUE of a result word. -/
def valueOf (w : Word) : Int := sext 24 (w.toNat / 256)

/-- A result word with another status. -/
def withStatus (w : Word) (status : Nat) : Word := resultWord (valueOf w) status (seqOf w)

/-- Precedence of a status: the first that applies is reported (R167). -/
def statusRank (s : Nat) : Nat := [7, 3, 0, 2, 6, 1, 5, 4].getD s 8

/-- The worse of two statuses by the order of R167. -/
def worse (a b : Nat) : Nat := if statusRank a ≤ statusRank b then a else b

/-- A blanking input is active (R174). -/
def blkActive (d : Dev) (k : Nat) : Bool :=
  (vAt d.afe.blk k BlkSt.reset).level == bitOf (pget d kAfeBlkPol 0) k

/-- A group is halted because an input that blanks it has been active too long (R176). -/
def grpStuck (d : Dev) (g : Nat) : Bool :=
  [0, 1].any fun k => bitOf (pget d kAfeBlkSel g) k && (vAt d.afe.blk k BlkSt.reset).stuck

/-- A channel's excitation is off, so that it delivers no result (R169). -/
def excLost (d : Dev) (ch : Fin 32) : Bool := (d.afe.ch.get ch).excOff && pget d kAfeExcMode ch != 0

/-- A channel delivers results: enabled, not dead for want of a spare, excited and not halted. -/
def afeDelivers (d : Dev) (ch : Fin 32) : Bool :=
  let c := d.afe.ch.get ch
  c.on && c.sub != .dead && !excLost d ch && !grpStuck d (afeGroup ch)

/-- What the field die sees of the channel a result depends on (R164). -/
def depStatus (d : Dev) (ch : Fin 32) : Option (Nat × Nat) :=
  match afeDep d ch with
  | none => none
  | some x =>
    if h : x < 32 then
      let c := d.afe.ch.get ⟨x, h⟩
      if !afeDelivers d ⟨x, h⟩ then some (x, sStale)
      else match c.word with
        | none => some (x, sSettling)
        | some (w, _) => some (x, statusOf w)
    else none

/-- Results hold the last settled value while the spare is not yet settled (R156). -/
def subHeld (c : AfeCh) : Bool :=
  match c.sub with
  | .declared => true
  | .settling _ => true
  | _ => false

/-- The substitution moves on at a conversion end (R156): the spare is switched in and settles, then is fresh. -/
def subNext (settle period : Nat) : SubStep → SubStep
  | .declared => .settling settle
  | .settling us => if us ≤ period then .calibrating else .settling (us - period)
  | s => s

/-! ## The decimation filter (R141, R142, R144, R174, R175) -/

/-- The setting of a channel in the layout of R150. -/
def afeSetting (d : Dev) (ch : Nat) : Nat :=
  b2n (pget d kAfeEnable ch == 1) * 2 ^ 21 + pget d kAfeExcMode ch % 4 * 2 ^ 19 + b2n (pget d kAfePol ch == 1) * 2 ^ 18 +
    b2n (pget d kAfeExcV ch == 5000) * 2 ^ 17 + pget d kAfeExcUa ch / 50 % 64 * 2 ^ 11 + Nat.log2 (pget d kAfeGain ch) % 8 * 2 ^ 8 +
    pget d kAfeRate ch % 16 * 2 ^ 4 + b2n (pget d kAfeFilter ch == 4) * 2 ^ 3 +
    (if pget d kAfeNotch ch = 50 then 1 else if pget d kAfeNotch ch = 60 then 2 else 0) * 2 + b2n (pget d kAfeBurnout ch == 1)

/-- A binomial coefficient n + k - 1 over k - 1 for the orders 3 and 4. -/
def binomUp (order n : Nat) : Nat := if order = 3 then (n + 2) * (n + 1) / 2 else (n + 3) * (n + 2) * (n + 1) / 6

/-- Weight of the sample `n` MCLK periods before the newest in a sinc filter of an order and decimation ratio: `order` running
sums of `D` samples, one after the other (R141). -/
def sincWeight (order D n : Nat) : Nat :=
  let signs : List Int := if order = 3 then [1, -3, 3, -1] else [1, -4, 6, -4, 1]
  (signs.zipIdx.foldl (fun a c => a + (if n < c.2 * D then 0 else c.1 * (binomUp order (n - c.2 * D) : Int))) 0).toNat

/-- A blanking input's level in an MCLK period: as its latest change up to it left it. -/
def levelAt (b : BlkSt) (t : Nat) : Bool :=
  match b.edges.find? fun e => e.1 ≤ t with
  | some e => e.2
  | none => match b.edges.getLast? with
    | some e => !e.2
    | none => b.level

/-- The sampling switches of a group are open in an MCLK period (R174). -/
def blanked (d : Dev) (g : Nat) (t : Nat) : Bool :=
  [0, 1].any fun k => bitOf (pget d kAfeBlkSel g) k &&
    levelAt (vAt d.afe.blk k BlkSt.reset) t == bitOf (pget d kAfeBlkPol 0) k

/-- Excitation is reversed at the middle of each period (R144). -/
def excAlternates (d : Dev) (ch : Nat) : Bool := pget d kAfePol ch == 0 && pget d kAfeExcMode ch != 0

/-- A thermocouple has the pulse test after each window (R181). -/
def pulseTested (d : Dev) (ch : Nat) : Bool :=
  isThermo (pget d kAfeCurve ch) && pget d kAfeExcMode ch == 0 && pget d kAfeBurnout ch == 1

/-- The second half of the present period is a reference measurement of the substitute's calibration: one half in 16 (R156). -/
def refHalf (c : AfeCh) : Bool := c.sub == .calibrating && c.refCnt % 16 == 14

/-- The sample at a place of a window that begins in an MCLK period is taken: not in the dead time of a half (R144), not in the
40 µs around a pulse test (R181), not blanked (R174) and not in a reference half (R156). -/
def sampleTaken (d : Dev) (ch : Fin 32) (c : AfeCh) (D start i : Nat) : Bool :=
  !(excAlternates d ch && i % (D / 2) < 32) && !(pulseTested d ch && i < 320) && !(refHalf c && D / 2 ≤ i) &&
    !blanked d (afeGroup ch) (start + i)

/-- One sample joins a part of the filter. -/
def partAdd (taken bit : Bool) (weight : Nat) (p : FiltPart) : FiltPart :=
  { sum := if taken then (if bit then p.sum + weight else p.sum - weight) else p.sum
    taken := if taken then p.taken + weight else p.taken
    all := p.all + weight }

/-- What bits that begin at a place of the window give the place `seg` windows behind the newest of the filter. -/
def partOf (order D seg : Nat) (taken : Nat → Bool) (bits : List Bool) (from_ : Nat) : FiltPart :=
  (bits.zipIdx from_).foldl (fun p b => partAdd (taken b.2) b.1 (sincWeight order D (seg * D + (D - 1 - b.2))) p)
    { sum := 0, taken := 0, all := 0 }

/-- The parts of a window: its two halves, each at every place of the filter. -/
def windowParts (order D : Nat) (taken : Nat → Bool) (bits : List Bool) : List (List FiltPart) :=
  let half (xs : List Bool) (from_ : Nat) := (List.range order).map fun s => partOf order D s taken xs from_
  [half (bits.take (D / 2)) 0, half (bits.drop (D / 2)) (D / 2)]

/-- The filter output in units of full scale / 2^23, where a sample was taken: each half counts with the sum of its weights, its
samples normalised by the weights of those taken (R175; log entry 142). -/
def filterOut (hist : List (List (List FiltPart))) : Option Rat :=
  let parts := hist.zipIdx.flatMap fun w => w.1.filterMap fun h => h[w.2]?
  let live := parts.filter fun p => p.taken != 0
  let den : Nat := live.foldl (fun (a : Nat) p => a + p.all) 0
  if den = 0 then none
  else some (8388608 * live.foldl (fun (a : Rat) p => a + (p.sum : Rat) * (p.all : Rat) / (p.taken : Rat)) 0 / (den : Rat))

/-! ## Windows (R143) -/

/-- The tick edge at which a channel's next window starts: the next, or the present one at an edge, whose number is a multiple of
the period. -/
def nextWindow (d : Dev) (ch : Nat) (atEdge : Bool) : Nat :=
  let n := max 1 (afePeriodUs (pget d kAfeRate ch) / 1000)
  let t := d.lift.fTick + b2n (!atEdge)
  (t + n - 1) / n * n

/-- A channel's latest window ended inside the present tick. -/
def insideTick (d : Dev) (c : AfeCh) : Bool := c.on && c.winTick == d.lift.fTick && 1 < c.winCnt

/-- Window ends of the present tick that have passed, the one at its edge among them. -/
def endsSoFar (d : Dev) (c : AfeCh) : Nat :=
  if c.winTick = d.lift.fTick then c.winCnt else b2n (c.winFrom == d.lift.fTick)

/-- A window of the channel ends now: the µs since the tick's edge (R143). Periods of 1 ms and more end at edges that are multiples
of the period; shorter ones divide the tick. -/
def windowEnds (d : Dev) (ch : Nat) (c : AfeCh) : Option Nat :=
  let p := afePeriodUs (pget d kAfeRate ch)
  let t := d.lift.fTick
  if 1000 ≤ p then (if t % (p / 1000) = 0 ∧ c.winFrom + p / 1000 ≤ t then some 0 else none)
  else
    let k := endsSoFar d c
    if c.winFrom ≤ t ∧ k < 1000 / p then some (k * p) else none

/-- The window has ended. -/
def windowPass (d : Dev) (ch : Nat) (c : AfeCh) : AfeCh :=
  { c with
    winFrom := if 1000 ≤ afePeriodUs (pget d kAfeRate ch) then d.lift.fTick else c.winFrom
    winTick := d.lift.fTick
    winCnt := endsSoFar d c + 1
    abandoned := false
    swapped := false }

/-- The tick in which the channel's present window ends (R143). -/
def windowTag (d : Dev) (ch : Nat) (c : AfeCh) : Nat :=
  let p := afePeriodUs (pget d kAfeRate ch)
  let t := d.lift.fTick
  if 1000 ≤ p then (t / (p / 1000) + 1) * (p / 1000)
  else if endsSoFar d c < 1000 / p then t
  else t + 1

/-- The bits of a window with those of the second half inverted after the swap (R144). -/
def swapBits (D : Nat) (swapped : Bool) (bits : List Bool) : List Bool :=
  bits.zipIdx.map fun b => if swapped && D / 2 ≤ b.2 then !b.1 else b.1

/-- A window's samples pass the filter (R141, R142, R175): the channel with its new history, and the filter output. A substitute
that is calibrated applies its fit (R156); the output of the notch, whose coefficients the spec does not give, is a free value
(log entry 143). -/
def filterWindow (d : Dev) (ch : Fin 32) (c : AfeCh) (ofs : Nat) (smp : AfeSample) : AfeCh × AfeWindow :=
  let order := pget d kAfeFilter ch
  let D := afePeriodUs (pget d kAfeRate ch) * 8
  let taken := sampleTaken d ch c D (d.lift.fTick * 8000 + ofs * 8 - D)
  let bits := swapBits D c.swapped (smp.bits.take D)
  let count := ((List.range bits.length).filter taken).length
  let ref := rdiv ((bits.drop (D / 2)).foldl (fun (a : Rat) b => if b then a + 8388608 else a - 8388608) 0) (D / 2 : Nat)
  let hist := (windowParts order D taken bits :: c.hist).take order
  let fitted (x : Rat) : Rat := match c.sub == .calibrated, c.fit with
    | true, some g => g.1 * x + g.2
    | _, _ => x
  let raw : Option Int := match filterOut hist with
    | none => none
    | some x => some (if pget d kAfeNotch ch = 0 then ratRound (fitted x) else sext 24 (Config.freeWord d.free).toNat)
  ({ c with
      hist := hist
      refCnt := if c.sub == .calibrating then c.refCnt + 2 else c.refCnt
      refs := if refHalf c then ref :: c.refs else c.refs },
   { raw := if count = 0 then none else raw
     missed := D - count
     len := D
     overWindow := smp.overWindow
     pulseRise := smp.pulseRise
     fault := smp.fault })

/-- Filter outputs of the last 20 ms, and the latest one before where there is none. -/
def recentWith (t : Nat) (raw : Option Int) (l : List (Nat × Int)) : List (Nat × Int) :=
  match raw with
  | some r => (t, r) :: l.filter fun e => t < e.1 + 20
  | none => l

/-! ## Results -/

/-- The break condition a window shows, with its cause (R179-R182), as far as the hook-up has the detection. -/
def breakCond (d : Dev) (ch : Fin 32) (w : AfeWindow) : Option Nat :=
  let mode := pget d kAfeExcMode ch
  let shows (k : Fin 5) : Option Nat := if w.fault == some k then some k.val else none
  if pget d kAfeCurve ch = 20 then
    (match w.raw with
     | some raw => if ratRound (afeUv d ch raw / 100) < 3600 then some 2 else none
     | none => (d.afe.ch.get ch).brk)
  else if pulseTested d ch then (if w.pulseRise then some 1 else none)
  else if mode = 1 then shows 0
  else if mode = 2 then (if (shows 3).isSome then shows 3 else shows 4)
  else if pget d kAfeWiring ch = 5 then shows 4
  else none

/-- The side on which a window is over range, true for the high one: beyond full scale, or beyond the curve's range (R184).
A window without a sample shows nothing. -/
def overSide (d : Dev) (ch : Fin 32) (w : AfeWindow) : Option Bool :=
  let whole := pget d kAfeWiring ch = 4 || isThermo (pget d kAfeCurve ch)
  match w.raw with
  | none => none
  | some raw =>
    if raw < -8388608 then some false
    else if 8388607 < raw then some true
    else if whole && w.overWindow then some (0 ≤ raw)
    else (curveValue d ch raw).2

/-- Status and value of a window by the channel's own state after settling and break have been judged (R147, R166, R167, R175,
R184). `held` says that the value is the last settled one. -/
def ownResult (d : Dev) (ch : Fin 32) (w : AfeWindow) (c : AfeCh) (held settling : Bool) : Nat × Int :=
  let own :=
    if c.brk.isSome then sBroken
    else if (overSide d ch w).isSome && !held then sOver
    else if settling then sSettling
    else if c.uncal then sUncal
    else if c.sub != .none && c.sub != .calibrated then sSubst
    else if pget d kAfeBlkFrac (afeGroup ch) * w.len < 100 * w.missed || w.raw.isNone then sBlanked
    else sOk
  match w.raw with
  | none => (own, c.settled)
  | some raw =>
    if own = sBroken ∨ own = sSettling ∨ held then (own, c.settled)
    else (own, userValue d ch (curveValue d ch (clampI (-8388608) 8388607 raw)).1)

/-- The result as the channel it depends on leaves it (R164). -/
def composeResult (d : Dev) (ch : Fin 32) (w : AfeWindow) (c : AfeCh) (held settling : Bool) : Nat × Int :=
  let own := ownResult d ch w c held settling
  match depStatus d ch with
  | none => own
  | some (_, s) =>
    if s = sBroken ∨ s = sStale ∨ s = sSettling then (if own.1 = sOver then s else worse own.1 s, c.settled)
    else if s = sOver ∨ s = sUncal ∨ s = sSubst then (worse own.1 s, own.2)
    else own

/-- The dependency's part in a result (R164): its fault, and whether that makes a result non-OK which is OK by itself. -/
def depBlame (d : Dev) (ch : Fin 32) (own final : Nat) : Option (Nat × Nat × Bool) :=
  match depStatus d ch with
  | none => none
  | some (x, s) => if s = sOk ∨ s = sBlanked then none else some (x, s, own == sOk && final != sOk)

/-- A channel restarts: its filter history is discarded and settling begins (R145). -/
def afeRestart (ch : Fin 32) (d : Dev) : Dev :=
  let us := afeSettleUs d ch
  let from_ := nextWindow d ch (!insideTick d (d.afe.ch.get ch))
  afeMod ch (fun c => { c with settleUs := us, hist := [], recent := [], restart := false, winFrom := from_ }) d

/-- The settings of R150 as they take effect: a change of one that R145 names, which the burnout current is not, is a restart of a
channel that converts. -/
def afeSettings (ch : Fin 32) (d : Dev) : Dev :=
  let new := afeSetting d ch
  let c := d.afe.ch.get ch
  let d := afeMod ch (fun c => { c with setting := new }) d
  if c.on && c.setting / 2 != new / 2 then afeRestart ch d else d

/-- What the block does when one of its parameters takes effect: enabling starts and stops the channel, and the settings
of R145 discard the filter history. -/
def afeHook (addr : Nat) (d : Dev) : Dev :=
  let key := keyOf addr
  if key = kAfeBlkPol then
    let p := pget d kAfeBlkPol 0
    { d with afe := { d.afe with blk := Vector.ofFn fun k =>
      let b := d.afe.blk.get k
      { b with stuck := b.stuck && b.level == bitOf p k } } }
  else if h : instOf addr < 32 then
    let ch : Fin 32 := ⟨instOf addr, h⟩
    if key = kAfeEnable then
      if pget d kAfeEnable ch = 1 then
        if (d.afe.ch.get ch).on then d
        else
          let d := afeSettings ch d
          let d := afeMod ch (fun c =>
            { c with on := true, brk := none, abandoned := false, leads := [], rLead := none, leadNext := none,
                     leadTurn := false, shadow := 0, excOff := excStopped d, word := none, depWhy := none }) d
          afeRestart ch d
      else afeSettings ch (afeMod ch (fun c => { c with on := false, word := none, swapped := false }) d)
    else if [kAfeExcMode, kAfeExcUa, kAfeExcV, kAfePol, kAfeGain, kAfeRate, kAfeFilter, kAfeNotch, kAfeBurnout].contains key then
      afeSettings ch d
    else d
  else d

/-- A channel converts: enabled, its settings on a field die that runs, and not in dielectric use. -/
def afeConverts (d : Dev) (ch : Fin 32) : Bool :=
  (d.afe.ch.get ch).on && fieldRuns d && domOn d 9 && !dielectricUse d ch && !afeAwaits d ch

/-- The end of a conversion window (R143): the result word is formed and placed in the channel's uplink slot, and the
settings that wait for this conversion end take effect. An abandoned window gives no second result (R180). -/
def conversionEnd (ch : Fin 32) (smp : AfeSample) (d : Dev) : Dev :=
  let c0 := d.afe.ch.get ch
  match (if afeConverts d ch then windowEnds d ch c0 else none) with
  | none => d
  | some ofs =>
    let settings (again : Bool) (d : Dev) : Dev :=
      boundary afeHook (fun w => w.bnd == .convEnd ch) (when again (afeRestart ch) d)
    if c0.abandoned then settings c0.restart (afeMod ch (windowPass d ch) d)
    else
      let (c, w) := filterWindow d ch c0 ofs smp
      let d := when (pget d kAfeNotch ch != 0) takeFree d
      let c := windowPass d ch c
      let period := afePeriodUs (pget d kAfeRate ch)
      let cond := breakCond d ch w
      let again := (c.brk.isSome && cond.isNone) || c.restart
      let began := c.brk.isNone && cond.isSome
      let switched := c.sub == .declared
      let c1 : AfeCh :=
        { c with
          seq := (c.seq + 1) % 16
          brk := cond
          settleUs := if again then afeSettleUs d ch else c.settleUs - period
          rLead := match c.leadNext with
            | some r => some r
            | none => c.rLead
          leadNext := none
          hist := if switched then [] else c.hist
          refCnt := if switched then 0 else c.refCnt
          refs := if switched then [] else c.refs
          sub := subNext (afeSettleUs d ch) period c.sub
          recent := recentWith d.lift.fTick w.raw c.recent }
      let held := subHeld c1
      let settling := again || c1.settleUs != 0 || (pget d kAfeLeadMode ch = 1 && c1.rLead.isNone)
      let d1 := afeMod ch (fun _ => c1) d
      let own := ownResult d1 ch w c1 held settling
      let r := composeResult d1 ch w c1 held settling
      let fresh := r.1 ≠ sBroken ∧ r.1 ≠ sStale ∧ r.1 ≠ sSettling ∧ settling = false ∧ held = false
      let word := resultWord r.2 r.1 c1.seq
      let d2 := afeMod ch (fun _ =>
        { c1 with
          settled := if fresh then r.2 else c1.settled
          overHigh := (overSide d1 ch w).getD false
          depWhy := depBlame d1 ch own.1 r.1
          word := if afeDelivers d1 ch then some (word, d.lift.fTick) else none
          wordOfs := ofs }) d
      let code3 := pulseTested d ch || cond == some 0
      settings again (when (began && code3 && afeDelivers d1 ch) (urgent 3 ch) d2)

/-- A current source at compliance, or a bridge whose excitation lead breaks, abandons the conversion and sends BROKEN at once,
tagged with the tick of the abandoned window (R179, R180). Urgent code 3 is the current source's. -/
def complianceBreak (ch : Fin 32) (d : Dev) : Dev :=
  let c := d.afe.ch.get ch
  let mode := pget d kAfeExcMode ch
  if !(afeConverts d ch && (mode == 1 || mode == 2) && !c.excOff && c.brk.isNone) then d
  else
    let t := windowTag d ch c
    let seq := (c.seq + 1) % 16
    let sends := afeDelivers d ch
    when (mode == 1 && sends) (urgent 3 ch) (afeMod ch (fun c =>
      { c with
        brk := some (if mode = 1 then 0 else 3)
        seq := seq
        abandoned := true
        depWhy := none
        word := if sends then some (resultWord c.settled sBroken seq, t) else none
        wordOfs := 0 }) d)

/-- ASQ reverses the input pair at the middle of a period, and with it the excitation where it alternates (R144). -/
def polaritySwap (ch : Fin 32) (d : Dev) : Dev :=
  if (d.afe.ch.get ch).on && fieldRuns d then afeMod ch (fun c => { c with swapped := true }) d else d

/-- The excitation of a channel is reversed now (R144). -/
def excReversed (d : Dev) (ch : Fin 32) : Bool := (d.afe.ch.get ch).swapped && excAlternates d ch

/-! ## The group spare (R154-R157) -/

/-- The unit of R550 that is a group's spare (R527). -/
def spareUnit (d : Dev) (g : Fin 4) : Nat := (d.afe.grp.get g).spare.getD (38 + g)

/-- The modulator of a channel is declared faulty: the group's spare takes over, or the channel delivers nothing more
where the spare is not free or Patrol is lost (R156, R157, R516, R531). -/
def modulatorFault (ch : Fin 32) (d : Dev) : Dev :=
  let g := afeGroup ch
  let grp := d.afe.grp.get g
  let c := d.afe.ch.get ch
  if c.sub == .declared || c.sub == .dead then d
  else if grp.serves.isNone && !grp.unavailable && !d.hlt.patrolLost then
    let new := spareUnit d g
    let d := crossover (c.conv.getD (6 + ch)) new (3 + g) d
    let d := afeGrpMod g (fun x => { x with serves := some ⟨ch.val % 8, by omega⟩ }) d
    afeMod ch (fun c => { c with sub := .declared, conv := some new, shadow := 0 }) d
  else
    let d := afeMod ch (fun c => { c with sub := .dead, word := none }) d
    let d := raise 6 0x2006 (chanPath 2 g ch) (le 1 ch ++ le 1 g) d
    if d.hlt.patrolLost && grp.serves.isNone && !grp.unavailable then d else doubleFault 2 d

/-- The channels of a group the spare's round visits: enabled ones not in dielectric use (R154). -/
def spareRound (d : Dev) (g : Fin 4) : List (Fin 32) :=
  (List.finRange 32).filter fun ch => afeGroup ch == g && (d.afe.ch.get ch).on && !dielectricUse d ch

/-- The channel of the spare's present slot: one a command asked for, else the next above the last, else the first. -/
def spareTarget (d : Dev) (g : Fin 4) : Option (Fin 32) :=
  let r := spareRound d g
  match r.find? fun ch => !(d.afe.ch.get ch).leadCmd.isEmpty with
  | some ch => some ch
  | none =>
    match r.find? fun ch => (d.afe.grp.get g).pos < ch.val % 8 + 1 with
    | some ch => some ch
    | none => r.head?

/-- Median of up to three lead measurements (R152); of two, the lower (DESIGN CHOICE, log entry 135). -/
def median3 : List Nat → Nat
  | [a] => a
  | [a, b] => min a b
  | a :: b :: c :: _ => max (min a b) (min (max a b) c)
  | [] => 0

/-- The rms noise of a channel's setting in 0.01 µV by the figures of R185; of a rate or gain without one the spec states none (log
entry 144). -/
def afeNoise (d : Dev) (ch : Nat) : Rat :=
  let rate := pget d kAfeRate ch
  let gain := pget d kAfeGain ch
  let row : Option (List Nat) := match rate with
    | 0 => some [60, 10, 4, 3]
    | 2 => some [130, 22, 9, 6]
    | 6 => some [600, 100, 40, 25]
    | 9 => some [1700, 280, 110, 70]
    | _ => none
  let col : Option Nat := match gain with
    | 1 => some 0
    | 8 => some 1
    | 32 => some 2
    | 128 => some 3
    | _ => none
  let base : Nat := match row, col with
    | some r, some c => r.getD c 0
    | _, _ => Config.noiseOpen rate gain
  (base : Rat) * (if pget d kAfeFilter ch = 3 then 115 / 100 else 1) + (if pget d kAfePol ch = 1 && rate ≤ 2 then 50 else 0)

/-- The spare's mean agrees with the channel's results over the same 20 ms, within 0.1 % of full scale and four times the noise
(R155). A channel slower than 20 ms is compared by its latest result (log entry 144). -/
def shadowAgrees (d : Dev) (ch : Fin 32) (mean : Int) : Bool :=
  let xs := (d.afe.ch.get ch).recent.map fun e => (e.2 : Rat)
  if xs.isEmpty then true
  else
    let own := rmean xs
    let diff := if own ≤ mean then (mean : Rat) - own else own - mean
    diff ≤ 8388608 / 1000 + 4 * rdiv (afeNoise d ch / 100 * 8388608) (afeUv d ch 8388608)

/-- A lead resistance in mΩ from the voltage across lead 1 in µV (R152). -/
def leadMohm (d : Dev) (ch : Nat) (uv : Int) : Nat := (divRound (uv * 1000) (pget d kAfeExcUa ch)).toNat

/-- A 40 ms slot of the group spare ends with a lead measurement or a shadow check (R152, R154, R155). After a slot that a command
asked for, the round goes on behind its channel (DESIGN CHOICE, log entry 135). -/
def spareSlotEnd (g : Fin 4) (smp : SpareSample) (d : Dev) : Dev :=
  let grp := d.afe.grp.get g
  if !(fieldRuns d && domOn d 9 && grp.serves.isNone && !grp.unavailable) then d
  else match spareTarget d g with
    | none => d
    | some ch =>
      let c := d.afe.ch.get ch
      let mode1 := pget d kAfeLeadMode ch = 1
      let d := afeGrpMod g (fun x => { x with pos := (ch.val % 8 + 1) % 8 }) d
      if mode1 ∧ (c.leadCmd ≠ [] ∨ c.leadTurn = false) then
        let leads := (leadMohm d ch smp.leadUv :: c.leads).take 3
        let r := median3 leads
        let d := afeMod ch (fun c =>
          { c with leads := leads, leadNext := some r, leadTurn := true, leadCmd := [] }) d
        forEach c.leadCmd (fun id d => completeId id 0 0 (le 4 r) d) d
      else if shadowAgrees d ch smp.mean then afeMod ch (fun c => { c with shadow := 0, leadTurn := false }) d
      else if c.shadow = 0 then afeMod ch (fun c => { c with shadow := 1, leadTurn := false }) d
      else
        let d := afeMod ch (fun c => { c with shadow := 0, leadTurn := false }) d
        let d := if smp.spareFails then
            unitMod (spareUnit d g) (fun u => { u with st := 2, role := 255, faults := satAdd u.faults 1 0xFFFF })
              (afeGrpMod g (fun x => { x with unavailable := true }) d)
          else d
        if smp.channelFails then modulatorFault ch d else d

/-- A stuck bitstream with the input in range declares the modulator faulty (R155). -/
def modulatorStuck (ch : Fin 32) (d : Dev) : Dev :=
  if (d.afe.ch.get ch).on && fieldRuns d then modulatorFault ch d else d

/-- Gain and offset that carry the measured responses to the group reference divider, taken in turn at zero and at full scale, to
those of the channel's calibration record (R156; log entry 145). -/
def refFit (ch : Fin 32) (refs : List Rat) : Option (Rat × Rat) :=
  let old := refs.reverse.zipIdx
  let zs := (old.filter fun r => r.2 % 2 == 0).map (·.1)
  let fs := (old.filter fun r => r.2 % 2 == 1).map (·.1)
  if zs.isEmpty || fs.isEmpty then none
  else
    let z := rmean zs
    let gain := rdiv (Config.afeRef ch 1 - Config.afeRef ch 0) (rmean fs - z)
    some (gain, Config.afeRef ch 0 - gain * z)

/-- The calibration of a substituting spare ends; its results carry OK from now on (R156). -/
def spareCalibrationEnd (g : Fin 4) (d : Dev) : Dev :=
  match (d.afe.grp.get g).serves with
  | none => d
  | some k =>
    let ch : Fin 32 := ⟨8 * g.val + k.val, by omega⟩
    afeMod ch (fun c => if c.sub == .calibrating then { c with sub := .calibrated, fit := refFit ch c.refs } else c) d

/-! ## Blanking and guards -/

/-- MCLK periods of the longest filter history a window needs: 100 ms. -/
def blkSpan : Nat := 800000

/-- An edge on a blanking input sets its level; a stuck input that is released halts its
groups no more (R174, R176). -/
def blankingEdge (k : Fin 2) (x : BlankEdge) (d : Dev) : Dev :=
  let active := x.level == bitOf (pget d kAfeBlkPol 0) k
  let t := d.lift.fTick * 8000 + x.period.val
  { d with afe := { d.afe with blk := vMod d.afe.blk k fun b =>
    { level := x.level
      stuck := b.stuck && active
      edges := if b.level == x.level then b.edges else (t, x.level) :: b.edges.filter fun e => t < e.1 + blkSpan } } }

/-- A selected blanking input has been active longer than `AFE_BLK_STUCK_MS`: the channels of its groups deliver nothing
until it is released (R176). -/
def blankingStuck (k : Fin 2) (d : Dev) : Dev :=
  let sel := [0, 1, 2, 3].any fun g => bitOf (pget d kAfeBlkSel g) k
  if !(blkActive d k && sel && !(d.afe.blk.get k).stuck && fieldRuns d) then d
  else
    raise 6 0x2007 (subPath 2) (le 1 k ++ [0, 0, 0] ++ le 4 (pget d kAfeBlkStuckMs 0))
      { d with afe := { d.afe with blk := vMod d.afe.blk k fun b => { b with stuck := true } } }

/-- What a guard driver does. GD4-GD7 follow `AFE_GUARD_SRC` (R177). GDn follows AI(28 + n)P while DXn is in no dielectric use;
otherwise it is the RF buffer's during a sweep of the channel, GNDF between sweeps, and off in a Snowplough stop or step F4 (R178,
R193). Without D9 or the field die it is off, and a held pad is high-impedance (R502): GD0-GD3 with D9 or D10, the others with
D9 (log entry 171). -/
def guardDrive (d : Dev) (gd : Fin 8) : GuardDrive :=
  if !(fieldRuns d && domOn d 9) || vAt d.pwr.pads 9 false || gd.val < 4 && vAt d.pwr.pads 10 false then .off
  else if gd.val < 4 then
    if !dielectricUse d (28 + gd) then .land (28 + gd)
    else if fieldStopped d then .off
    else if d.dlx.sweep.any fun s => s.ch.val == gd.val then .rf
    else .ground
  else
    match pget d kAfeGuardSrc (gd - 4) with
    | 255 => .off
    | 254 => .fixed
    | n => .mid (8 * (gd - 4) + n % 8)

/-- The object of a guard driver's fault: the channel it follows, one level above which the guard acts, or its group where it
follows none (R177, R178). -/
def guardPath (d : Dev) (gd : Fin 8) : Nat :=
  match guardDrive d gd with
  | .land ch => chanPath 2 3 ch
  | .mid ch => chanPath 2 (gd - 4) ch
  | _ => bankPath 2 (gd - 4)

/-- A guard driver held at its limit for 10 ms, which stays on (R177, R178). A guard of a channel in dielectric use is judged by R193
and R219 alone. -/
def guardFault (gd : Fin 8) (d : Dev) : Dev :=
  match guardDrive d gd with
  | .off => d
  | .ground => d
  | .rf => d
  | _ => raise 6 0x2008 (guardPath d gd) (le 1 gd) d

/-! ## On the control die -/

/-- A BROKEN word whose break urgent code 3 does not report: one of a bridge, a loop or a sense lead (R182). -/
def saysBroken (d : Dev) (ch : Fin 32) (c : AfeCh) : Bool :=
  match c.brk with
  | some k => 2 ≤ k
  | none => pget d kAfeWiring ch == 3

/-- A new result reaches the control die: AFE_RESULT, the stream to Q9 and the events it gives rise to (R164, R171,
R173, R182-R184). Breaks of causes 0 and 1 are reported by urgent code 3 (R180, R181). -/
def afeReceive (ch : Fin 32) (d : Dev) : Dev :=
  let c := d.afe.ch.get ch
  match c.word with
  | none => d
  | some (w, tick) =>
    if pget d kAfeWiring ch = 5 then d
    else if c.rcvSeq = some (seqOf w) && (!c.stale || tick == c.resTick) then d
    else
      let st := statusOf w
      let g := afeGroup ch
      let path := chanPath 2 g ch
      let settledNow := st != sBroken && st != sSettling && st != sStale && c.settleUs == 0
      let due := pget d kAfeStream ch = 1 && pget d kAfeStreamDiv ch ≤ c.streamCnt + 1
      let d := afeMod ch (fun c =>
        { c with
          result := w
          resTick := tick
          rcvSeq := some (seqOf w)
          stale := false
          lastSettled := if settledNow then w else c.lastSettled
          brkSaid := c.brkSaid && st == sBroken
          streamCnt := if due then 0 else if pget d kAfeStream ch = 1 then c.streamCnt + 1 else 0 }) d
      let d := when due (emit (.push 9 (le 4 w.toNat ++ le 2 ch ++ [0, 0] ++ le 8 tick))) d
      let d := when (st == sBroken && !c.brkSaid && saysBroken d ch c) (fun d =>
          raiseAt 6 0x2001 path ((edgeDt d tick + 1000 * c.wordOfs) % 2 ^ 64) (timeWord d)
            (le 1 ch ++ le 1 (c.brk.getD 4) ++ [0, 0] ++ le 4 c.lastSettled.toNat)
            (afeMod ch (fun c => { c with cdBroken := true, brkSaid := true, breaks := (c.breaks + 1) % 2 ^ 32 }) d)) d
      let d := if settledNow && c.cdBroken then
          raise 6 0x2002 path (le 1 ch ++ [0, 0, 0] ++ le 4 w.toNat)
            (afeMod ch (fun c => { c with cdBroken := false }) d)
        else d
      let d := if st = sOver ∧ c.cdOver = false then
          raise 6 0x2003 path (le 1 ch ++ le 1 (b2n c.overHigh)) d
        else d
      let d := afeMod ch (fun c => { c with cdOver := st == sOver }) d
      match c.depWhy with
      | none => afeMod ch (fun c => { c with cdDep := false }) d
      | some (x, s, made) =>
        afeMod ch (fun c => { c with cdDep := c.cdDep || made })
          (when (made && !c.cdDep) (raise 6 0x2004 path (le 1 ch ++ le 1 x ++ le 1 s)) d)

/-- The control die marks a channel STALE; EV_AFE_STALE once per episode (R168). A result that is BROKEN stays so, as R167 orders
them. A sense channel has no results of its own (R139). -/
def afeMarkStale (ch : Fin 32) (d : Dev) : Dev :=
  let c := d.afe.ch.get ch
  if c.stale || pget d kAfeWiring ch = 5 then d
  else
    raise 6 0x2005 (chanPath 2 (afeGroup ch) ch) (le 1 ch ++ [0, 0, 0] ++ le 8 c.resTick)
      (afeMod ch (fun c =>
        { c with stale := true, result := withStatus c.result (worse (statusOf c.result) sStale) }) d)

/-- Urgent code 3 for a channel: a new break, EV_AFE_BROKEN on port 0 (R180, R181). -/
def afeBrokenUrgent (ch : Fin 32) (dt : Nat) (d : Dev) : Dev :=
  let c := d.afe.ch.get ch
  let cause := if pget d kAfeExcMode ch = 0 then 1 else 0
  raiseAt 0 0x2001 (chanPath 2 (afeGroup ch) ch) dt (timeWord d)
    (le 1 ch ++ le 1 cause ++ [0, 0] ++ le 4 c.lastSettled.toNat)
    (afeMod ch (fun c => { c with cdBroken := true, brkSaid := true, breaks := (c.breaks + 1) % 2 ^ 32 }) d)

/-- EV_AFE_BROKEN has its bib: the channel's latest result is marked BROKEN at once (R180), while its break lasts. -/
def afeBrokenAdmit (n : Nat) (d : Dev) : Dev :=
  { d with afe := { d.afe with ch := vModN d.afe.ch n fun c =>
    if c.brkSaid then { c with result := withStatus c.result sBroken } else c } }

/-- `AFE_STATE` of a channel (R187). -/
def afeState (d : Dev) (ch : Fin 32) : Nat :=
  let c := d.afe.ch.get ch
  let g := d.afe.grp.get (afeGroup ch)
  let serves := g.serves.any fun k => 8 * (ch.val / 8) + k.val == ch.val
  b2n (subHeld c) + 2 * b2n (pget d kAfeLeadMode ch == 1 && (g.serves.isSome || g.unavailable)) + 4 * b2n serves +
    8 * b2n (serves && c.sub == .calibrating) + 16 * b2n c.brk.isSome + 32 * b2n (c.on && c.settleUs != 0)

/-- READ parameters of the front end (R187). `AFE_SPARE_STATE` of an idle spare reads 0xFF, as its bits are given, from reset on,
where the table's Reset column has 0 (DESIGN CHOICE, log entry 137). -/
def afeRead (d : Dev) (addr : Nat) : List Word :=
  let key := keyOf addr
  let k := instOf addr
  if key = kAfeSpareState then
    let g := vAt d.afe.grp k { serves := none, spare := none, unavailable := false, pos := 0 }
    [w32 ((match g.serves with
      | none => 0xFF
      | some j => 8 * k + j.val) + 256 * b2n g.unavailable)]
  else if h : k < 32 then
    let ch : Fin 32 := ⟨k, h⟩
    let c := d.afe.ch.get ch
    if key = kAfeResult then [c.result]
    else if key = kAfeLeadMeas then [w32 (c.rLead.getD 0)]
    else if key = kAfeState then [w32 (afeState d ch)]
    else [w32 c.breaks]
  else [0]

/-! ## Commands -/

/-- A command's channel, TARGET [7:0] (R188). -/
def targetN (c : Cmd) : Nat := c.target % 256

/-- `AFE_READ` (R188): result word, tick number and `AFE_STATE`. -/
def cmdAfeRead (c : Cmd) (d : Dev) : Dev :=
  if h : targetN c < 32 then
    let ch : Fin 32 := ⟨targetN c, h⟩
    let a := d.afe.ch.get ch
    complete c 0 0 (le 4 a.result.toNat ++ le 8 a.resTick ++ le 4 (afeState d ch)) d
  else refuse c ⟨stRange, 0⟩ d

/-- `AFE_LEAD_NOW` (R188): the spare's next slot becomes a lead measurement of the channel; it completes there. -/
def cmdAfeLeadNow (c : Cmd) (d : Dev) : Dev :=
  if h : targetN c < 32 then
    let ch : Fin 32 := ⟨targetN c, h⟩
    let a := d.afe.ch.get ch
    let grp := d.afe.grp.get (afeGroup ch)
    if !(a.on && pget d kAfeWiring ch = 1 && pget d kAfeLeadMode ch = 1 && grp.serves.isNone && !grp.unavailable) then
      refuse c (refused 0x22) d
    else waitOn c.id (afeMod ch (fun a => { a with leadCmd := a.leadCmd ++ [c.id] }) d)
  else refuse c ⟨stRange, 0⟩ d

/-! ## Meanings of the rows -/

def execConversionEnd (ch : Fin 32) (smp : AfeSample) (s : State) := quiet (conversionEnd ch smp) s
def execPolaritySwap (ch : Fin 32) (s : State) := quiet (polaritySwap ch) s
def execSpareSlotEnd (g : Fin 4) (smp : SpareSample) (s : State) := quiet (spareSlotEnd g smp) s
def execModulatorStuck (ch : Fin 32) (s : State) := quiet (modulatorStuck ch) s
def execSpareCalibrationEnd (g : Fin 4) (s : State) := quiet (spareCalibrationEnd g) s
def execBlankingEdge (k : Fin 2) (edge : BlankEdge) (s : State) := quiet (blankingEdge k edge) s
def execBlankingStuck (k : Fin 2) (s : State) := quiet (blankingStuck k) s
def execExcitationComplianceBreak (ch : Fin 32) (s : State) := quiet (complianceBreak ch) s
def execAfeStale (ch : Fin 32) (s : State) := quiet (afeMarkStale ch) s
def execGuardFault (gd : Fin 8) (s : State) := quiet (guardFault gd) s
def execAfeRead (c : CmdId) (s : State) := quiet (withCmd 0x1201 c cmdAfeRead) s
def execAfeLeadNow (c : CmdId) (s : State) := quiet (withCmd 0x1202 c cmdAfeLeadNow) s

end Sys2Proof.Machine
end

