-- ==== Sys2Proof/Machine/Dlx.lean ====
section
/-!
DEFINITION. Machine/Dlx.lean: dielectric moisture measurement (05): sweeps and the sweep cycle, probe calibration,
permittivity, the moisture function, the averaging window, probe faults, the spare path, fitting, and the commands of
group 0x13.
-/
namespace Sys2Proof.Machine

def dlxMod (n : Fin 4) (f : DlxCh → DlxCh) (d : Dev) : Dev :=
  { d with dlx := { d.dlx with ch := vMod d.dlx.ch n f } }

/-- PATH of DXn: channel AI(28 + n) of group AG3 (R190, R96). -/
def dlxPath (n : Fin 4) : Nat := chanPath 3 3 (28 + n)

/-! ## The sweep and the sweep cycle -/

/-- Frequency of point i of a sweep of `pts` points in kHz (R194). -/
def sweepFreq (fs pts sp i : Nat) : Rat :=
  if i = 0 then fs
  else if i + 1 = pts then 40000
  else if sp = 1 then (fs : Rat) + ((40000 - fs : Nat) : Rat) * i / ((pts - 1 : Nat) : Rat)
  else (fs : Rat) * exp2Of (log2Of (40000 / fs) * i / ((pts - 1 : Nat) : Rat))

/-- Frequencies of a channel's sweep (R194). -/
def dlxFreqs (d : Dev) (n : Nat) : List Rat :=
  let pts := pget d kDlxPoints n
  (List.range pts).map fun i => sweepFreq (pget d kDlxFStart n) pts (pget d kDlxSpacing n) i

/-- Ticks a sweep of n points occupies (R196). -/
def sweepTicks (pts : Nat) : Nat := ceilDiv (10 + 200 * pts) 1000

/-- The ticks all channels in dielectric use occupy, given each channel's mode and points (R198). -/
def cycleTicks (mode pts : Nat → Nat) : Nat :=
  [0, 1, 2, 3].foldl (fun a n => a + if mode n = 0 then 0 else sweepTicks (pts n)) 0

/-- Sweeps run at half rate (R200). -/
def dlxThrottled (d : Dev) : Bool := 1 ≤ d.hlt.thrStep

/-- No sweep may run: step F1 or a later one, a Snowplough stop, or D10 not ON (R201). -/
def dlxHeld (d : Dev) : Bool := 1 ≤ d.pwr.fStep || fieldStopped d || !domOn d 10 || !fieldRuns d

/-- A window restarts: every stored attempt is discarded (R217). -/
def restartWindow (c : DlxCh) : DlxCh := { c with win := [], filled := false }

/-- Sweeps pause: the sweep in progress is abandoned and counts as no attempt (R201). -/
def dlxPause (d : Dev) : Dev :=
  { d with dlx := { d.dlx with sweep := none, queue := [], paused := true } }

/-- Sweeps resume after a pause: every window restarts (R201, R217). -/
def dlxResume (d : Dev) : Dev :=
  { d with dlx := { d.dlx with paused := false, ch := d.dlx.ch.map restartWindow } }

/-- What the block does when one of its parameters takes effect: the mode, a new grain and a shorter window (R204, R214,
R217). A probe calibration step that has not run when the mode ends is refused as one issued outside it. -/
def dlxHook (addr : Nat) (d : Dev) : Dev :=
  let key := keyOf addr
  if h : instOf addr < 4 then
    let n : Fin 4 := ⟨instOf addr, h⟩
    let c := d.dlx.ch.get n
    if key = kDlxEnable then
      let mode := pget d kDlxEnable n
      if mode = c.mode then d
      else
        let d := forEach c.steps (fun x d => completeId x.cmd stRefused 0x31 [] d) d
        let d := dlxMod n (fun c =>
          { c with
            mode := mode
            grain := pget d kDlxGrain n
            steps := []
            cal := CalData.none
            win := if mode = 1 then [] else c.win
            filled := if mode = 1 then false else c.filled
            fault := if mode = 1 then c.fault else none
            word := if mode = 1 then c.word else none }) d
        if mode != 0 then d
        else { d with dlx := { d.dlx with
            sweep := d.dlx.sweep.filter fun x => x.ch != n
            queue := d.dlx.queue.filter fun x => x != n } }
    else if key = kDlxGrain then
      if pget d kDlxGrain n = c.grain then d
      else dlxMod n (fun c => restartWindow { c with grain := pget d kDlxGrain n }) d
    else if key = kDlxAvg then dlxMod n (fun c => { c with win := c.win.take (pget d kDlxAvg n) }) d
    else d
  else d

/-- The waiting values of `DLX_CYCLE_MS` that take effect at a tick: one whose own multiple it is, with those it supersedes (R199). -/
def cycleDue (t : Nat) (ws : List Wait) : List Wait :=
  ws.foldr (fun w a => if !a.isEmpty || t % (w.words.headD 1).toNat == 0 then w :: a else a) []

/-- What DXE does at a TICK edge: `DLX_CYCLE_MS` takes effect at the first multiple of its new value (R199), and a cycle
starts at a multiple of the value in force: LIVE values take effect and every channel in use is due to sweep (R197). -/
def dlxTick (d : Dev) : Dev :=
  let t := d.time.tick
  let cyc := addrOf kDlxCycleMs 0
  let due := cycleDue t (d.cmd.waits.filter fun w => w.addr == cyc)
  let d := if due.isEmpty then d else boundary dlxHook (fun w => due.contains w) d
  let d := if dlxHeld d then dlxPause d else if d.dlx.paused then dlxResume d else d
  if t % pget d kDlxCycleMs 0 = 0 then
    let d := boundary dlxHook (fun w => w.bnd == .dlxCycle && w.addr != cyc) d
    if dlxHeld d || (dlxThrottled d && (t / pget d kDlxCycleMs 0) % 2 == 1) then d
    else
      { d with dlx := { d.dlx with queue := (List.finRange 4).filter fun n =>
          (d.dlx.ch.get n).mode != 0 && (d.dlx.ch.get n).path != .dead && !dlxAwaits d n } }
  else d

/-- DXE starts the sweep of the channel whose turn it is (R196, R197). With its first sweep a calibration step begins (R86, R204). -/
def sweepStart (n : Fin 4) (d : Dev) : Dev :=
  if d.dlx.queue.head? = some n && d.dlx.sweep.isNone && !dlxHeld d && !d.dlx.paused then
    let c := d.dlx.ch.get n
    let step := if c.mode = 2 then c.steps.head? else none
    let d := match step with
      | some s => begin_ s.cmd d
      | none => d
    { d with dlx := { d.dlx with
        sweep := some { ch := n, pts := [], guardLimit := false, overload := false, forStep := step.isSome }
        queue := d.dlx.queue.drop 1 } }
  else d

/-! ## Admittance and permittivity -/

/-- Admittance at the connector plane of one point (R202). -/
def admittance (m mo ms ml : Cx) : Cx :=
  (Cx.scale (2 / 100) ((m.sub mo).mul (ms.sub ml))).div ((ms.sub m).mul (ml.sub mo))

/-- A complex number from two binary32 words. -/
def cxWords (re im : Word) : Cx := ⟨f32 re, f32 im⟩

/-- The ratios m_o, m_s and m_l of one point of `DLX_PROBE_CAL` (R225). -/
def calPoint (ws : List Word) (i : Nat) : Cx × Cx × Cx :=
  let w := fun k => ws.getD (2 + 6 * i + k) 0
  (cxWords (w 0) (w 1), cxWords (w 2) (w 3), cxWords (w 4) (w 5))

/-- Admittances of a whole sweep with a channel's probe calibration in force (R202). -/
def sweepAdmit (d : Dev) (n : Nat) (ms : List Cx) : List Cx :=
  let ws := pwords d (addrOf kDlxProbeCal n)
  (List.range ms.length).map fun i =>
    let c := calPoint ws i
    admittance (ms.getD i ⟨0, 0⟩) c.1 c.2.1 c.2.2

/-- Angular frequency of a frequency in kHz, in rad/s. -/
def omega (khz : Rat) : Rat := 2 * ratPi * khz * 1000

/-- Susceptance by angular frequency, in fF (R203). -/
def capFf (y : Cx) (khz : Rat) : Rat := rdiv (y.im * (10 : Rat) ^ 15) (omega khz)

/-- ε′ and ε″ of an admittance (R203). -/
def permittivity (d : Dev) (n : Nat) (y : Cx) (khz : Rat) : Cx :=
  let c0 : Rat := pget d kDlxC0Ff n
  let cf : Rat := (pgetI d kDlxCfFf n : Int)
  ⟨rdiv (capFf y khz - cf) c0, rdiv (y.re * (10 : Rat) ^ 15) (omega khz * c0)⟩

/-- `DLX_PROBE_CAL` records the sweep the channel has (R205). -/
def calValid (d : Dev) (n : Nat) : Bool :=
  let ws := pwords d (addrOf kDlxProbeCal n)
  let w1 := (ws.getD 1 0).toNat
  (ws.getD 0 0).toNat != 0 && (ws.getD 0 0).toNat == pget d kDlxFStart n && w1 % 256 == pget d kDlxPoints n &&
    fld w1 8 8 == pget d kDlxSpacing n

/-! ## The moisture function -/

/-- The frequencies and valid ranges of a factory calibration (R212): f_L and f_H in kHz, moisture in 0.01 %, density. -/
def factoryRanges (grain : Nat) : Nat × Nat × Nat × Nat × Nat × Nat :=
  match grain with
  | 1 => (5000, 20000, 800, 2600, 650, 850)
  | 2 => (5000, 20000, 800, 2400, 700, 860)
  | 3 => (5000, 20000, 800, 2600, 550, 720)
  | 4 => (2000, 10000, 800, 3500, 650, 800)
  | 5 => (5000, 20000, 800, 3000, 680, 800)
  | 6 => (3000, 15000, 1000, 3000, 500, 650)
  | 7 => (10000, 40000, 500, 2000, 600, 720)
  | 8 => (10000, 40000, 500, 2000, 350, 480)
  | 9 => (5000, 20000, 800, 2200, 720, 820)
  | 10 => (5000, 20000, 800, 2200, 740, 860)
  | 11 => (5000, 20000, 800, 2400, 400, 560)
  | _ => (5000, 20000, 800, 2200, 680, 780)

/-- The twenty words of a factory calibration in the layout of R211: the printed ones of R212, and of the grains other
than barley the coefficients as the part holds them (log entry 3). -/
def factoryCal (grain : Nat) : List Word :=
  let r := factoryRanges grain
  let coef : Nat → Word :=
    if grain = 3 then
      fun k => [0x40866666, 0x42180000, 0x40200000, 0xC0C00000, 0, 0, 0xBD23D70A, 0, 0x41C80000, 0x3A51B717,
        0x37FBA882, 0x3F19999A, 0x3F000000].getD k 0
    else Config.dlxFactory grain
  [0, w32 r.1, w32 r.2.1] ++ (List.range 11).map coef ++
    [w32 (r.2.2.1 + r.2.2.2.1 * 65536), w32 (0xF6 + 60 * 256), w32 (r.2.2.2.2.1 + r.2.2.2.2.2 * 65536), coef 11, coef 12, 0]

/-- The calibration of a grain 1-12 or 32-47 (R211, R225). -/
def calOf (d : Dev) (grain : Nat) : List Word :=
  if grain < 32 then factoryCal grain else pwords d (addrOf kDlxUserCal (grain - 32))

/-- Form and base of a calibration (R211). -/
def calForm (ws : List Word) : Nat := (ws.getD 0 0).toNat % 256
def calBase (ws : List Word) : Nat := fld (ws.getD 0 0).toNat 8 8

/-- Word k of a calibration. -/
def calW (ws : List Word) (k : Nat) : Word := ws.getD k 0

/-- The full function a calibration rests on: itself, or its base grain's in form 1 (R209). -/
def calFull (ws : List Word) : List Word := if calForm ws = 1 then factoryCal (calBase ws) else ws

/-- A limit of a calibration; 0 in form 1 takes the base grain's (R211). The limits of x and y follow the same rule
(DEDUCED from the worked example, log entry 14). -/
def calLimit (ws : List Word) (get : List Word → Int) : Int :=
  if calForm ws = 1 && get ws == 0 then get (calFull ws) else get ws

def calMMin (ws : List Word) : Int := fld (calW ws 14).toNat 0 16
def calMMax (ws : List Word) : Int := fld (calW ws 14).toNat 16 16
def calTMin (ws : List Word) : Int := sext 8 (fld (calW ws 15).toNat 0 8)
def calTMax (ws : List Word) : Int := sext 8 (fld (calW ws 15).toNat 8 8)
def calRhoMin (ws : List Word) : Int := fld (calW ws 16).toNat 0 16
def calRhoMax (ws : List Word) : Int := fld (calW ws 16).toNat 16 16

/-- The limit of x (word 17) or of y (word 18). -/
def calXy (ws : List Word) (k : Nat) : Rat :=
  if calForm ws = 1 && calW ws k == 0 then f32 (calW (calFull ws) k) else f32 (calW ws k)

/-- A quantity interpolated linearly in log f between the neighbouring sweep points (R208). Outside the sweep the spec
states no value (log entry 4). -/
def interpLog (f : Rat) : List (Rat × Rat) → Rat
  | (f0, v0) :: (f1, v1) :: rest =>
    if f0 ≤ f ∧ f ≤ f1 then
      if f = f0 then v0
      else if f = f1 then v1
      else v0 + (v1 - v0) * rdiv (log2Of (f / f0)) (log2Of (f1 / f0))
    else interpLog f ((f1, v1) :: rest)
  | [(f0, v0)] => if f = f0 then v0 else Config.openRat f
  | [] => Config.openRat f

/-- x, y, the form 0 moisture m_base, moisture in % and density of a sweep under a calibration (R208, R209). -/
structure Moisture where
  x : Rat
  y : Rat
  mb : Rat
  m : Rat
  rho : Rat
  deriving DecidableEq, Repr

/-- The density-independent variables x and y and ε′ at f_H (R208). -/
def moistVars (freqs : List Rat) (eps : List Cx) (fl fh : Rat) : Rat × Rat × Rat :=
  let reL := interpLog fl (freqs.zip (eps.map (·.re)))
  let reH := interpLog fh (freqs.zip (eps.map (·.re)))
  let imH := interpLog fh (freqs.zip (eps.map (·.im)))
  (rdiv imH (reH - 1), rdiv (reL - reH) (reH - 1), reH)

/-- The form 0 moisture of x, y and the grain temperature (R209). -/
def form0 (ws : List Word) (x y t : Rat) : Rat :=
  let c := fun k => f32 (calW ws (3 + k))
  c 0 + c 1 * x + c 2 * y + c 3 * x * x + c 4 * x * y + c 5 * y * y + (t - f32 (calW ws 11)) * (c 6 + c 7 * x)

/-- Moisture and density of a sweep (R209). -/
def moisture (ws : List Word) (freqs : List Rat) (eps : List Cx) (t : Rat) : Moisture :=
  let full := calFull ws
  let v := moistVars freqs eps ((calW full 1).toNat : Rat) ((calW full 2).toNat : Rat)
  let mb := form0 full v.1 v.2.1 t
  let rho := rdiv (ratSqrt v.2.2 - 1) (f32 (calW full 12) + f32 (calW full 13) * mb)
  { x := v.1
    y := v.2.1
    mb := mb
    m := if calForm ws = 1 then f32 (calW ws 3) + f32 (calW ws 4) * mb else mb
    rho := rho }

/-- The cause of R227 for which a sweep is out of calibration (R213), the first that applies. -/
def outOfCal (ws : List Word) (r : Moisture) (t : Rat) (tBad : Bool) : Option Nat :=
  if r.m * 100 < calLimit ws calMMin ∨ calLimit ws calMMax < r.m * 100 then some 0
  else if t < calLimit ws calTMin ∨ calLimit ws calTMax < t then some 1
  else if r.rho < calLimit ws calRhoMin ∨ calLimit ws calRhoMax < r.rho then some 2
  else if calXy ws 17 < r.x ∨ calXy ws 18 < r.y then some 3
  else if tBad then some 4
  else none

/-- Grain temperature in °C at the end of a sweep, and whether its channel's result is not usable (R210). -/
def grainTemp (d : Dev) (n : Nat) : Rat × Bool :=
  let k := pget d kDlxTempChan n
  if h : k < 32 then
    let ch : Fin 32 := ⟨k, h⟩
    let c := d.afe.ch.get ch
    let v := fun (x : Int) => (x : Rat) / 1000
    match c.word with
    | none => (v c.settled, true)
    | some (w, _) =>
      let s := statusOf w
      if !afeDelivers d ch ∨ s = sBroken ∨ s = sStale ∨ s = sSettling then (v c.settled, true)
      else (v (valueOf w), false)
  else ((pgetI d kDlxTempFixed n : Rat) / 1000, false)

/-- One sweep as an attempt of the window (R207, R209, R213). -/
def attemptOf (d : Dev) (n : Nat) (ms : List Cx) : Attempt :=
  let freqs := dlxFreqs d n
  let ys := sweepAdmit d n ms
  let eps := (freqs.zip ys).map fun p => permittivity d n p.2 p.1
  let t := grainTemp d n
  let lastRe : Rat := (eps.getLastD ⟨0, 0⟩).re
  if lastRe * 1000 < pget d kDlxFillMin n then
    { acc := false, eps := [], t := 0, tBad := false, m := 0, rho := 0, ooc := none }
  else
    let ws := calOf d (pget d kDlxGrain n)
    let r := moisture ws freqs eps t.1
    let o := outOfCal ws r t.1 t.2
    let m := if o.isNone then r.m else if r.m < 0 then 0 else if 60 < r.m then 60 else r.m
    { acc := true, eps := eps, t := t.1, tBad := t.2, m := m, rho := r.rho, ooc := o }

/-! ## The result -/

/-- Status codes of R215. -/
def xOk := 0
def xSettling := 1
def xProbeFault := 2
def xOutOfCal := 3
def xPartialFill := 4
def xStale := 5
def xSubst := 6

/-- The accepted attempts of a window. -/
def accepted (c : DlxCh) : List Attempt := c.win.filter (·.acc)

/-- Status and value of a channel's window, and whether the value was computed (R214, R215). -/
def windowResult (d : Dev) (n : Nat) (c : DlxCh) : Nat × Int × Bool :=
  let acc := accepted c
  let mean := ratRound (rmean (acc.map (·.m)) * 1000)
  let avg := pget d kDlxAvg n
  if c.fault.isSome then (xProbeFault, c.settled, false)
  else if acc.any (·.ooc.isSome) then (xOutOfCal, mean, true)
  else if !c.filled then (xSettling, c.settled, false)
  else
    let st :=
      if c.path = .subst then xSubst
      else if ceilDiv (pget d kDlxFillQuorum n * avg) 100 ≤ acc.length then xOk
      else xPartialFill
    if acc.isEmpty then (st, c.settled, false) else (st, mean, true)

/-- Publishes a result: SEQ advances and the word is placed in the uplink slot with the tick of the sweep's end (R214,
R215, R218). -/
def publish (n : Fin 4) (d : Dev) : Dev :=
  let c := d.dlx.ch.get n
  let r := windowResult d n c
  let acc := accepted c
  let seq := (c.seq + 1) % 16
  let rho := ratRound (rmean (acc.map (·.rho)))
  let keep := r.2.2 && (r.1 == xOk || r.1 == xOutOfCal || r.1 == xSubst)
  dlxMod n (fun c =>
    { c with
      seq := seq
      settled := if keep then r.2.1 else c.settled
      density := if acc.isEmpty then c.density else if 0 ≤ rho then rho.toNat else (Config.valueOver rho).toNat
      oocCause := ((acc.filterMap (·.ooc)).headD c.oocCause)
      word := some (resultWord r.2.1 r.1 seq, d.lift.fTick)
      computed := r.2.2 }) d

/-- The cause of a probe fault a sweep shows (R219). -/
def probeCause (d : Dev) (n : Nat) (s : Sweep) : Option Nat :=
  let f0 : Rat := pget d kDlxFStart n
  let y := (sweepAdmit d n [(s.pts.headD (⟨0, 0⟩, 0)).1]).headD ⟨0, 0⟩
  if capFf y f0 < ((pget d kDlxC0Ff n : Rat) + (pgetI d kDlxCfFf n : Rat)) / 2 then some 0
  else if 25 / 10000 < y.norm2 then some 1
  else if s.guardLimit then some 2
  else if s.overload then some 3
  else none

/-- Capacitances in fF of the sweeps of a calibration step, by the ratios of this calibration where its first three
steps have run, else by `DLX_PROBE_CAL` (R204). -/
def calCap (d : Dev) (n : Nat) (cal : CalData) (sweeps : List (List Cx)) : Rat :=
  let freqs := dlxFreqs d n
  rmean (sweeps.flatMap fun ms =>
    let ys := match cal.open_, cal.short, cal.load with
      | some o, some s, some l =>
        (List.range ms.length).map fun i =>
          admittance (ms.getD i ⟨0, 0⟩) (o.getD i ⟨0, 0⟩) (s.getD i ⟨0, 0⟩) (l.getD i ⟨0, 0⟩)
      | _, _, _ => sweepAdmit d n ms
    (freqs.zip ys).map fun p => capFf p.2 p.1)

/-- The ratios at every point, averaged over the sweeps of a step. -/
def calRatios (pts : Nat) (sweeps : List (List Cx)) : List Cx :=
  (List.range pts).map fun i => cxMean (sweeps.map fun ms => ms.getD i ⟨0, 0⟩)

/-- Femtofarads as a word. -/
def ffWord (x : Rat) : Nat := toBits 32 (ratRound x)

/-- A calibration step has its sixteen sweeps: its data is stored and its command completes (R204). -/
def calStepEnd (n : Fin 4) (st : CalStep) (d : Dev) : Dev :=
  let c := d.dlx.ch.get n
  if st.overload then completeId st.cmd stIntegrity 0 [] d
  else
    let ratios := calRatios (pget d kDlxPoints n) st.sweeps
    let cap := calCap d n c.cal st.sweeps
    let cal : CalData :=
      match st.step with
      | 1 => { c.cal with open_ := some ratios }
      | 2 => { c.cal with short := some ratios }
      | 3 => { c.cal with load := some ratios }
      | 4 => { c.cal with air := some cap }
      | _ => { c.cal with ref := some (cap, st.epsRef) }
    let d := dlxMod n (fun c => { c with cal := cal }) d
    completeId st.cmd 0 0 (if st.step < 4 then [] else le 4 (ffWord cap)) d

/-- A sweep of a channel in calibrate mode ends: it counts for the step in progress (R204). -/
def calSweep (n : Fin 4) (s : Sweep) (d : Dev) : Dev :=
  match (if s.forStep then (d.dlx.ch.get n).steps else []) with
  | [] => d
  | st :: rest =>
    let st := { st with sweeps := st.sweeps ++ [s.pts.map (·.1)], overload := st.overload || s.overload }
    if st.sweeps.length < 16 then dlxMod n (fun c => { c with steps := st :: rest }) d
    else calStepEnd n st (dlxMod n (fun c => { c with steps := rest }) d)

/-- A sweep of a measuring channel ends: a probe fault, or an attempt of the window, and a result (R214, R219). -/
def measureSweep (n : Fin 4) (s : Sweep) (d : Dev) : Dev :=
  let c := d.dlx.ch.get n
  match probeCause d n s, c.fault with
  | some k, none => publish n (urgent 3 (32 + n) (dlxMod n (fun c => { c with fault := some k, clean := 0 }) d))
  | some k, some _ => publish n (dlxMod n (fun c => { c with fault := some k, clean := 0 }) d)
  | none, some _ =>
    if c.clean = 0 then publish n (dlxMod n (fun c => { c with clean := 1 }) d)
    else publish n (dlxMod n (fun c => restartWindow { c with fault := none, clean := 0 }) d)
  | none, none =>
    let a := attemptOf d n (s.pts.map (·.1))
    let avg := pget d kDlxAvg n
    publish n (dlxMod n (fun c =>
      { c with
        win := (a :: c.win).take avg
        filled := c.filled || decide (avg ≤ c.win.length + 1)
        last := if a.acc then
            ((dlxFreqs d n).zip (a.eps.zip (s.pts.map (·.2))))
          else c.last }) d)

/-- The synthesiser in use changes at a point where the two disagree (R526). -/
def synthTake (b : Bool) (d : Dev) : Dev :=
  if b && !d.hlt.synthTaken then { d with hlt := { d.hlt with synthTaken := true } } else d

/-- The detector gain in 6 dB steps: the highest, up to 42 dB, at which neither signal exceeds 90 % of full scale, so that both come as
near to 25-90 % as one gain allows (R195; DESIGN CHOICE, log entry 146). -/
def detectorGain (i v : Cx) : Nat :=
  let top := if i.norm2 < v.norm2 then v.norm2 else i.norm2
  (((List.range 8).filter fun k => top ^ 5 * (10 : Rat) ^ (3 * k) ≤ (81 / 100 : Rat) ^ 5).getLast?).getD 0

/-- A signal is above full scale at 0 dB (R195). -/
def detectorOver (i v : Cx) : Bool := 1 < i.norm2 || 1 < v.norm2

/-- A sweep point ends (R195); after the last one the sweep is evaluated. -/
def sweepPointEnd (n : Fin 4) (p : SweepPoint) (d : Dev) : Dev :=
  match d.dlx.sweep with
  | none => d
  | some s =>
    if s.ch != n || dlxHeld d then d
    else
      let d := synthTake p.synthDiffers d
      let i := cxWords p.iRe p.iIm
      let v := cxWords p.vRe p.vIm
      let s : Sweep :=
        { s with
          pts := s.pts ++ [(i.div v, detectorGain i v)]
          guardLimit := s.guardLimit || p.guardLimit
          overload := s.overload || detectorOver i v }
      if s.pts.length < pget d kDlxPoints n then { d with dlx := { d.dlx with sweep := some s } }
      else
        let d := { d with dlx := { d.dlx with sweep := none } }
        if (d.dlx.ch.get n).mode = 2 then calSweep n s d else measureSweep n s d

/-! ## The spare path -/

/-- A primary path is declared faulty: DXS takes over at the channel's next sweep, or the channel publishes nothing more
(R221, R531), as where Patrol is lost (R516). -/
def pathFault (n : Fin 4) (d : Dev) : Dev :=
  let d := { d with dlx := { d.dlx with sweep := d.dlx.sweep.filter fun s => s.ch != n } }
  if d.dlx.spareFree && !d.hlt.patrolLost then
    let d := crossover (42 + n) 46 (7 + n) d
    let d := dlxMod n (fun c => { c with path := .subst }) { d with dlx := { d.dlx with spareFree := false } }
    raise 6 0x3006 (dlxPath n) (le 1 n ++ [0]) d
  else
    let d := dlxMod n (fun c => { c with path := .dead, word := none }) d
    let d := { d with dlx := { d.dlx with queue := d.dlx.queue.filter fun x => x != n } }
    let d := raise 6 0x3007 (dlxPath n) (le 1 n) d
    if d.dlx.spareFree then d else doubleFault 3 d

/-- At the end of a cycle DXS and one primary path measure the reference (R220): the next path in rotation. -/
def dxsCheck (r : DxsCheck) (d : Dev) : Dev :=
  if dlxHeld d || !d.dlx.spareFree then d
  else
    let n : Fin 4 := ⟨d.dlx.rot % 4, Nat.mod_lt _ (by omega)⟩
    let c := d.dlx.ch.get n
    let d := { d with dlx := { d.dlx with rot := (d.dlx.rot + 1) % 4 } }
    if !r.differs then dlxMod n (fun c => { c with differs := 0 }) d
    else if c.differs = 0 then dlxMod n (fun c => { c with differs := 1 }) d
    else
      let d := dlxMod n (fun c => { c with differs := 0 }) d
      let d :=
        if r.spareFails then
          unitMod 46 (fun u => { u with st := 2, role := 255, faults := satAdd u.faults 1 0xFFFF })
            { d with dlx := { d.dlx with spareFree := false } }
        else d
      if r.primaryFails then pathFault n d else d

/-- DXS has fitted its error terms: substituted results carry OK from now on (R221). -/
def dxsCalEnd (n : Fin 4) (d : Dev) : Dev :=
  if (d.dlx.ch.get n).path = .subst then
    raise 6 0x3006 (dlxPath n) (le 1 n ++ le 1 1) (dlxMod n (fun c => { c with path := .calibrated }) d)
  else d

/-! ## On the control die -/

/-- A new result reaches the control die: DLX_RESULT, the stream to Q9, and the events a result shows (R215, R218,
R227). -/
def dlxReceive (n : Fin 4) (d : Dev) : Dev :=
  let c := d.dlx.ch.get n
  match c.word with
  | none => d
  | some (w, tick) =>
    if c.rcvSeq = some (seqOf w) && (!c.stale || tick == c.resTick) then d
    else
      let st := statusOf w
      let okNow := c.computed && (st == xOk || st == xOutOfCal || st == xSubst)
      let due := pget d kDlxStream n = 1 && pget d kDlxStreamDiv n ≤ c.streamCnt + 1
      let d := dlxMod n (fun c =>
        { c with
          result := w
          resTick := tick
          rcvSeq := some (seqOf w)
          stale := false
          lastSettled := if okNow then w else c.lastSettled
          cdFault := c.cdFault && !okNow
          cdPartial := st == xPartialFill
          cdOoc := st == xOutOfCal
          streamCnt := if due then 0 else if pget d kDlxStream n = 1 then c.streamCnt + 1 else 0 }) d
      let d := when due (emit (.push 9 (le 4 w.toNat ++ le 2 (0x100 + n) ++ [0, 0] ++ le 8 tick))) d
      let d := when (okNow && c.cdFault)
        (raise 6 0x3002 (dlxPath n) (le 1 n ++ [0, 0, 0] ++ le 4 w.toNat)) d
      let d := when (st == xPartialFill && !c.cdPartial)
        (raise 6 0x3003 (dlxPath n) (le 1 n ++ le 1 (accepted c).length ++ le 2 c.win.length)) d
      when (st == xOutOfCal && !c.cdOoc) (raise 6 0x3004 (dlxPath n) (le 1 n ++ le 1 c.oocCause)) d

/-- The control die marks a channel STALE; EV_DLX_STALE once per episode. A result that shows PROBE_FAULT keeps it, as R215 orders
them. -/
def dlxMarkStale (n : Fin 4) (d : Dev) : Dev :=
  let c := d.dlx.ch.get n
  if c.stale then d
  else
    raise 6 0x3005 (dlxPath n) (le 1 n ++ [0, 0, 0] ++ le 8 c.resTick)
      (dlxMod n (fun c =>
        { c with
          stale := true
          result := if statusOf c.result = xProbeFault then c.result else withStatus c.result xStale }) d)

/-- The admission of a bit 32 + n of urgent code 3: EV_DLX_PROBE_FAULT on port 0 (R219). -/
def dlxFaultUrgent (n : Fin 4) (dt : Nat) (d : Dev) : Dev :=
  let c := d.dlx.ch.get n
  raiseAt 0 0x3001 (dlxPath n) dt (timeWord d)
    (le 1 n ++ le 1 (c.fault.getD 0) ++ [0, 0] ++ le 4 c.lastSettled.toNat)
    (dlxMod n (fun c => { c with cdFault := true }) d)

/-- `DLX_STATE` (R225). What pauses and which temperature is in use show while the channel is in dielectric use. -/
def dlxState (d : Dev) (n : Fin 4) : Nat :=
  let c := d.dlx.ch.get n
  b2n (d.dlx.sweep.any fun s => s.ch == n) + 2 * b2n (d.dlx.paused && c.mode != 0) + 4 * b2n (dlxThrottled d) +
    8 * b2n (c.path == .subst || c.path == .calibrated) + 16 * b2n (c.path == .subst) + 32 * b2n (c.mode == 2) +
    64 * b2n (calValid d n) + 128 * b2n (pget d kDlxTempChan n == 255 && c.mode != 0) + 256 * b2n c.fault.isSome

/-- READ parameters of the dielectric subsystem (R225). -/
def dlxRead (d : Dev) (addr : Nat) : List Word :=
  let key := keyOf addr
  if h : instOf addr < 4 then
    let n : Fin 4 := ⟨instOf addr, h⟩
    let c := d.dlx.ch.get n
    if key = kDlxResult then [c.result]
    else if key = kDlxDensity then [w32 c.density]
    else if key = kDlxState then [w32 (dlxState d n)]
    else [w32 (c.win.length * 65536 + (accepted c).length)]
  else [0]

/-! ## Checks of writes -/

/-- The write would leave the admission rule of R198 satisfied. -/
def dlxAdmits (mode pts : Nat → Nat) (cycle : Nat) : Bool := cycleTicks mode pts ≤ cycle

/-- A calibration's f_L and f_H lie within a channel's sweep (R208). -/
def calFits (d : Dev) (n grain : Nat) : Bool :=
  let ws := calFull (calOf d grain)
  pget d kDlxFStart n ≤ (calW ws 1).toNat && (calW ws 2).toNat ≤ 40000

/-- The refusals of this chapter for a parameter write, beyond class and range (R190, R198, R205, R208, R225). -/
def dlxCheck (d : Dev) (addr : Nat) (ws : List Word) : Option Refuse :=
  let key := keyOf addr
  let n := instOf addr
  let v := (ws.headD 0).toNat
  let mode := fun k => pget d kDlxEnable k
  let pts := fun k => pget d kDlxPoints k
  let cyc := pget d kDlxCycleMs 0
  if key = kDlxEnable then
    firstRefusal [
      (v != 0 && pget d kAfeEnable (28 + n) == 1, refused 0x30),
      (v == 1 && (!calValid d n || pget d kDlxC0Ff n == 0), refused 0x32),
      (!dlxAdmits (fun k => if k = n then v else mode k) pts cyc, ⟨stAdmission, 0⟩)]
  else if key = kDlxPoints then
    firstRefusal [(!dlxAdmits mode (fun k => if k = n then v else pts k) cyc, ⟨stAdmission, 0⟩)]
  else if key = kDlxCycleMs then firstRefusal [(!dlxAdmits mode pts v, ⟨stAdmission, 0⟩)]
  else if key = kDlxGrain then firstRefusal [(!calFits d n v, refused 0x33)]
  else if key = kDlxTempChan then firstRefusal [(v < 32 && dielectricUse d v, ⟨stRange, 0⟩)]
  else if key = kDlxUserCal then
    let w0 := (ws.headD 0).toNat
    let f := w0 % 256
    let b := fld w0 8 8
    firstRefusal [((1 < f || 65536 ≤ w0 || (f == 0 && b != 0) || (f == 1 && (b == 0 || 12 < b)) ||
      (ws.getD 19 0) != 0 || 65536 ≤ (ws.getD 15 0).toNat), ⟨stRange, 0⟩)]
  else none

/-- The block of a STAGED parameter runs (R225). -/
def dlxBusy (d : Dev) (addr : Nat) : Bool :=
  let n := instOf addr
  if keyOf addr = kDlxUserCal then
    [0, 1, 2, 3].any fun k => pget d kDlxEnable k != 0 && pget d kDlxGrain k == 32 + n
  else pget d kDlxEnable n != 0

/-! ## Commands -/

/-- `DLX_READ` (R226). -/
def cmdDlxRead (c : Cmd) (d : Dev) : Dev :=
  if h : targetN c < 4 then
    let n : Fin 4 := ⟨targetN c, h⟩
    let x := d.dlx.ch.get n
    complete c 0 0 (le 4 x.result.toNat ++ le 8 x.resTick ++ le 2 x.density ++ le 2 (accepted x).length ++
      le 4 (dlxState d n)) d
  else refuse c ⟨stRange, 0⟩ d

/-- `DLX_POINT_READ` (R226). Of a point no accepted sweep has, the spec states no values (log entry 4). -/
def cmdDlxPointRead (c : Cmd) (d : Dev) : Dev :=
  let i := byteAt c.payload 0
  if h : targetN c < 4 then
    if 31 < i then refuse c ⟨stRange, 0⟩ d
    else
      match (d.dlx.ch.get ⟨targetN c, h⟩).last[i]? with
      | some (f, e, g) =>
        complete c 0 0 (le 4 (ratRound f).toNat ++ le 4 (toF32 e.re).toNat ++ le 4 (toF32 e.im).toNat ++ le 1 g) d
      | none =>
        complete c 0 0 (le 4 (Config.freeWord d.free).toNat ++ le 4 (Config.freeWord (d.free + 1)).toNat ++
          le 4 (Config.freeWord (d.free + 2)).toNat ++ le 1 (Config.freeWord (d.free + 3)).toNat)
          (takeFree (takeFree (takeFree (takeFree d))))
  else refuse c ⟨stRange, 0⟩ d

/-- The words of `DLX_PROBE_CAL` for the ratios of steps 1 to 3 (R225). -/
def probeCalWords (d : Dev) (n : Nat) (o s l : List Cx) : List Word :=
  let pts := pget d kDlxPoints n
  let f := fun (z : Cx) => [toF32 z.re, toF32 z.im]
  let ws := [w32 (pget d kDlxFStart n), w32 (pts + pget d kDlxSpacing n * 256)] ++
    (List.range pts).flatMap fun i => f (o.getD i ⟨0, 0⟩) ++ f (s.getD i ⟨0, 0⟩) ++ f (l.getD i ⟨0, 0⟩)
  ws ++ List.replicate (194 - ws.length) 0

/-- STORE of R204: writes `DLX_PROBE_CAL`, and C0 and Cf where step 4 or 5 ran. -/
def calStore (c : Cmd) (n : Fin 4) (d : Dev) : Dev :=
  let cal := (d.dlx.ch.get n).cal
  match cal.open_, cal.short, cal.load with
  | some o, some s, some l =>
    let d := setParam (addrOf kDlxProbeCal n) (probeCalWords d n o s l) d
    let air := cal.air.getD (Config.openRat 0)
    let c0 : Rat := match cal.ref with
      | some (r, e) => rdiv (r - air) ((e : Rat) / 1000 - 1)
      | none => pget d kDlxC0Ff n
    let ran := cal.air.isSome || cal.ref.isSome
    let d := if cal.ref.isSome then setParam (addrOf kDlxC0Ff n) [w32 (ffWord c0)] d else d
    let d := if ran then setParam (addrOf kDlxCfFf n) [w32 (ffWord (air - c0))] d else d
    complete c 0 0 (le 4 0 ++ le 4 (pget d kDlxC0Ff n) ++ le 4 (pget d kDlxCfFf n)) d
  | _, _, _ => refuse c (refused 0x31) d

/-- `DLX_PROBE_CAL` (R204, R226): a step waits for its sixteen sweeps; STORE answers at once. -/
def cmdDlxProbeCal (c : Cmd) (d : Dev) : Dev :=
  let step := byteAt c.payload 0
  if h : targetN c < 4 then
    let n : Fin 4 := ⟨targetN c, h⟩
    if step < 1 ∨ 6 < step then refuse c ⟨stRange, 0⟩ d
    else if (d.dlx.ch.get n).mode != 2 then refuse c (refused 0x31) d
    else if step = 6 then calStore c n d
    else
      waitOn c.id (dlxMod n (fun x =>
        { x with steps := x.steps ++
            [{ cmd := c.id, step := step, epsRef := field c.payload 4 4, sweeps := [], overload := false }] }) d)
  else refuse c ⟨stRange, 0⟩ d

/-- The window means of a channel computed by a grain: m_base, x, y, t, rho and the accepted sweeps (R222). -/
def windowMeans (d : Dev) (n : Nat) (x : DlxCh) (grain : Nat) : Rat × Rat × Rat × Rat × Rat × Nat :=
  let freqs := dlxFreqs d n
  let acc := accepted x
  let rs := acc.map fun a => moisture (calOf d grain) freqs a.eps a.t
  (rmean (rs.map (·.mb)), rmean (rs.map (·.x)), rmean (rs.map (·.y)), rmean (acc.map (·.t)), rmean (rs.map (·.rho)),
    acc.length)

/-- A grain number that names a calibration (R225). -/
def grainOk (g : Nat) : Bool := (1 ≤ g && g ≤ 12) || (32 ≤ g && g ≤ 47)

/-- `DLX_REF_CAPTURE` (R222). -/
def cmdDlxRefCapture (c : Cmd) (d : Dev) : Dev :=
  let r := byteAt c.payload 0
  let g := byteAt c.payload 1
  if h : targetN c < 4 ∧ r < 32 then
    let n : Fin 4 := ⟨targetN c, h.1⟩
    let x := d.dlx.ch.get n
    if !grainOk g then refuse c ⟨stRange, 0⟩ d
    else if x.mode != 1 || (windowResult d n x).1 != xOk || (accepted x).isEmpty then refuse c (refused 0x34) d
    else
      let m := windowMeans d n x g
      let d := { d with dlx := { d.dlx with recs := vMod d.dlx.recs ⟨r, h.2⟩ fun y => { y with cap := some m } } }
      complete c 0 0 (le 4 (toF32 m.1).toNat ++ le 4 (toF32 m.2.1).toNat ++ le 4 (toF32 m.2.2.1).toNat ++
        le 4 (toF32 m.2.2.2.1).toNat ++ le 2 (ratRound m.2.2.2.2.1).toNat) d
  else refuse c ⟨stRange, 0⟩ d

/-- `DLX_REF_SET` (R222). -/
def cmdDlxRefSet (c : Cmd) (d : Dev) : Dev :=
  let r := byteAt c.payload 0
  if h : r < 32 then
    complete c 0 0 [] { d with dlx := { d.dlx with recs := vMod d.dlx.recs ⟨r, h⟩ fun y =>
      { y with oven := some (field c.payload 4 2) } } }
  else refuse c ⟨stRange, 0⟩ d

/-- A record of a fit: m_base, x, y, t and the oven moisture in %. -/
structure FitRec where
  mb : Rat
  x : Rat
  y : Rat
  t : Rat
  mo : Rat
  deriving DecidableEq, Repr

/-- The records of a mask that hold a capture and an oven moisture (R223). -/
def fitRecs (d : Dev) (mask : Nat) : List FitRec :=
  (vIdx d.dlx.recs).filterMap fun p =>
    match bitOf mask p.1, p.2.cap, p.2.oven with
    | true, some m, some o => some { mb := m.1, x := m.2.1, y := m.2.2.1, t := m.2.2.2.1, mo := (o : Rat) / 100 }
    | _, _, _ => none

/-- Intercept a and slope b of form 1; none where the equations are singular (R223). -/
def fit1 (rs : List FitRec) : Option (Rat × Rat) :=
  let mbm := rmean (rs.map (·.mb))
  let mom := rmean (rs.map (·.mo))
  let den := rsum (rs.map fun r => (r.mb - mbm) * (r.mb - mbm))
  if den = 0 then none
  else
    let b := rsum (rs.map fun r => (r.mb - mbm) * (r.mo - mom)) / den
    some (mom - b * mbm, b)

/-- Determinant of a matrix of three rows. -/
def det3 (a b c d e f g h i : Rat) : Rat := a * (e * i - f * h) - b * (d * i - f * g) + c * (d * h - e * g)

/-- The target of form 0: the oven moisture less the base grain's temperature term (R223). -/
def fitTarget (base : List Word) (r : FitRec) : Rat :=
  let c := fun k => f32 (calW base (3 + k))
  r.mo - (r.t - f32 (calW base 11)) * (c 6 + c 7 * r.x)

/-- c0, c1 and c2 of form 0 by least squares on 1, x and y (R223); none where the normal equations are singular. -/
def fit0 (base : List Word) (rs : List FitRec) : Option (Rat × Rat × Rat) :=
  let s := fun (f : FitRec → Rat) => rsum (rs.map f)
  let t := fitTarget base
  let n : Rat := rs.length
  let sx := s (·.x)
  let sy := s (·.y)
  let sxx := s fun r => r.x * r.x
  let sxy := s fun r => r.x * r.y
  let syy := s fun r => r.y * r.y
  let st := s t
  let sxt := s fun r => r.x * t r
  let syt := s fun r => r.y * t r
  let dt := det3 n sx sy sx sxx sxy sy sxy syy
  if dt = 0 then none
  else some (det3 st sx sy sxt sxx sxy syt sxy syy / dt, det3 n st sy sx sxt sxy sy syt syy / dt,
    det3 n sx st sx sxx sxt sy sxy syt / dt)

/-- Standard error of a fit: the root of the residual squares over records less terms (R223). -/
def fitError (terms : Nat) (rs : List FitRec) (fitted : FitRec → Rat) (target : FitRec → Rat) : Rat :=
  ratSqrt (rdiv (rsum (rs.map fun r => (target r - fitted r) * (target r - fitted r))) ((rs.length - terms : Nat) : Rat))

/-- The calibration a fit writes (R223): form 1 leaves its ranges at 0, form 0 takes them and c3-c7 from the base. -/
def fitWords (form base : Nat) (c0 c1 c2 : Rat) (rs : List FitRec) : List Word :=
  let bw := factoryCal base
  let xm := toF32 (rmax (rs.map (·.x)))
  let ym := toF32 (rmax (rs.map (·.y)))
  if form = 1 then
    [w32 (1 + base * 256), 0, 0, toF32 c0, toF32 c1] ++ List.replicate 12 0 ++ [xm, ym, 0]
  else [0, calW bw 1, calW bw 2, toF32 c0, toF32 c1, toF32 c2] ++ (bw.drop 6).take 11 ++ [xm, ym, 0]

/-- Completes `DLX_FIT` with its terms, its standard error and the records used; with COMMIT it writes the slot. -/
def fitEnd (c : Cmd) (k form base : Nat) (c0 c1 c2 se : Rat) (rs : List FitRec) (d : Dev) : Dev :=
  let commit := byteAt c.payload 8 = 1
  if commit && dlxBusy d (addrOf kDlxUserCal k) then refuse c ⟨stBusyRunning, 0⟩ d
  else
    let d := if commit then setParam (addrOf kDlxUserCal k) (fitWords form base c0 c1 c2 rs) d else d
    complete c 0 0 (le 4 (toF32 c0).toNat ++ le 4 (toF32 c1).toNat ++ le 4 (toF32 c2).toNat ++ le 4 (toF32 se).toNat ++
      le 1 rs.length) d

/-- `DLX_FIT` (R223, R226). -/
def cmdDlxFit (c : Cmd) (d : Dev) : Dev :=
  let k := byteAt c.payload 0
  let form := byteAt c.payload 1
  let base := byteAt c.payload 2
  let rs := fitRecs d (field c.payload 4 4)
  if 15 < k ∨ 1 < form ∨ base < 1 ∨ 12 < base ∨ 1 < byteAt c.payload 8 then refuse c ⟨stRange, 0⟩ d
  else if rs.length < (if form = 0 then 6 else 4) then refuse c (refused 0x35) d
  else if form = 1 then
    match fit1 rs with
    | none => refuse c (refused 0x36) d
    | some (a, b) => fitEnd c k 1 base a b 0 (fitError 2 rs (fun r => a + b * r.mb) (·.mo)) rs d
  else
    let bw := factoryCal base
    match fit0 bw rs with
    | none => refuse c (refused 0x36) d
    | some (c0, c1, c2) =>
      fitEnd c k 0 base c0 c1 c2 (fitError 3 rs (fun r => c0 + c1 * r.x + c2 * r.y) (fitTarget bw)) rs d

/-- `DLX_CAL_READ` (R226). -/
def cmdDlxCalRead (c : Cmd) (d : Dev) : Dev :=
  let g := byteAt c.payload 0
  let w := byteAt c.payload 1
  if !grainOk g ∨ 15 < w then refuse c ⟨stRange, 0⟩ d
  else complete c 0 0 (bytesOf ((calOf d g ++ List.replicate 20 0).drop w |>.take 5)) d

/-! ## Meanings of the rows -/

def execDlxSweepStart (n : Fin 4) (s : State) := quiet (sweepStart n) s
def execSweepPointEnd (n : Fin 4) (p : SweepPoint) (s : State) := quiet (sweepPointEnd n p) s
def execDxsReferenceCheck (r : DxsCheck) (s : State) := quiet (dxsCheck r) s
def execDxsCalibrationEnd (n : Fin 4) (s : State) := quiet (dxsCalEnd n) s
def execDlxStale (n : Fin 4) (s : State) := quiet (dlxMarkStale n) s
def execDlxRead (c : CmdId) (s : State) := quiet (withCmd 0x1301 c cmdDlxRead) s
def execDlxPointRead (c : CmdId) (s : State) := quiet (withCmd 0x1302 c cmdDlxPointRead) s
def execDlxProbeCal (c : CmdId) (s : State) := quiet (withCmd 0x1303 c cmdDlxProbeCal) s
def execDlxRefCapture (c : CmdId) (s : State) := quiet (withCmd 0x1304 c cmdDlxRefCapture) s
def execDlxRefSet (c : CmdId) (s : State) := quiet (withCmd 0x1305 c cmdDlxRefSet) s
def execDlxFit (c : CmdId) (s : State) := quiet (withCmd 0x1306 c cmdDlxFit) s
def execDlxCalRead (c : CmdId) (s : State) := quiet (withCmd 0x1307 c cmdDlxCalRead) s

end Sys2Proof.Machine
end

