-- ==== Sys2Proof/Machine/Fio.lean ====
section
/-!
DEFINITION. Machine/Fio.lean: the field pins (06): input filters, wire-break detection, counts, outputs and their
protection, safe states and shedding, and the commands of group 0x11.
-/
namespace Sys2Proof.Machine

def pinMod (n : Fin 64) (f : Pin → Pin) (d : Dev) : Dev :=
  { d with fio := { d.fio with pin := vMod d.fio.pin n f } }

def bankMod (b : Fin 8) (f : Bank → Bank) (d : Dev) : Dev :=
  { d with fio := { d.fio with bank := vMod d.fio.bank b f } }

/-- Bank of a pin (R228). -/
def pinBank (n : Fin 64) : Fin 8 := ⟨n.val / 8, by omega⟩

/-- PATH of a pin (R96). -/
def pinPath (n : Fin 64) : Nat := chanPath 1 (pinBank n) n

/-! ## Modes, claims and settings -/

/-- An object, by its MASK bit of R120, is claimed by a service or a loop instance (R230). -/
def claimed (d : Dev) (k : Nat) : Bool := bitOf (d.svc.claims ||| d.ctl.claims) k

/-- The mode a pin runs in: OFF until `RUN` or autostart (R230). -/
def pinMode (d : Dev) (n : Nat) : Nat := if d.svc.ran then pget d kFioMode n else 0

/-- An input mode: DIN, DIN_WB or CNT. -/
def isInput (m : Nat) : Bool := 1 ≤ m && m ≤ 3

/-- An output mode: DOUT or PWM. -/
def isOutput (m : Nat) : Bool := m == 4 || m == 5

/-- A pin's bit of `FIO_OUT_EN`, as the field die uses it (R246, R52). -/
def outEn (d : Dev) (n : Nat) : Bool := bitOf (fpairV d kFioOutEn (n / 8)) (n % 8)

/-- The FIO block of a pin is stopped (R230). -/
def fioStopped (d : Dev) (n : Nat) : Bool :=
  !d.svc.running || (!claimed d n && !bitOf (pairV d kFioOutEn (n / 8)) (n % 8))

/-- The duty a pin's switch is driven with (R246, R251, R252, R261, R263, R494, R495). -/
def pinDrive (d : Dev) (n : Fin 64) : Nat :=
  let p := d.fio.pin.get n
  if d.pwr.hold || !d.pwr.fieldPow || vAt d.pwr.pads 8 false || vAt d.pwr.dom 8 2 != 0 || bitOf d.pwr.pinFail n ||
      !isOutput (pget d kFioMode n) || !outEn d n || p.latched || p.therm then 0
  else if p.safe then
    match fpairV d kFioSafe n with
    | 1 => 255
    | 2 => p.cmd
    | _ => 0
  else if p.shed || !d.svc.ran then 0
  else p.cmd

/-- The duty the pin would be driven with if its switch were not in thermal shut-off (R251). -/
def pinWanted (d : Dev) (n : Fin 64) : Nat := pinDrive (pinMod n (fun p => { p with therm := false }) d) n

/-- VFBn lies below `FIO_VFB_LOW_MV`, so that the bank's load tests are suspended (R259). -/
def bankLowNow (d : Dev) (b : Nat) : Bool := vAt d.pwr.vfb b 0 * 200 < pget d kFioVfbLowMv b

/-- The restarts of the last 10 s (R251). -/
def recentRestarts (d : Dev) (rs : List Nat) : List Nat := rs.filter fun t => d.time.tick - t ≤ 10000

/-! ## Inputs -/

/-- One step of the counter filter of R232. -/
def filterStep (n : Nat) (s : Bool) (count : Nat) (next : Bool) : Nat × Bool :=
  let c := if s then min (count + 1) n else count - 1
  (c, if c = n then true else if c = 0 then false else next)

/-- The band of a current in µA (R235). Currents of exactly 0.5 mA and 1.5 mA, which two rows name, are the open band's (DESIGN
CHOICE, log entry 147). -/
def wireBand (uA : Nat) : WireBand :=
  if uA < 350 then .broken
  else if uA < 500 then .kept
  else if uA ≤ 1500 then .open_
  else if uA ≤ 2500 then .kept
  else .closed

/-- The band of a sample: between two bands the previous one is kept (R235). -/
def pinBand (p : Pin) (smp : PinSample) : WireBand := if wireBand smp.uA == .kept then p.band else wireBand smp.uA

/-- The sample of a pin after inversion; in DIN_WB mode 1 in the closed band (R232). -/
def pinSampleBit (d : Dev) (n : Fin 64) (p : Pin) (smp : PinSample) : Bool :=
  (if pinMode d n = 2 then pinBand p smp == .closed else smp.level) != (pget d kFioInvert n == 1)

/-- Edges that a mode counts: `FIO_CNT_EDGE` 0 rising, 1 falling, 2 both (R238). -/
def countsEdge (d : Dev) (n : Nat) (up : Bool) : Bool :=
  match pget d kFioCntEdge n with
  | 0 => up
  | 1 => !up
  | _ => true

/-- A filtered state that has changed counts and raises its event where they are selected (R238, R243, R244). -/
def pinEdge (n : Fin 64) (up : Bool) (d : Dev) : Dev :=
  let m := pinMode d n
  let d :=
    if m = 3 && countsEdge d n up then pinMod n (fun p => { p with pulses := (p.pulses + 1) % 2 ^ 32 }) d else d
  if isInput m && bitOf (pget d kFioEvtEdge n) (if up then 0 else 1) then ordinary (if up then 0 else 1) n d else d

/-- The events of a pin's first sample are stamped with the relock that called for it, or with the present moment (R262). -/
def freshOpen (d : Dev) (p : Pin) (n : Nat) : MaskFrame :=
  match p.freshAt with
  | some t => { maskOpen d (2 ^ n) with tick := t.1, ofs := t.2 }
  | none => maskOpen d (2 ^ n)

/-- The band of the latest sample, and the contact state it leaves outside the broken band (R235). -/
def bandTake (b : WireBand) (p : Pin) : Pin :=
  { p with band := b, closedLast := if b == .broken then p.closedLast else b == .closed }

/-- The filters of a pin are set from a first sample (R262): filtered state, wire-break state and pending decisions. A state that
differs from the last one reported raises its event where it is selected, and counts nothing (R241, R243). -/
def pinFresh (n : Fin 64) (smp : PinSample) (d : Dev) : Dev :=
  let p := d.fio.pin.get n
  let s := pinSampleBit d n p smp
  let b := pinMode d n == 2 && pinBand p smp == .broken
  let big := pget d kFioFiltN n
  let open_ := freshOpen d p n
  let d := pinMod n (fun p =>
    { bandTake (pinBand p smp) p with
      fresh := false
      freshAt := none
      raw := s
      since := 0
      count := if s then big else 0
      next := s
      filtered := s
      wbCount := if b then big else 0
      wbNext := b
      broken := b }) d
  let edge := s != bitOf p.seen 0 && isInput (pinMode d n) && bitOf (pget d kFioEvtEdge n) (if s then 0 else 1)
  let d := when edge (ordinaryBy open_ (if s then 0 else 1) n) d
  when (b && fld p.seen 2 2 != 2) (ordinaryBy open_ 5 n) d

/-- The filter tick of a pin (R232, R237): the decision of the previous one is published and the filters step on a sample. -/
def filterTake (n : Fin 64) (s : Bool) (d : Dev) : Dev :=
  let p := d.fio.pin.get n
  let big := pget d kFioFiltN n
  let wb := pinMode d n == 2
  let f := filterStep big s p.count p.next
  let w := filterStep big (p.band == .broken) p.wbCount p.wbNext
  let nowBroken := wb && p.wbNext
  let filtered := if nowBroken then p.filtered else p.next
  let d := pinMod n (fun p =>
    { p with
      since := 0
      count := f.1
      next := f.2
      filtered := filtered
      wbCount := if wb then w.1 else 0
      wbNext := wb && w.2
      broken := nowBroken }) d
  let d := if nowBroken && !p.broken then ordinary 5 n d else d
  if filtered != p.filtered then pinEdge n filtered d else d

/-- A 10 µs sample of a pin: the raw bit and the band follow it, and each `FIO_FILT_TICK`-th one is a filter tick (R232, R235). -/
def pinSample (n : Fin 64) (smp : PinSample) (d : Dev) : Dev :=
  let p := d.fio.pin.get n
  if p.fresh then pinFresh n smp d
  else
    let s := pinSampleBit d n p smp
    let d := pinMod n (fun p => { bandTake (pinBand p smp) p with raw := s, since := p.since + 1 }) d
    if pget d kFioFiltTick n ≤ p.since + 1 then filterTake n s d else d

/-- The samples of a pin up to now, oldest first; its filter ticks lie among them (R232). After a reset of the field die they begin
once the pin's mode has arrived (R262). -/
def filterTick (n : Fin 64) (smps : List PinSample) (d : Dev) : Dev :=
  if fieldRuns d && domOn d 8 && pinMode d n != 0 && !d.lift.cfg.any (fun e => e.1 == addrOf kFioMode n) then
    forEach smps (pinSample n) d
  else d

/-- A pin enters its mode with fresh filters and, in CNT mode, a new gate (R240). -/
def pinBegin (cnt : Bool) (p : Pin) : Pin :=
  { p with
    fresh := true
    freshAt := none
    since := 0
    broken := false
    cdTick := none
    gate := none
    gateDue := false
    freq := 0
    freqStale := cnt }

/-- What the block does when one of its parameters takes effect: new filter settings keep the filtered state (R234); a
new mode begins anew; and a pin whose new class is shed is shed, as one whose new class is not is free (R263; log entry 148). -/
def fioHook (addr : Nat) (d : Dev) : Dev :=
  let key := keyOf addr
  if h : instOf addr < 64 then
    let n : Fin 64 := ⟨instOf addr, h⟩
    if key = kFioFiltN ∨ key = kFioFiltTick then
      let big := pget d kFioFiltN n
      pinMod n (fun p =>
        { p with since := 0, count := if p.filtered then big else 0, next := p.filtered,
                 wbCount := if p.broken then big else 0, wbNext := p.broken }) d
    else if key = kFioMode then
      pinMod n (pinBegin (pinMode d n == 3)) d
    else if key = kFioShedClass then
      let shed := vAt d.pwr.shed (pget d kFioShedClass n) false
      pinMod n (fun p => { p with shed := shed && !p.safe }) d
    else d
  else d

/-- Latches every count at a TICK edge, while the field die runs (R25), and clears those `FIO_CNT_CLEAR` names (R239, R241). -/
def fioLatchCounts (d : Dev) : Dev :=
  let t := tickBytes d
  let now := d.time.tick
  let runs := fieldRuns d
  let d := forEach (List.finRange 64) (fun n d => forEach ((d.fio.pin.get n).cntCmd) (fun id d => completeId id 0 0 t d) d) d
  { d with fio := { d.fio with pin := d.fio.pin.map fun p =>
      if p.cntCmd.isEmpty then (if runs then { p with latched_ := p.pulses, latchTick := now } else p)
      else { p with pulses := 0, latched_ := 0, latchTick := now, cntCmd := [], cdTick := none, gate := none, gateDue := false,
                    freq := 0, freqStale := true } } }

/-- The pins in CNT mode, in ascending order, as the uplink counter slots take them (R110). -/
def cntPins (d : Dev) : List (Fin 64) := (List.finRange 64).filter fun n => pinMode d n == 3

/-- A gate of a counting pin ends, and the next begins, with the latch the control die has (R240). The next contains silence where the
Lift is silent now (R241). -/
def gateTake (n : Fin 64) (b : Nat) (d : Dev) : Dev :=
  let p := d.fio.pin.get n
  let silent := d.lift.silent
  match p.gate with
  | none => pinMod n (fun p => { p with gate := some (b, p.cdCount), gateDue := false, gateSilent := silent, freqStale := true }) d
  | some (a, ca) =>
    if b ≤ a then pinMod n (fun p => { p with gateDue := false }) d
    else
      let f := (p.cdCount + 2 ^ 32 - ca) % 2 ^ 32 * 1000000 / (b - a)
      pinMod n (fun p =>
        { p with
          gate := some (b, p.cdCount)
          gateDue := false
          freq := f % 2 ^ 32
          freqStale := p.gateSilent || silent
          gateSilent := silent }) d

/-- At a gate boundary, a TICK edge that is a multiple of `FIO_CNT_GATE_MS`, the control die computes FIO_FREQ; a boundary whose latch
has not come waits for the next that does (R240). -/
def freqGate (n : Fin 64) (d : Dev) : Dev :=
  let g := pget d kFioCntGateMs n
  let edge := d.time.tick / g * g
  if pinMode d n != 3 then d
  else
    match (d.fio.pin.get n).cdTick with
    | some b => if edge ≤ b then gateTake n b d else pinMod n (fun p => { p with gateDue := true }) d
    | none => pinMod n (fun p => { p with gateDue := true }) d

/-- A count reaches the control die with the tick of its latch (R239), and ends a gate that waited for one (R240). -/
def countReceive (n : Fin 64) (d : Dev) : Dev :=
  let p := d.fio.pin.get n
  let t := d.time.tick
  let d := pinMod n (fun p => { p with cdCount := p.latched_, cdTick := some p.latchTick, cntRcv := t }) d
  when p.gateDue (gateTake n p.latchTick) d

/-! ## Outputs and protection -/

/-- An output switch limits an overcurrent; urgent code 0 on the onset (R250). -/
def pinLimit (n : Fin 64) (d : Dev) : Dev :=
  if (d.fio.pin.get n).ilim || pinDrive d n = 0 then d
  else urgent 0 n (pinMod n (fun p => { p with ilim := true }) d)

/-- Limiting ends (R250). -/
def pinLimitEnd (n : Fin 64) (d : Dev) : Dev := pinMod n (fun p => { p with ilim := false }) d

/-- A switch reaches 175 °C and opens; after 8 restarts within 10 s it latches off (R251). -/
def pinThermal (n : Fin 64) (d : Dev) : Dev :=
  let p := d.fio.pin.get n
  if p.therm || p.latched || pinDrive d n = 0 then d
  else
    let latch := 8 ≤ (recentRestarts d p.restarts).length
    let d := urgent 1 n (pinMod n (fun p => { p with therm := true, latched := latch, ilim := false }) d)
    if latch then ordinary 6 n d else d

/-- A switch has cooled to 160 °C and its commanded duty is not 0: it closes again (R251). -/
def pinRestart (n : Fin 64) (d : Dev) : Dev :=
  let p := d.fio.pin.get n
  if !p.therm || p.latched || pinWanted d n = 0 then d
  else urgent 2 n (pinMod n (fun p =>
    { p with therm := false, restarts := d.time.tick :: recentRestarts d p.restarts }) d)

/-- An open-load condition lasts 20 ms (R254): the on-state test with the switch driven, else the off-state test. -/
def openLoad (n : Fin 64) (d : Dev) : Dev :=
  let p := d.fio.pin.get n
  let driven := pinDrive d n != 0
  let allowed :=
    if driven then pget d kFioOlOn n == 1 && !p.reverse
    else isOutput (pinMode d n) && pget d kFioOlOff n == 1 && !p.shortSup
  if p.openLoad.isSome || !allowed || bankLowNow d (pinBank n) || !fieldRuns d then d
  else ordinary 2 n (pinMod n (fun p => { p with openLoad := some (!driven) }) d)

/-- An open-load condition has been absent for 20 ms (R254). -/
def openLoadEnd (n : Fin 64) (d : Dev) : Dev := pinMod n (fun p => { p with openLoad := none }) d

/-- An over-load is declared; it is reported and takes no action (R255). -/
def overLoad (n : Fin 64) (d : Dev) : Dev :=
  if (d.fio.pin.get n).overLoad || pinDrive d n = 0 || !fieldRuns d then d
  else ordinary 3 n (pinMod n (fun p => { p with overLoad := true }) d)

/-- An over-load ends (R255). -/
def overLoadEnd (n : Fin 64) (d : Dev) : Dev := pinMod n (fun p => { p with overLoad := false }) d

/-- An output whose switch is off is shorted to a supply (R256). -/
def shortSupply (n : Fin 64) (d : Dev) : Dev :=
  if (d.fio.pin.get n).shortSup || pinDrive d n != 0 || !isOutput (pinMode d n) || bankLowNow d (pinBank n) ||
      !fieldRuns d then d
  else ordinary 4 n (pinMod n (fun p => { p with shortSup := true }) d)

/-- A short to supply ends (R256). -/
def shortSupplyEnd (n : Fin 64) (d : Dev) : Dev := pinMod n (fun p => { p with shortSup := false }) d

/-- A switch that is on blocks reverse current for 1 ms (R257). -/
def reverseBlock (n : Fin 64) (d : Dev) : Dev :=
  if (d.fio.pin.get n).reverse || pinDrive d n = 0 || !fieldRuns d then d
  else ordinary 4 n (pinMod n (fun p => { p with reverse := true }) d)

/-- Reverse blocking ends (R257). -/
def reverseBlockEnd (n : Fin 64) (d : Dev) : Dev := pinMod n (fun p => { p with reverse := false }) d

/-- A bank's supply has been low in three consecutive input slots: EV_FIO_BANK_LOW once per dip (R259). -/
def bankLow (b : Fin 8) (d : Dev) : Dev :=
  let k := d.fio.bank.get b
  if k.low < 3 || k.lowRaised then d
  else raise 6 0x100D (bankPath 1 b) (le 1 b ++ le 1 (vAt d.pwr.vfb b 0)) (bankMod b (fun k => { k with lowRaised := true }) d)

/-! ## Safe states, shedding and the APPLY -/

/-- A pin enters its safe state (R261): limiting of a switch that opens ends, and a pending RELEASE of it is cancelled
(R128). -/
def pinSafe (n : Fin 64) (d : Dev) : Dev :=
  let d := pinMod n (fun p => { p with safe := true, shed := false, relPend := false }) d
  if pinDrive d n = 0 then pinMod n (fun p => { p with ilim := false }) d else d

/-- A pin is shed: its switch opens and it ignores APPLY (R263). -/
def pinShed (n : Fin 64) (d : Dev) : Dev :=
  if (d.fio.pin.get n).safe then d else pinMod n (fun p => { p with shed := true, ilim := false }) d

/-- EV_FIO_LATCH_CLEARED (R252, R267). -/
def pinUnlatch (n : Fin 64) (why : Nat) (d : Dev) : Dev :=
  raise 6 0x100E (pinPath n) (le 1 n ++ le 1 why)
    (pinMod n (fun p => { p with latched := false, therm := false, restarts := [], latchRec := false }) d)

/-- A pin at an APPLY (R114, R118, R252, R263): `duty` is its duty in the current set; a RELEASE pending for it and a
class released take effect first, and a latch ends by `FIO_CLEAR` or by a commanded duty that rises from 0. A pin that ignores the
APPLY keeps its duty and frequency (R261), and takes the latest ones when it no longer does. -/
def pinApply (n : Fin 64) (duty : Nat) (t : List Byte) (d : Dev) : Dev :=
  let p := d.fio.pin.get n
  let rose := p.duty = 0 && duty != 0
  let d := pinMod n (fun p => { p with duty := duty }) d
  let shed := vAt d.pwr.shed (pget d kFioShedClass n) false
  let d := if p.relPend then pinMod n (fun p => { p with safe := false, relPend := false, shed := shed }) d else d
  let d :=
    if p.clearPend then
      let d := if p.latched then pinUnlatch n 0 d else d
      let d := forEach p.clearCmd (fun id d => completeId id 0 0 t d) d
      pinMod n (fun p => { p with clearPend := false, clearCmd := [] }) d
    else d
  let q := d.fio.pin.get n
  if q.safe || q.shed then d
  else
    let d := if q.latched && rose then pinUnlatch n 1 d else d
    let d := pinMod n (fun p => { p with cmd := duty, hz := p.hzCmd }) d
    if duty = 0 then pinMod n (fun p => { p with ilim := false }) d else d

/-! ## The image and its events -/

/-- A pin has a detection that waits in a mask frame, so that the image still shows its previous state (R242). -/
def pendingUrg (d : Dev) (code : Fin 5) (n : Nat) : Bool := (d.lift.urg.get code).any fun f => bitOf f.mask n
def pendingEvt (d : Dev) (code : Fin 8) (n : Nat) : Bool := (d.lift.evt.get code).any fun f => bitOf f.mask n

/-- Wire state of the image: 0 closed, 1 open, 2 broken, 3 not DIN_WB (R110, R235). -/
def wireState (d : Dev) (n : Fin 64) : Nat :=
  let p := d.fio.pin.get n
  if pinMode d n != 2 then 3 else if p.broken then 2 else if p.closedLast then 0 else 1

/-- The low 20 bits of FIO_STATE as the field die has them (R265). -/
def pinFlags (d : Dev) (n : Fin 64) : Nat :=
  let p := d.fio.pin.get n
  b2n p.filtered + 2 * b2n p.raw + 4 * wireState d n + 16 * b2n (pinDrive d n != 0) + 32 * b2n p.ilim +
    64 * b2n p.therm + 128 * b2n p.latched + 256 * b2n p.openLoad.isSome + 512 * b2n p.overLoad +
    1024 * b2n p.shortSup + 2048 * b2n p.reverse + 4096 * b2n (p.shed && isOutput (pinMode d n)) + 8192 * b2n p.safe +
    65536 * min (recentRestarts d p.restarts).length 15

/-- The same as an image slot shows it: what a pending event frame is still to report keeps its last state (R242). -/
def pinShown (d : Dev) (n : Fin 64) : Nat :=
  let old := (d.fio.pin.get n).seen
  let new := pinFlags d n
  let held : Nat → Bool := fun k =>
    match k with
    | 0 => pendingEvt d 0 n || pendingEvt d 1 n
    | 2 => pendingEvt d 5 n
    | 3 => pendingEvt d 5 n
    | 5 => pendingUrg d 0 n
    | 6 => pendingUrg d 1 n || pendingUrg d 2 n
    | 7 => pendingEvt d 6 n
    | 8 => pendingEvt d 2 n
    | 9 => pendingEvt d 3 n
    | 10 => pendingEvt d 4 n
    | 11 => pendingEvt d 4 n
    | _ => false
  packBits 20 fun k => if held k then bitOf old k else bitOf new k

/-- Fault code of the image from FIO_STATE: 3 thermal shut-off, 2 over-load or limit, 1 open load (`MIR_FFAULT`). -/
def faultCode (st : Nat) : Nat :=
  if bitOf st 6 || bitOf st 7 then 3 else if bitOf st 5 || bitOf st 9 then 2 else if bitOf st 8 then 1 else 0

/-- Byte of a pin in the input image (R110). -/
def imageByte (st : Nat) : Nat :=
  128 * b2n (bitOf st 0) + 64 * b2n (bitOf st 1) + 16 * faultCode st + 4 * fld st 2 2

/-- The control die receives the image slot of a bank with VFBn in 0.2 V (R110, R237, R242, R259). -/
def fioReceive (b : Fin 8) (vfb : Nat) (d : Dev) : Dev :=
  let d := { d with pwr := { d.pwr with vfb := d.pwr.vfb.set b vfb } }
  let low := bankLowNow d b
  let d := bankMod b (fun k =>
    { k with low := if low then min (k.low + 1) 3 else 0, lowRaised := low && k.lowRaised, imgTick := d.time.tick }) d
  forEach ((List.finRange 64).filter fun n => pinBank n == b) (fun n d =>
    let d := if low then pinMod n (fun p => { p with openLoad := none, shortSup := false }) d else d
    let old := (d.fio.pin.get n).seen
    let new := pinShown d n
    let d := pinMod n (fun p => { p with seen := new }) d
    if fld old 2 2 == 2 && fld new 2 2 != 2 && fld new 2 2 != 3 then
      raise 6 0x100C (pinPath n) (le 1 n ++ le 1 (fld new 2 2)) d
    else d) d

/-- Events of a pin named in an urgent frame, on port 0 (R267). -/
def pinUrgent (code : Nat) (n : Fin 64) (dt : Nat) (d : Dev) : Dev :=
  let k := (recentRestarts d (d.fio.pin.get n).restarts).length
  match code with
  | 0 => raiseAt 0 0x1003 (pinPath n) dt (timeWord d) (le 1 n) d
  | 1 => raiseAt 0 0x1004 (pinPath n) dt (timeWord d) (le 1 n ++ le 1 k) d
  | _ => raiseAt 0 0x1005 (pinPath n) dt (timeWord d) (le 1 n ++ le 1 (max 1 (min k 8))) d

/-- Events of a pin named in an ordinary frame, on port 7 (R267). -/
def pinOrdinary (code : Nat) (n : Fin 64) (dt : Nat) (d : Dev) : Dev :=
  let p := d.fio.pin.get n
  let ev := fun (c : Nat) (data : List Byte) => raiseAt 7 c (pinPath n) dt (timeWord d) (le 1 n ++ data) d
  let vfb := le 1 (vAt d.pwr.vfb (pinBank n) 0)
  match code with
  | 0 => ev 0x1001 (le 1 (pinMode d n))
  | 1 => ev 0x1002 (le 1 (pinMode d n))
  | 2 => ev 0x1007 (le 1 (b2n (p.openLoad.getD false)))
  | 3 => ev 0x1008 []
  | 4 => if pinDrive d n != 0 then ev 0x100A vfb else ev 0x1009 vfb
  | 5 => ev 0x100B (le 1 (b2n p.filtered))
  | _ =>
    raiseAt 7 0x1006 (pinPath n) dt (timeWord d) (le 1 n) (pinMod n (fun p => { p with latchRec := true }) d)

/-! ## Relock and resets -/

/-- After relock every filter is set from the first sample, and its events are stamped with the relock (R262). -/
def fioRelock (d : Dev) : Dev :=
  let at_ := (d.lift.fTick, fieldOfs d)
  { d with fio := { d.fio with pin := d.fio.pin.map fun p =>
      { p with fresh := true, freshAt := if p.fresh then p.freshAt else some at_ } } }

/-- Lift silence falls in the present gate of every counting pin (R241). -/
def fioSilence (d : Dev) : Dev :=
  forEach (cntPins d) (fun n d => pinMod n (fun p => { p with gateSilent := true, freqStale := true }) d) d

/-- The pin after a reset of the field die (R252, R262): counts and filters start afresh, every duty is 0 and every
frequency 100 Hz, and a latch the control die has recorded is sent again. -/
def pinFieldReset (cnt : Bool) (p : Pin) : Pin :=
  { Pin.reset with
    fresh := true
    duty := p.duty
    cntRcv := p.cntRcv
    latched := p.latchRec
    latchRec := p.latchRec
    clearCmd := p.clearCmd
    clearPend := p.clearPend
    cntCmd := p.cntCmd
    seen := p.seen
    freqStale := cnt }

/-- The frequency changes a bank is due after a reset of the field die: each pin whose `FIO_PWM_HZ` is not the 100 Hz the reset
leaves (R247). -/
def freqAgain (d : Dev) (b : Nat) : List (Nat × Nat) :=
  (List.range 8).filterMap fun k =>
    let hz := pget d kFioPwmHz (8 * b + k)
    if hz = 100 then none else some (k, hz)

/-! ## Reads, checks and commands -/

/-- `FIO_STATE` (R265). -/
def fioState (d : Dev) (n : Fin 64) : Nat :=
  let p := d.fio.pin.get n
  fld p.seen 0 14 + 16384 * b2n (claimed d n) + 32768 * b2n (bitOf (pairV d kFioOutEn (n.val / 8)) (n.val % 8)) +
    65536 * fld p.seen 16 4 + 1048576 * b2n p.freqStale

/-- READ parameters of the field pins (R265). -/
def fioRead (d : Dev) (addr : Nat) : List Word :=
  let key := keyOf addr
  if key = kFioVfb then [w32 (vAt d.pwr.vfb (instOf addr) 0 * 200)]
  else if h : instOf addr < 64 then
    let n : Fin 64 := ⟨instOf addr, h⟩
    let p := d.fio.pin.get n
    if key = kFioState then [w32 (fioState d n)]
    else if key = kFioCount then [w32 p.cdCount]
    else [w32 p.freq]
  else [0]

/-- The refusals of this chapter for a parameter write, beyond class and range (R246, R264). -/
def fioCheck (d : Dev) (addr : Nat) (ws : List Word) : Option Refuse :=
  let key := keyOf addr
  let n := instOf addr
  let v := (ws.headD 0).toNat
  let mode := pinMode d n
  if key = kFioOut then
    firstRefusal [
      (claimed d n, refused 0x10),
      (!isOutput mode, refused 0x11),
      (mode == 4 && v != 0 && v != 255, ⟨stRange, 0⟩)]
  else if key = kFioSafe then firstRefusal [(v == 1 && pget d kFioShedClass n != 0, refused 0x12)]
  else if key = kFioShedClass then firstRefusal [(v != 0 && pairV d kFioSafe n == 1, refused 0x12)]
  else none

/-- `FIO_READ` (R266), with the tick of the newest slot that it reports (R70). -/
def cmdFioRead (c : Cmd) (d : Dev) : Dev :=
  if h : targetN c < 64 then
    let n : Fin 64 := ⟨targetN c, h⟩
    let p := d.fio.pin.get n
    complete c 0 0 (le 4 (fioState d n) ++ le 4 p.cdCount ++ le 4 p.freq ++
      le 8 (max (d.fio.bank.get (pinBank n)).imgTick p.cntRcv)) d
  else refuse c ⟨stRange, 0⟩ d

/-- `FIO_CLEAR` (R252, R266): the latch ends at the next APPLY, where the command completes. -/
def cmdFioClear (c : Cmd) (d : Dev) : Dev :=
  if h : targetN c < 64 then
    let n : Fin 64 := ⟨targetN c, h⟩
    if bitOf d.pwr.pinFail n then refuse c (refused 0x94) d
    else if !(d.fio.pin.get n).latchRec then refuse c (refused 0x13) d
    else begin_ c.id (pinMod n (fun p => { p with clearPend := true, clearCmd := p.clearCmd ++ [c.id] }) d)
  else refuse c ⟨stRange, 0⟩ d

/-- `FIO_CNT_CLEAR` (R241, R266): the count becomes 0 at the next TICK edge. -/
def cmdFioCntClear (c : Cmd) (d : Dev) : Dev :=
  if h : targetN c < 64 then
    if bitOf d.pwr.pinFail (targetN c) then refuse c (refused 0x94) d
    else waitOn c.id (pinMod ⟨targetN c, h⟩ (fun p => { p with cntCmd := p.cntCmd ++ [c.id] }) d)
  else refuse c ⟨stRange, 0⟩ d

/-- `FIO_BANK_READ` (R266). -/
def cmdFioBankRead (c : Cmd) (d : Dev) : Dev :=
  if h : targetN c < 8 then
    let b : Fin 8 := ⟨targetN c, h⟩
    let img := (List.range 8).flatMap fun k =>
      le 1 (imageByte (vAt d.fio.pin (8 * b.val + k) Pin.reset).seen)
    complete c 0 0 (img ++ le 4 (vAt d.pwr.vfb b 0 * 200) ++ le 1 (pairV d kFioOutEn b) ++ [0, 0, 0] ++
      le 4 (d.fio.bank.get b).imgTick) d
  else refuse c ⟨stRange, 0⟩ d

/-! ## Meanings of the rows -/

def execFilterTick (n : Fin 64) (smps : List PinSample) (s : State) := quiet (filterTick n smps) s
def execFreqGate (n : Fin 64) (s : State) := quiet (freqGate n) s
def execCurrentLimit (n : Fin 64) (s : State) := quiet (pinLimit n) s
def execCurrentLimitEnd (n : Fin 64) (s : State) := quiet (pinLimitEnd n) s
def execPinThermalShutoff (n : Fin 64) (s : State) := quiet (pinThermal n) s
def execPinThermalRestart (n : Fin 64) (s : State) := quiet (pinRestart n) s
def execOpenLoad (n : Fin 64) (s : State) := quiet (openLoad n) s
def execOverLoad (n : Fin 64) (s : State) := quiet (overLoad n) s
def execShortToSupply (n : Fin 64) (s : State) := quiet (shortSupply n) s
def execReverseBlocking (n : Fin 64) (s : State) := quiet (reverseBlock n) s
def execOpenLoadEnd (n : Fin 64) (s : State) := quiet (openLoadEnd n) s
def execOverLoadEnd (n : Fin 64) (s : State) := quiet (overLoadEnd n) s
def execShortToSupplyEnd (n : Fin 64) (s : State) := quiet (shortSupplyEnd n) s
def execReverseBlockingEnd (n : Fin 64) (s : State) := quiet (reverseBlockEnd n) s
def execBankLow (b : Fin 8) (s : State) := quiet (bankLow b) s
def execFioRead (c : CmdId) (s : State) := quiet (withCmd 0x1101 c cmdFioRead) s
def execFioClear (c : CmdId) (s : State) := quiet (withCmd 0x1102 c cmdFioClear) s
def execFioCntClear (c : CmdId) (s : State) := quiet (withCmd 0x1103 c cmdFioCntClear) s
def execFioBankRead (c : CmdId) (s : State) := quiet (withCmd 0x1104 c cmdFioBankRead) s

end Sys2Proof.Machine
end

