-- ==== Sys2Proof/Machine/Vlv.lean ====
section
/-!
DEFINITION. Machine/Vlv.lean: the valve drive channels (07): pulse profiles, shared switches, diagnostics, trips and
latches, the duty limit, safe states and shedding, reports, and the commands of group 0x14.
-/
namespace Sys2Proof.Machine

def vlvMod (n : Fin 16) (f : VlvCh → VlvCh) (d : Dev) : Dev :=
  { d with vlv := { d.vlv with ch := vMod d.vlv.ch n f } }

def vlvCh (d : Dev) (n : Fin 16) : VlvCh := d.vlv.ch.get n

/-- PATH of a valve channel: its group and its place in it (R96, R268). -/
def vlvPath (n : Fin 16) : Nat := chanPath 4 (n.val / 2) n

/-- Pair of a channel, the other channel of the pair, and the pair's channels (R268). -/
def vlvPair (n : Fin 16) : Fin 8 := ⟨n.val / 2, by omega⟩
def vlvPartner (n : Fin 16) : Fin 16 := ⟨if n.val % 2 = 0 then n.val + 1 else n.val - 1, by split <;> omega⟩
def pairEven (p : Fin 8) : Fin 16 := ⟨2 * p.val, by omega⟩
def pairOdd (p : Fin 8) : Fin 16 := ⟨2 * p.val + 1, by omega⟩

/-- The field die's time in periods of 125 ns: the tick, and the offset that the Lift's frames count (R103). -/
def fieldNow (d : Dev) : Nat := d.time.tick * 8000 + fieldOfs d

/-! ## Modes and settings -/

/-- The mode a channel runs in: OFF until `RUN` or autostart (R275). -/
def vlvMode (d : Dev) (n : Nat) : Nat := if d.svc.ran then pget d kVlvMode n else 0

/-- A channel is the slave of a paralleled pair (R274). -/
def vlvSlave (d : Dev) (n : Nat) : Bool := n % 2 == 1 && (pget d kVlvMode (n - 1) == 3 || pget d kVlvMode (n - 1) == 4)

/-- The pair of a channel is paralleled, and the channel that holds its profile (R285). -/
def vlvJoined (d : Dev) (n : Fin 16) : Bool := 3 ≤ pget d kVlvMode (pairEven (vlvPair n))
def vlvLead (d : Dev) (n : Fin 16) : Fin 16 := if vlvJoined d n then pairEven (vlvPair n) else n

/-- A channel runs pulses: PULSE or PARALLEL (R274). -/
def isPulseMode (m : Nat) : Bool := m == 1 || m == 3

/-- A channel regulates continuously: PROP or PARALLEL_PROP (R274). -/
def isPropMode (m : Nat) : Bool := m == 2 || m == 4

/-- A channel's bit of `VLV_OUT_EN`, as the field die uses it (R275, R52). -/
def vlvEn (d : Dev) (n : Nat) : Bool := bitOf (fpairV d kVlvOutEn (n / 4)) (n % 4)

/-- The VLV block of a channel is stopped (R275). -/
def vlvStopped (d : Dev) (n : Nat) : Bool :=
  !d.svc.running || (!claimed d (64 + n) && !bitOf (pairV d kVlvOutEn (n / 4)) (n % 4))

/-- A channel may drive current at all (R275, R494, R495). -/
def vlvDrives (d : Dev) (n : Fin 16) : Bool :=
  d.pwr.fieldPow && !d.pwr.hold && !vAt d.pwr.pads 8 false && domOn d 8 && !bitOf d.pwr.vdFail n &&
    vlvMode d n != 0 && !vlvSlave d n && vlvEn d n && !(vlvCh d n).latched

/-- A low-side switch or the pair's HSn is in thermal shut-off (R289). -/
def vlvHot (d : Dev) (n : Fin 16) : Bool :=
  (vlvCh d n).therm || (d.vlv.hs.get (vlvPair n)).therm ||
    (3 ≤ pget d kVlvMode n && (vlvCh d (vlvPartner n)).therm)

/-- Step F2 is in force (R298). -/
def f2On (d : Dev) : Bool := 2 ≤ d.pwr.fStep

/-- The partner a channel shares HSn with; none in a paralleled pair (R285, R293). -/
def sharing (d : Dev) (n : Fin 16) : Option VlvCh :=
  if 3 ≤ pget d kVlvMode n ∨ vlvSlave d n then none else some (vlvCh d (vlvPartner n))

/-- A partner that counts as energised (R295). -/
def energised (p : VPhase) : Bool := p == .peak || p == .hold || p == .prop || p == .safeSet

/-- A pulse profile runs, from its start to the end of REPORT (R278). -/
def profileRuns (c : VlvCh) : Bool :=
  c.phase == .delay || c.phase == .defer || c.phase == .shedWait || c.phase == .report || c.prof.isSome || c.next.isSome

/-! ## Profiles -/

/-- A detection of valve diagnostics, with the kind that the completion of the profile reports (R286, R301). -/
def vlvDiag (n : Fin 16) (kind : Nat) (d : Dev) : Dev := diag n kind (vlvMod n (fun c => { c with lastKind := kind }) d)

/-- A report of a pulse that never energised (R280). -/
def reportNever (cause : Nat) (cmd : Option CmdId) (tick : Nat) (stays : Bool) : Report where
  ttp := none
  defer := none
  cause := cause
  ignored := 0
  cmd := cmd
  ignoredCmds := []
  tick := tick
  sel := 1
  stays := stays

/-- The current of a channel decays (R295). -/
def decaying (p : VPhase) : Bool := p == .decaySlow || p == .decayFast

/-- The phase a channel rests in by its mode and state (R275, R279, R289). A proportional channel that may drive no current, or stays
off in its safe state or shed, shows OFF. -/
def restPhase (d : Dev) (n : Fin 16) : VPhase :=
  let c := vlvCh d n
  if c.latched then .latched
  else if d.svc.ran && vlvSlave d n then .slave
  else if isPulseMode (vlvMode d n) then .idle
  else if isPropMode (vlvMode d n) && vlvDrives d n && !c.safe && !c.shed then .prop
  else .off

/-- The profile ends before it energised: it is reported with deferral 0xFF (R280). A PEAK that a safe state asks for and that
still waits is given up without a report. -/
def endNever (n : Fin 16) (cause : Nat) (d : Dev) : Dev :=
  match (vlvCh d n).prof with
  | none => vlvMod n (fun c => { c with phase := restPhase d n, safePeak := false }) d
  | some p =>
    vlvMod n (fun c =>
      { c with
        phase := .report
        prof := none
        reports := c.reports ++ [{ reportNever cause p.cmd p.tick false with
          ignored := c.ignored, ignoredCmds := c.ignoredCmds }]
        ignored := 0
        ignoredCmds := []
        cause := 0 }) d

/-- A pulse that waited for a safe SET's decay ends before it energised, and the channel stays in its phase (R596, R297). -/
def nextEnds (n : Fin 16) (cause : Nat) (d : Dev) : Dev :=
  vlvMod n (fun c =>
    match c.next with
    | none => c
    | some p =>
      { c with
        next := none
        reports := c.reports ++ [{ reportNever cause p.cmd p.tick true with ignored := c.ignored, ignoredCmds := c.ignoredCmds }]
        ignored := 0
        ignoredCmds := [] }) d

/-- The profile ends: its report waits for three status slots (R280). -/
def endProfile (n : Fin 16) (d : Dev) : Dev :=
  vlvMod n (fun c =>
    match c.prof with
    | none => c
    | some p =>
      { c with
        phase := .report
        prof := none
        reports := c.reports ++ [{
          ttp := if c.openCoil && !c.coilSeen then none else c.ttp
          defer := some c.defer
          cause := c.cause
          ignored := c.ignored
          cmd := p.cmd
          ignoredCmds := c.ignoredCmds
          tick := p.tick
          sel := 1
          stays := false }]
        openCoil := c.openCoil && !c.coilSeen
        ignored := 0
        ignoredCmds := []
        cause := 0 }) d

/-- The channel enters PEAK (R281). -/
def enterPeak (n : Fin 16) (deferUs : Nat) (d : Dev) : Dev :=
  vlvMod n (fun c => { c with phase := .peak, ttp := none, defer := deferUs / 10, coilSeen := false, hot := true }) d

/-- The partner's PEAK or DECAY_FAST makes a channel wait (R293). -/
def mustDefer (d : Dev) (n : Fin 16) : Bool :=
  match sharing d n with
  | none => false
  | some p => p.phase == .peak || p.phase == .decayFast

/-- A deferral that cannot be rejects the profile: kind 4, cause 5 (R294). -/
def deferReject (n : Fin 16) (d : Dev) : Dev := endNever n 5 (vlvDiag n 4 d)

/-- DELAY has ended: PEAK, or DEFER while the partner is in PEAK or DECAY_FAST (R281, R293, R294). -/
def afterDelay (n : Fin 16) (d : Dev) : Dev :=
  let c := vlvCh d n
  if mustDefer d n then
    if !c.safePeak && (c.prof.map (·.deferMax)).getD 0 = 0 then deferReject n d
    else vlvMod n (fun c => { c with phase := .defer, deferAt := fieldNow d }) d
  else enterPeak n 0 d

/-- The deferral of a channel so far, in µs, by the field die's time (R294). -/
def deferredUs (d : Dev) (n : Fin 16) : Nat := (fieldNow d - (vlvCh d n).deferAt) / 8

/-- A channel in DEFER enters PEAK now: its partner is in neither phase that it waits for, and the field die starts pulses, or the
PEAK is that of a safe state (R25, R293, R297). -/
def wakes (d : Dev) (n : Fin 16) : Bool :=
  (vlvCh d n).phase == .defer && !mustDefer d n && (fieldRuns d || (vlvCh d n).safePeak)

/-- A phase of the partner that made a channel wait has ended: the channel enters PEAK at that instant, after the
deferral it has measured (R293). -/
def wakePartner (n : Fin 16) (deferUs : Nat) (d : Dev) : Dev :=
  match sharing d n with
  | none => d
  | some _ => if wakes d (vlvPartner n) then enterPeak (vlvPartner n) deferUs d else d

/-- The same where protection, a stop, shedding or a fallen enable has ended phases: every channel that need wait no more enters
PEAK, after the deferral that the field die's time gives (R293, R294; log entry 149). -/
def wakeAll (d : Dev) : Dev :=
  forEach (List.finRange 16) (fun n d => if wakes d n then enterPeak n (deferredUs d n) d else d) d

/-- A channel starts its decay (R295): a requested fast decay turns slow while the partner is energised. -/
def startDecay (n : Fin 16) (fast partnerOn : Bool) (d : Dev) : Dev :=
  if fast && partnerOn then vlvDiag n 5 (vlvMod n (fun c => { c with phase := .decaySlow, forced := true }) d)
  else vlvMod n (fun c => { c with phase := if fast then .decayFast else .decaySlow, forced := false }) d

/-- The partner is energised now (R295). -/
def partnerOn (d : Dev) (n : Fin 16) : Bool :=
  match sharing d n with
  | none => false
  | some p => energised p.phase

/-- The decay a running profile asked for, else the parameter's (R281, R297). -/
def wantsFast (d : Dev) (n : Fin 16) : Bool :=
  match (vlvCh d n).prof with
  | some p => p.fast
  | none => pget d kVlvDecay n == 1

/-- The profile parameters in force at an APPLY (R281, R282). -/
def profileOf (d : Dev) (n : Fin 16) (holdT tick : Nat) (cmd : Option CmdId) : Profile where
  delayUs := pget d kVlvDelayUs n
  peakMa := pget d kVlvPeakMa n
  peakMaxUs := pget d kVlvPeakMaxUs n
  dwellUs := pget d kVlvPeakDwellUs n
  holdMa := pget d kVlvHoldMa n
  holdT := if holdT = 0 then pget d kVlvHoldT n else holdT
  fast := pget d kVlvDecay n == 1
  ttpMin := pget d kVlvTtpMinUs n
  ttpMax := pget d kVlvTtpMaxUs n
  deferMax := pget d kVlvDeferMaxUs n
  cmd := cmd
  tick := tick

/-- A profile starts at its APPLY: SHED_WAIT during F2, DELAY, or PEAK at once (R281, R298). -/
def beginProfile (n : Fin 16) (p : Profile) (d : Dev) : Dev :=
  let d := vlvMod n (fun c =>
    { c with prof := some p, ttp := none, defer := 0, cause := 0, fault := false, hsFault := false,
             phase := .delay, next := none }) d
  if f2On d then vlvMod n (fun c => { c with phase := .shedWait }) d
  else if p.delayUs = 0 then afterDelay n d
  else d

/-! ## The open set -/

/-- The slot of a channel in the open set takes a SETPOINT (R276). The slot of a channel in a proportional mode is of KIND 2; that
of another channel keeps the pulse it carries. -/
def openProp (n : Fin 16) (v : Nat) (d : Dev) : Dev :=
  let slot : Fin 24 := ⟨8 + n.val, by omega⟩
  let prop := isPropMode (pget d kVlvMode n)
  let f : SlotVal := match d.lift.opened.get slot with
    | .valve c =>
      if prop then .valve { c with kind := 2, setMa := v, holdT := 0 }
      else .valve { c with kind := if c.kind = 2 then 0 else c.kind, setMa := v }
    | .bank ds fr => .bank ds fr
  { d with lift := { d.lift with opened := d.lift.opened.set slot f, openMask := d.lift.openMask ||| 2 ^ slot.val } }

/-! ## Shedding and the end of a drive -/

/-- A channel is shed (R299): its profile ends with cause 3, or PROP falls to 0 mA, by decay under R295. -/
def vlvShed (n : Fin 16) (d : Dev) : Dev :=
  let c := vlvCh d n
  if c.safe then d
  else
    let d := nextEnds n 3 (vlvMod n (fun c => { c with shed := true }) d)
    match c.phase with
    | .delay => endNever n 3 d
    | .defer => endNever n 3 d
    | .shedWait => endNever n 3 d
    | .peak => startDecay n (wantsFast d n) (partnerOn d n) (vlvMod n (fun c => { c with cause := 3 }) d)
    | .hold => startDecay n (wantsFast d n) (partnerOn d n) (vlvMod n (fun c => { c with cause := 3 }) d)
    | .prop => startDecay n (wantsFast d n) (partnerOn d n) (vlvMod n (fun c => { c with sp := 0 }) d)
    | _ => d

/-- The channel may drive no more, by its mode or its enable (R274, R275): a pulse that waits ends with cause 8; a current that
flows decays, and the end cause of a profile that energised is a free value among those of such profiles (R280; log entry 35). -/
def vlvCut (n : Fin 16) (d : Dev) : Dev :=
  let ended := fun (d : Dev) =>
    let cause := (Config.freeWord d.free).toNat % 5
    startDecay n (wantsFast d n) (partnerOn d n) (vlvMod n (fun c => { c with cause := cause, safePeak := false }) (takeFree d))
  let c := vlvCh d n
  let d := nextEnds n 8 d
  match c.phase with
  | .delay => endNever n 8 d
  | .defer => endNever n 8 d
  | .shedWait => endNever n 8 d
  | .peak => if c.prof.isSome then ended d
    else startDecay n (wantsFast d n) (partnerOn d n) (vlvMod n (fun c => { c with safePeak := false }) d)
  | .hold => ended d
  | .safeSet => startDecay n (wantsFast d n) (partnerOn d n) d
  | .prop => startDecay n (wantsFast d n) (partnerOn d n) d
  | _ => d

/-! ## Parameters -/

/-- A channel that runs neither a profile nor a decay takes the phase it rests in (R279, R281). -/
def vlvRest (n : Fin 16) (d : Dev) : Dev :=
  vlvMod n (fun c => { c with phase := if profileRuns c || decaying c.phase then c.phase else restPhase d n }) d

/-- What the block does when one of its parameters takes effect. A new mode sets the phase the channel and its partner rest in and
the KIND of its slot; a profile that still runs comes to its end first (R274, R276, R279, R281). A new class sheds or frees the
channel (R299; log entry 148). -/
def vlvHook (addr : Nat) (d : Dev) : Dev :=
  if h : instOf addr < 16 then
    let n : Fin 16 := ⟨instOf addr, h⟩
    if keyOf addr = kVlvMode then
      let d := if vlvMode d n = 0 then vlvCut n d else d
      let d := vlvRest n (vlvMod n (fun c => { c with sp := 0, tripSp := none }) d)
      let d := if claimed d (64 + n) then d else openProp n (pget d kVlvPropMa n) d
      if n.val % 2 = 0 then vlvRest (vlvPartner n) d else d
    else if keyOf addr = kVlvShedClass then
      if vAt d.pwr.shed (pget d kVlvShedClass n) false then wakeAll (vlvShed n d)
      else vlvMod n (fun c => { c with shed := false }) d
    else d
  else d

/-- A TICK edge moves the phase of each dither on; it runs without reset while the channel's mode is proportional (R283). -/
def vlvDither (d : Dev) : Dev :=
  forEach (List.finRange 16) (fun n d =>
    vlvMod n (fun c => { c with dither := (c.dither + pget d kVlvDitherHz n) % 1000 }) d) d

/-- A period of the dither has begun since the TICK edge before, or the channel has no dither (R283, R300). -/
def ditherBegins (d : Dev) (n : Fin 16) : Bool :=
  let hz := pget d kVlvDitherHz n
  hz == 0 || !isPropMode (vlvMode d n) || (vlvCh d n).dither < hz

/-! ## Events of a profile -/

/-- A pulse's DELAY ends (R281). It runs on FCLK and stands while the Lift is out of lock (R25; log entry 150). -/
def delayEnd (n : Fin 16) (d : Dev) : Dev :=
  if (vlvCh d n).phase == .delay && fieldRuns d then afterDelay n d else d

/-- Deferral would reach `VLV_DEFER_MAX_US` (R294). A PEAK run for a safe state is never rejected (R297). -/
def deferExpired (n : Fin 16) (d : Dev) : Dev :=
  if (vlvCh d n).phase == .defer && !(vlvCh d n).safePeak then deferReject n d else d

/-- The current first reaches `VLV_PEAK_MA`, after a time in µs that is judged unless F2 is in force (R286, R298). -/
def peakReached (n : Fin 16) (us : Nat) (d : Dev) : Dev :=
  let c := vlvCh d n
  if !(c.phase == .peak && c.ttp.isNone) then d
  else
    let d := vlvMod n (fun c => { c with ttp := some (us / 10), coilSeen := true }) d
    if f2On d then d
    else match c.prof with
      | none => d
      | some p => if us < p.ttpMin then vlvDiag n 1 d else if p.ttpMax < us then vlvDiag n 2 d else d

/-- PEAK ends: HOLD follows, or what the safe state asks for, or the decay of a profile whose end is decided; kind 3 where the
peak was never reached (R281, R286, R297, R298). `deferUs` is the deferral measured of a waiting partner, which enters PEAK now. -/
def peakEnd (n : Fin 16) (deferUs : Nat) (d : Dev) : Dev :=
  let c := vlvCh d n
  if c.phase != .peak then d
  else
    let d := if c.ttp.isNone && !f2On d && c.prof.isSome then vlvDiag n 3 d else d
    let d :=
      if c.safePeak then
        let d := if c.prof.isSome then endProfile n d else d
        vlvMod n (fun c => { c with phase := .safeSet, safePeak := false }) d
      else if c.prof.isSome && c.cause != 0 then startDecay n (wantsFast d n) (partnerOn d n) d
      else vlvMod n (fun c => { c with phase := .hold, hot := true }) d
    wakePartner n deferUs d

/-- HOLD_T has elapsed: the channel starts its decay (R281, R295). -/
def holdEnd (n : Fin 16) (d : Dev) : Dev :=
  if (vlvCh d n).phase == .hold then startDecay n (wantsFast d n) (partnerOn d n) d else d

/-- A pulse that waited for a decay starts, where the field die starts pulses (R25, R297). -/
def nextBegins (n : Fin 16) (d : Dev) : Dev :=
  let c := vlvCh d n
  match c.next with
  | none => d
  | some p =>
    if !fieldRuns d || decaying c.phase then d
    else if c.latched || vlvHot d n then nextEnds n 2 d
    else beginProfile n p d

/-- The field die is in lock again: what had to wait for that starts (R25). -/
def vlvRelock (d : Dev) : Dev := wakeAll (forEach (List.finRange 16) nextBegins d)

/-- The current falls below 20 mA: REPORT, or the phase the channel rests in where no profile ends (R281, R297). A
pulse that waited for this decay enters DELAY now, or when the field die is in lock again (R25). -/
def decayEnd (n : Fin 16) (deferUs : Nat) (d : Dev) : Dev :=
  let c := vlvCh d n
  if !decaying c.phase then d
  else
    let wasFast := c.phase == .decayFast
    let d :=
      if c.prof.isSome then endProfile n d
      else
        nextBegins n (vlvMod n (fun c => { c with phase := restPhase d n }) d)
    if wasFast then wakePartner n deferUs d else d

/-- A channel's profile or current ends by protection, by slow decay that no fast one was turned into (R279, R288, R289): `cause`
is the end cause of its profile, also of one whose current decays already. -/
def protectEnd (n : Fin 16) (cause : Nat) (d : Dev) : Dev :=
  let c := vlvCh d n
  let slow := vlvMod n (fun c => { c with phase := .decaySlow, cause := cause, safePeak := false, forced := false })
  match c.phase with
  | .delay => endNever n cause d
  | .defer => endNever n cause d
  | .shedWait => endNever n cause d
  | .peak => slow d
  | .hold => slow d
  | .safeSet => slow d
  | .decaySlow => vlvMod n (fun c => { c with cause := cause }) d
  | .decayFast => slow d
  | _ => d

/-- The channels that a fault of a switch turns off: both of the pair for HSn and for a paralleled pair, else the channel (R285,
R288). -/
def vlvOff (d : Dev) (n : Fin 16) (hs : Bool) : List (Fin 16) :=
  if hs || vlvJoined d n then [pairEven (vlvPair n), pairOdd (vlvPair n)] else [n]

/-- The channels whose profile such a fault ends: a paralleled pair has one (R285). -/
def vlvEnded (d : Dev) (n : Fin 16) (hs : Bool) : List (Fin 16) := (vlvOff d n hs).filter fun k => vlvLead d k == k

/-- A switch of a channel carries current. HSn carries that of a decay too. A slave drives while its own enable is 1 (R275). -/
def carries (d : Dev) (n : Fin 16) (hs : Bool) : Bool :=
  let k := vlvLead d n
  let p := (vlvCh d k).phase
  d.pwr.fieldPow && (k == n || vlvEn d n) && (energised p || (hs && decaying p))

/-- A trip of a switch of one channel: urgent code 0 (R288). -/
def vlvTripMark (hs : Bool) (n : Fin 16) (d : Dev) : Dev :=
  urgent 0 (64 + n) (vlvMod n (fun c => { c with fault := true, hsFault := hs }) d)

/-- What a trip ends: a profile with cause 1, or a proportional current until a changed SETPOINT (R288). -/
def vlvTripEnd (n : Fin 16) (d : Dev) : Dev :=
  if (vlvCh d n).phase == .prop then vlvMod n (fun c => { c with tripSp := some c.cmdSp, sp := 0 }) d
  else protectEnd n 1 d

/-- An overcurrent trip of a low side, or of HSn with both channels of its pair (R285, R288). -/
def vlvTrip (n : Fin 16) (hs : Bool) (d : Dev) : Dev :=
  let off := (vlvOff d n hs).filter (carries d · hs)
  if !(hs || carries d n hs) || off.isEmpty then d
  else wakeAll (forEach ((vlvEnded d n hs).filter (carries d · hs)) vlvTripEnd (forEach off (vlvTripMark hs) d))

/-- A shut-off of a switch of one channel: urgent code 1 (R289). -/
def vlvShutMark (hs : Bool) (n : Fin 16) (d : Dev) : Dev :=
  urgent 1 (64 + n) (vlvMod n (fun c => { c with fault := true, hsFault := hs }) d)

/-- What a shut-off ends: a profile with cause 2; with the ninth the channel latches, with ordinary code 6 (R289). -/
def vlvShutEnd (hs latch : Bool) (n : Fin 16) (d : Dev) : Dev :=
  let d := protectEnd n 2 d
  if latch then
    ordinary 6 (64 + n) (vlvMod n (fun c =>
      { c with latched := true, hsFault := hs, sp := 0,
               phase := if profileRuns c || c.phase == .decaySlow then c.phase else .latched }) d)
  else d

/-- A valve switch reaches 175 °C (R289): a low side, which reports on its own channel, or HSn, which reports on both channels of
its pair. -/
def vlvThermal (n : Fin 16) (hs : Bool) (d : Dev) : Dev :=
  let p := vlvPair n
  let both := [pairEven p, pairOdd p]
  let was := if hs then (d.vlv.hs.get p).therm else (vlvCh d n).therm
  let past := if hs then (d.vlv.hs.get p).restarts else (vlvCh d n).restarts
  if was || !(if hs then both else [n]).any (carries d · true) then d
  else
    let latch := 8 ≤ (recentRestarts d past).length
    let d := if hs then { d with vlv := { d.vlv with hs := vMod d.vlv.hs p fun x => { x with therm := true } } }
      else vlvMod n (fun c => { c with therm := true }) d
    wakeAll (forEach (vlvEnded d n hs) (vlvShutEnd hs latch)
      (forEach (if hs then both else [n]) (vlvShutMark hs) d))

/-- What a channel resumes after a restart (R289): PROP its set-point, a safe SET its PEAK; never a profile. -/
def vlvResume (n : Fin 16) (d : Dev) : Dev :=
  let c := vlvCh d n
  if c.latched || vlvHot d n then d
  else if c.safe && fpairV d kVlvSafe n == 2 && vlvDrives d n then
    if isPropMode (vlvMode d n) then vlvMod n (fun c => { c with phase := .prop, sp := fpairV d kVlvSafeMa n }) d
    else if c.phase == .peak || c.phase == .hold || c.phase == .safeSet || c.phase == .delay || c.phase == .defer then d
    else afterDelay n (vlvMod n (fun c => { c with safePeak := true }) (if c.prof.isSome then endProfile n d else d))
  else d

/-- A valve switch cools to 160 °C: urgent code 2 (R289). -/
def vlvRestart (n : Fin 16) (hs : Bool) (d : Dev) : Dev :=
  let p := vlvPair n
  let both := [pairEven p, pairOdd p]
  let was := if hs then (d.vlv.hs.get p).therm else (vlvCh d n).therm
  if !was || (vlvEnded d n hs).any (fun k => (vlvCh d k).latched) then d
  else
    let d := if hs then { d with vlv := { d.vlv with hs := vMod d.vlv.hs p fun x =>
        { therm := false, restarts := d.time.tick :: recentRestarts d x.restarts } } }
      else vlvMod n (fun c => { c with therm := false, restarts := d.time.tick :: recentRestarts d c.restarts }) d
    forEach (vlvEnded d n hs) vlvResume (forEach (if hs then both else [n]) (fun k d => urgent 2 (64 + k) d) d)

/-- The low side has been on for 500 µs below 50 mA: an open coil (R287). -/
def openCoil (n : Fin 16) (d : Dev) : Dev :=
  let c := vlvCh d n
  if c.openCoil || !(c.phase == .peak || c.phase == .hold || c.phase == .prop) then d
  else ordinary 2 (64 + n) (vlvMod n (fun c => { c with openCoil := true, coilSeen := false }) d)

/-- After 20 ms of PROP with current above 50 mA the condition ends; in a profile such a current ends it with the profile (R287;
log entry 151). -/
def openCoilEnd (n : Fin 16) (d : Dev) : Dev :=
  match (vlvCh d n).phase with
  | .prop => vlvMod n (fun c => { c with openCoil := false }) d
  | .peak => vlvMod n (fun c => { c with coilSeen := true }) d
  | .hold => vlvMod n (fun c => { c with coilSeen := true }) d
  | _ => d

/-- A regulator at 100 % duty below its set-point for 10 ms: kind 8 (R284). -/
def regFault (n : Fin 16) (d : Dev) : Dev :=
  let p := (vlvCh d n).phase
  if p == .prop || p == .safeSet then vlvDiag n 8 d else d

/-! ## Duty limit -/

/-- Bins counted as energised among the newest `w` (R290). -/
def binsOn : (w : Nat) → List (Bool × Nat) → Nat
  | _, [] => 0
  | w, (b, k) :: rest => (if b then min w k else 0) + binsOn (w - k) rest

/-- A closed bin in front of the run lengths. -/
def binsPush (b : Bool) : List (Bool × Nat) → List (Bool × Nat)
  | [] => [(b, 1)]
  | (x, k) :: rest => if x == b then (x, k + 1) :: rest else (b, 1) :: (x, k) :: rest

/-- The newest `w` bins alone. -/
def binsCut : (w : Nat) → List (Bool × Nat) → List (Bool × Nat)
  | _, [] => []
  | w, (b, k) :: rest => if w = 0 then [] else if w ≤ k then [(b, w)] else (b, k) :: binsCut (w - k) rest

/-- Window of the duty limit in bins (R290); the longest window the parameter allows is what is kept (R292). -/
def dutyWin (d : Dev) (n : Nat) : Nat := pget d kVlvDutyWinS n * 1000

/-- The energised fraction in 0.1 % (R290, R300). -/
def dutyNow (d : Dev) (n : Fin 16) : Nat := binsOn (dutyWin d n) (vlvCh d n).bins * 1000 / dutyWin d n

/-- A 1 ms bin closes and the fraction is compared with the limit (R290): kinds 6 and 7. -/
def dutyBin (n : Fin 16) (d : Dev) : Dev :=
  let c := vlvCh d n
  if !(isPulseMode (vlvMode d n) && d.pwr.fieldPow) then d
  else
    let inPhase := c.phase == .peak || c.phase == .hold
    let d := vlvMod n (fun c =>
      { c with hot := inPhase, bins := binsCut 600000 (binsPush (c.hot || inPhase) c.bins) }) d
    let w := dutyWin d n
    let on := binsOn w (vlvCh d n).bins
    let pct := fpairV d kVlvDutyPct n
    let hyst := pget d kVlvDutyHystPct n
    let below := if pct < hyst then on * 200 < pct * w else on * 100 < (pct - hyst) * w
    if !c.dutyLimit && pct * w < on * 100 then vlvDiag n 6 (vlvMod n (fun c => { c with dutyLimit := true }) d)
    else if c.dutyLimit && below then vlvDiag n 7 (vlvMod n (fun c => { c with dutyLimit := false }) d)
    else d

/-! ## Shedding steps -/

/-- A pulse has waited `VLV_F2_WAIT_MS` in SHED_WAIT: cause 6 (R298). -/
def f2WaitExpired (n : Fin 16) (d : Dev) : Dev :=
  if (vlvCh d n).phase == .shedWait then endNever n 6 d else d

/-- F2 begins: PROP channels keep their set-point (R298). -/
def vlvF2Begin (d : Dev) : Dev :=
  { d with vlv := { d.vlv with ch := d.vlv.ch.map fun c => { c with f2Hold := true } } }

/-- F2 ends: waiting pulses start their DELAY (R298). -/
def vlvF2End (d : Dev) : Dev :=
  forEach (List.finRange 16) (fun n d =>
    let d := vlvMod n (fun c => { c with f2Hold := false }) d
    let c := vlvCh d n
    if c.phase != .shedWait then d
    else
      let d := vlvMod n (fun c => { c with phase := .delay }) d
      if (c.prof.map (·.delayUs)).getD 0 = 0 && fieldRuns d then afterDelay n d else d) d

/-! ## The safe state -/

/-- Whether a channel stays energised after a stop by its own safe state (R297). -/
def energisedAfter (d : Dev) (n : Fin 16) : Bool :=
  let c := vlvCh d n
  match fpairV d kVlvSafe n with
  | 1 => energised c.phase
  | 2 => vlvDrives d n
  | _ => false

/-- The partner as the decay of a stop judges it: by its own safe state where the stop covers it or it is already in it,
else as it is (R297). -/
def partnerAfter (d : Dev) (n : Fin 16) (both : Bool) : Bool :=
  match sharing d n with
  | none => false
  | some p => if both || p.safe then energisedAfter d (vlvPartner n) else energised p.phase

/-- A running profile ends with cause 4 for a safe SET, and PEAK runs at `VLV_PEAK_MA` (R297). -/
def safeSetPulse (n : Fin 16) (d : Dev) : Dev :=
  let c := vlvCh d n
  match c.phase with
  | .peak => vlvMod n (fun c => { c with safePeak := true, cause := 4 }) d
  | .safeSet => d
  | _ =>
    let d :=
      if c.phase == .delay || c.phase == .defer || c.phase == .shedWait then endNever n 4 d
      else if c.prof.isSome then endProfile n (vlvMod n (fun c => { c with cause := 4 }) d)
      else d
    if vlvHot d n then d else afterDelay n (vlvMod n (fun c => { c with safePeak := true }) d)

/-- A channel enters its safe state (R297); `both` says that the stop covers its partner too. -/
def vlvSafe (n : Fin 16) (both : Bool) (d : Dev) : Dev :=
  let d := nextEnds n 4 (vlvMod n (fun c => { c with safe := true, shed := false, relPend := false }) d)
  if !vlvDrives d n then d
  else
    let c := vlvCh d n
    let on := partnerAfter d n both
    let fast := wantsFast d n
    match fpairV d kVlvSafe n with
    | 2 =>
      if isPulseMode (vlvMode d n) then safeSetPulse n d
      else vlvMod n (fun c => { c with phase := .prop, sp := fpairV d kVlvSafeMa n }) d
    | k =>
      match c.phase with
      | .delay => endNever n 4 d
      | .defer => endNever n 4 d
      | .shedWait => endNever n 4 d
      | .peak =>
        if k = 1 then d
        else startDecay n fast on (vlvMod n (fun c => { c with cause := 4 }) d)
      | .hold => if k = 1 then d else startDecay n fast on (vlvMod n (fun c => { c with cause := 4 }) d)
      | .prop => if k = 1 then d else startDecay n fast on (vlvMod n (fun c => { c with sp := 0 }) d)
      | _ => d

/-! ## The APPLY -/

/-- EV_VLV_LATCH_CLEARED (R289, R302). -/
def vlvUnlatch (n : Fin 16) (why : Nat) (d : Dev) : Dev :=
  let d := when (vlvCh d n).hsFault (fun d => { d with vlv := { d.vlv with
    hs := vMod d.vlv.hs (vlvPair n) fun _ => { therm := false, restarts := [] } } }) d
  let d := when (vlvJoined d n) (vlvMod (pairOdd (vlvPair n)) fun c => { c with therm := false, restarts := [], fault := false }) d
  let d := vlvMod n (fun c => { c with latched := false, therm := false, restarts := [], latchRec := false, fault := false }) d
  let d := vlvResume n (vlvMod n (fun c => { c with phase := if c.phase == .latched then restPhase d n else c.phase }) d)
  raise 6 0x400E (vlvPath n) (le 1 n ++ le 1 why) d

/-- A pulse that is not taken is reported, and the channel stays in its state (R596, R280). -/
def notTaken (n : Fin 16) (cause : Nat) (cmd : Option CmdId) (tick : Nat) (d : Dev) : Dev :=
  vlvMod n (fun c => { c with reports := c.reports ++ [reportNever cause cmd tick true] }) d

/-- A pulse that a channel refuses at its APPLY (R280, R291): its profile goes to REPORT at once, or, where a current decays, is
reported beside that decay, which runs on (R297). -/
def pulseRefused (n : Fin 16) (cause : Nat) (cmd : Option CmdId) (tick : Nat) (d : Dev) : Dev :=
  if decaying (vlvCh d n).phase then notTaken n cause cmd tick d
  else vlvMod n (fun c => { c with phase := .report, reports := c.reports ++ [reportNever cause cmd tick false] }) d

/-- A new pulse at its APPLY (R277, R278, R291, R596, R297). One that meets a current that decays after the profile or the
safe SET has ended enters DELAY when the decay ends. -/
def takePulse (hook : Nat → Dev → Dev) (n : Fin 16) (holdT tick : Nat) (cmd : Option CmdId) (d : Dev) : Dev :=
  let c := vlvCh d n
  if c.safe then notTaken n 4 cmd tick d
  else if c.shed then notTaken n 3 cmd tick d
  else if c.latched || vlvHot d n then notTaken n 2 cmd tick d
  else if !isPulseMode (vlvMode d n) || vlvSlave d n then notTaken n 8 cmd tick d
  else if profileRuns c then
    if c.phase == .report then
      vlvMod n (fun c => { c with reports := c.reports.map fun r =>
        if r.stays then r else { r with ignored := satAdd r.ignored 1 127, ignoredCmds := r.ignoredCmds ++ cmd.toList } }) d
    else
      vlvMod n (fun c => { c with ignored := satAdd c.ignored 1 127, ignoredCmds := c.ignoredCmds ++ cmd.toList }) d
  else if !vlvDrives d n then pulseRefused n 8 cmd tick d
  else if c.dutyLimit || fpairV d kVlvDutyPct n = 0 then pulseRefused n 7 cmd tick d
  else
    let d := boundary hook (fun w => w.bnd == .profile n) d
    let p := profileOf d n holdT tick cmd
    if decaying c.phase then vlvMod n (fun c => { c with next := some p }) d
    else beginProfile n p d

/-- A channel leaves its safe state at an APPLY (R297): a safe SET ends by decay, with no report. -/
def vlvLeaveSafe (n : Fin 16) (d : Dev) : Dev :=
  let c := vlvCh d n
  let shed := vAt d.pwr.shed (pget d kVlvShedClass n) false
  let d := vlvMod n (fun c => { c with safe := false, relPend := false, safePeak := false, shed := shed }) d
  match c.phase with
  | .safeSet => startDecay n (pget d kVlvDecay n == 1) (partnerOn d n) d
  | .peak =>
    if c.safePeak && c.prof.isNone then startDecay n (pget d kVlvDecay n == 1) (partnerOn d n) d else d
  | .defer => if c.safePeak then vlvMod n (fun c => { c with phase := restPhase d n }) d else d
  | _ => d

/-- A channel at an APPLY with its command of the current set (R116, R118, R277, R283, R288, R289, R298, R299). `tick`
is the tick of the APPLY and `t` its bytes for a completion. -/
def vlvApply (hook : Nat → Dev → Dev) (n : Fin 16) (v : VlvCmd) (tick : Nat) (t : List Byte) (d : Dev) : Dev :=
  let d := if (vlvCh d n).relPend then vlvLeaveSafe n d else d
  let d := vlvMod n (fun c => { c with phase := if c.phase == .off then restPhase d n else c.phase }) d
  let c := vlvCh d n
  let d :=
    if c.clearPend then
      let d := if c.latched then vlvUnlatch n 0 d else d
      let d := forEach c.clearCmd (fun id d => completeId id 0 0 t d) d
      vlvMod n (fun c => { c with clearPend := false, clearCmd := [] }) d
    else d
  if v.kind = 1 ∧ v.cseq ≠ c.cseq then
    let cmd := (c.placed.find? fun p => p.1 = v.cseq).bind (·.2)
    let d := vlvMod n (fun c => { c with cseq := v.cseq, placed := c.placed.filter fun p => p.1 != v.cseq }) d
    takePulse hook n v.holdT tick cmd d
  else if v.kind = 2 then
    let c := vlvCh d n
    let rose := c.cmdSp = 0 && v.setMa != 0
    if c.safe || c.shed then d
    else
      let d := if c.latched && rose then vlvUnlatch n 1 d else d
      let c := vlvCh d n
      let keep := c.f2Hold || c.latched || (match c.tripSp with
        | some x => x == v.setMa
        | none => false)
      vlvMod n (fun c =>
        { c with
          cmdSp := v.setMa
          sp := if keep then c.sp else v.setMa
          tripSp := if keep then c.tripSp else none
          fault := if keep then c.fault else vlvHot d n
          phase := if !isPropMode (vlvMode d n) || decaying c.phase then c.phase
            else restPhase d n }) d
  else d

/-! ## Status and reports on the control die -/

/-- Code of a phase (R279). -/
def phaseCode : VPhase → Nat
  | .idle => 0
  | .delay => 1
  | .defer => 2
  | .peak => 3
  | .hold => 4
  | .decaySlow => 5
  | .decayFast => 6
  | .report => 7
  | .prop => 8
  | .shedWait => 9
  | .slave => 10
  | .off => 11
  | .latched => 12
  | .safeSet => Config.safeSetPhase.toNat

/-- The regulated value is clipped at 0 or at `VLV_PROP_MAX_MA` (R283). -/
def vlvClipped (d : Dev) (n : Fin 16) : Bool :=
  let c := vlvCh d n
  let half := if pget d kVlvDitherHz n = 0 then 0 else pget d kVlvDitherMa n
  c.phase == .prop && (2 * fpairV d kVlvPropMaxMa n < 2 * c.sp + half || 2 * c.sp < half)

/-- The status word of a channel (R279), with its measured current in mA. -/
def vlvStatus (d : Dev) (n : Fin 16) (ma : Nat) : Nat :=
  let c := vlvCh d n
  let on := energised c.phase
  let reg := (c.phase == .prop && !vlvHot d n) || c.phase == .hold || c.phase == .safeSet || (c.phase == .peak && c.ttp.isSome)
  (ma % 65536) * 65536 + phaseCode c.phase * 256 + b2n on + 2 * b2n reg + 4 * b2n c.dutyLimit + 8 * b2n c.forced +
    16 * b2n (vlvClipped d n) + 32 * b2n c.shed + 64 * b2n c.safe + 128 * b2n (c.fault || vlvHot d n || c.latched)

/-- `VLV_LAST` of a report (R300). -/
def reportWord (r : Report) : Nat :=
  (r.ttp.getD 0xFFF) * 2 ^ 20 + min (r.defer.getD 0xFF) 0xFF * 2 ^ 12 + r.cause * 256 + min r.ignored 127

/-- Status and detail that complete the command of a report (R301, R596). -/
def reportStatus (r : Report) (latched : Bool) : Nat × Nat :=
  match r.defer with
  | some _ => (stOk, 0)
  | none =>
    match r.cause with
    | 2 => (stRefused, if latched then 0x46 else 0x48)
    | 3 => (stShed, 0)
    | 4 => (stRefused, 0x48)
    | 5 => (stRefused, 0x45)
    | 6 => (stShed, 0)
    | 7 => (stRefused, 0x42)
    | _ => (stRefused, 0x47)

/-- RESULT of `VLV_PULSE` (R301). -/
def reportResult (r : Report) (kind : Nat) : List Byte :=
  le 8 r.tick ++ le 1 r.cause ++ le 1 r.ignored ++ le 2 ((r.defer.getD 0) * 10) ++
    le 2 (match r.ttp with
      | some x => x * 10
      | none => 0xFFFF) ++ le 1 kind

/-- The end of a service's pulse, for the service step that follows: whether it energised (R380, R385). -/
def pulseEnded (n : Fin 16) (ok : Bool) (d : Dev) : Dev :=
  { d with svc := { d.svc with pulseEnds := d.svc.pulseEnds ++ [(n.val, ok)] } }

/-- SEL 3 of a report has been received: VLV_LAST, the pulse's completion and those of the pulses it ignored (R278,
R280). -/
def reportDone (n : Fin 16) (r : Report) (d : Dev) : Dev :=
  let c := vlvCh d n
  let st := reportStatus r c.latched
  let d := vlvMod n (fun c => { c with last := w32 (reportWord r) }) d
  let d := match r.cmd with
    | some id => completeId id st.1 st.2 (reportResult r c.lastKind) d
    | none => pulseEnded n r.defer.isSome d
  let d := forEach (List.range (r.ignored - r.ignoredCmds.length)) (fun _ d => pulseEnded n false d) d
  forEach r.ignoredCmds (fun id d => completeId id stRefused 0x41 [] d) d

/-- The control die receives the status slot of a channel (R110, R280): status word, and the next part of a report. -/
def vlvReceive (n : Fin 16) (ma : Nat) (d : Dev) : Dev :=
  let d := vlvMod n (fun c => { c with status := w32 (vlvStatus d n ma), statTick := d.time.tick }) d
  match (vlvCh d n).reports with
  | [] => d
  | r :: rest =>
    if r.sel < 3 then vlvMod n (fun c => { c with reports := { r with sel := r.sel + 1 } :: rest }) d
    else
      let d := vlvMod n (fun c => { c with reports := rest }) d
      let d := if r.stays then d
        else vlvMod n (fun c =>
          if c.phase == .report then { c with phase := if c.latched then .latched else restPhase d n } else c) d
      reportDone n r d

/-! ## Events -/

/-- Events of a channel named in an urgent frame, on port 0 (R302). -/
def vlvUrgent (code : Nat) (n : Fin 16) (dt : Nat) (d : Dev) : Dev :=
  let c := vlvCh d n
  let hs := le 1 (b2n c.hsFault)
  let rs := if c.hsFault then (d.vlv.hs.get (vlvPair n)).restarts else c.restarts
  let k := (recentRestarts d rs).length
  match code with
  | 0 => raiseAt 0 0x4001 (vlvPath n) dt (timeWord d) (le 1 n ++ hs) d
  | 1 => raiseAt 0 0x4002 (vlvPath n) dt (timeWord d) (le 1 n ++ hs ++ le 1 k) d
  | _ => raiseAt 0 0x4003 (vlvPath n) dt (timeWord d) (le 1 n ++ le 1 (max 1 (min k 8))) d

/-- Event of a channel named in ordinary code 2 or 6, on port 7 (R302). -/
def vlvOrdinary (code : Nat) (n : Fin 16) (dt : Nat) (d : Dev) : Dev :=
  let c := vlvCh d n
  if code = 2 then raiseAt 7 0x4005 (vlvPath n) dt (timeWord d) (le 1 n ++ le 1 (phaseCode c.phase)) d
  else raiseAt 7 0x4004 (vlvPath n) dt (timeWord d) (le 1 n) (vlvMod n (fun c => { c with latchRec := true }) d)

/-- Event of a channel's kind in the valve diagnostics frame, on port 7 (R302). -/
def vlvDiagEvent (n : Fin 16) (kind dt : Nat) (d : Dev) : Dev :=
  let c := vlvCh d n
  let p := vlvPartner n
  let pp := le 1 (phaseCode (vlvCh d p).phase)
  let ev := fun (code : Nat) (data : List Byte) => raiseAt 7 code (vlvPath n) dt (timeWord d) (le 1 n ++ data) d
  match kind with
  | 1 => ev 0x4006 ([0, 0, 0] ++ le 4 c.last.toNat)
  | 2 => ev 0x4007 ([0, 0, 0] ++ le 4 c.last.toNat)
  | 3 => ev 0x4008 ([0, 0, 0] ++ le 4 c.last.toNat)
  | 4 => ev 0x4009 (le 1 p ++ pp)
  | 5 => ev 0x400A pp
  | 6 => ev 0x400B ([0] ++ le 2 (dutyNow d n))
  | 7 => ev 0x400C ([0] ++ le 2 (dutyNow d n))
  | 8 => ev 0x400D ([0] ++ le 2 c.sp ++ le 2 (fld c.status.toNat 16 16))
  | _ => d

/-! ## Start, stop and reset -/

/-- `RUN` or autostart: every channel rests in the phase of its mode (R275). -/
def vlvStart (d : Dev) : Dev :=
  forEach (List.finRange 16) (fun n d =>
    vlvMod n (fun c => if c.phase == .off then { c with phase := restPhase d n } else c) d) d

/-- The channel after a reset of the field die (R252, R495). -/
def vlvFieldReset (c : VlvCh) : VlvCh :=
  { VlvCh.reset with
    latched := c.latchRec
    latchRec := c.latchRec
    phase := if c.latchRec then .latched else .off
    status := c.status
    statTick := c.statTick
    last := c.last
    lastKind := c.lastKind
    reqs := c.reqs
    placed := c.placed
    clearPend := c.clearPend
    clearCmd := c.clearCmd
    bins := [] }

/-! ## Reads, checks and commands -/

/-- READ parameters of the valve channels (R300). -/
def vlvRead (d : Dev) (addr : Nat) : List Word :=
  let key := keyOf addr
  if key = kVlvVvg then [w32 (vAt d.pwr.vvg (instOf addr) 0 * 10)]
  else if h : instOf addr < 16 then
    let n : Fin 16 := ⟨instOf addr, h⟩
    if key = kVlvState then [(vlvCh d n).status]
    else if key = kVlvLast then [(vlvCh d n).last]
    else [w32 (dutyNow d n)]
  else [0]

/-- A channel's pair is paralleled, so that the bracketed ranges of R300 hold. -/
def paralleled (d : Dev) (n : Nat) : Bool := 3 ≤ pget d kVlvMode n

/-- The range of a parameter of a paralleled pair, where it differs (R285, R300). -/
def parRange (key : Nat) : Option PRange :=
  if key = kVlvPeakMa then some (.alts [(1000, 6000, 10)])
  else if key = kVlvHoldMa then some (.alts [(200, 3000, 10)])
  else if [kVlvPropMa, kVlvPropMaxMa, kVlvSafeMa].contains key then some (.alts [(0, 3000, 1)])
  else none

/-- A parameter's row with the range that holds for its instance (R285, R300). -/
def rangeRow (d : Dev) (addr : Nat) (p : PDef) : PDef :=
  if paralleled d (instOf addr) then { p with range := (parRange (keyOf addr)).getD p.range } else p

/-- The refusals of this chapter for a parameter write, beyond class and range (R274, R284, R286, R299). -/
def vlvCheck (d : Dev) (addr : Nat) (ws : List Word) : Option Refuse :=
  let key := keyOf addr
  let n := instOf addr
  let v := (ws.headD 0).toNat
  if key = kVlvMode then
    firstRefusal [
      (3 ≤ v && n % 2 == 1, ⟨stRange, 0⟩),
      (vlvSlave d n, refused 0x43),
      (3 ≤ v && pget d kVlvMode (n + 1) != 0, refused 0x43)]
  else if key = kVlvPropMa then firstRefusal [(claimed d (64 + n), refused 0x40)]
  else if key = kVlvTtpMaxUs then
    firstRefusal [(pget d kVlvPeakMaxUs n < v || v < pget d kVlvTtpMinUs n, ⟨stRange, 0⟩)]
  else if key = kVlvTtpMinUs then firstRefusal [(pget d kVlvTtpMaxUs n < v, ⟨stRange, 0⟩)]
  else if key = kVlvPeakMaxUs then firstRefusal [(v < pget d kVlvTtpMaxUs n, ⟨stRange, 0⟩)]
  else if key = kVlvSafe then firstRefusal [(v != 0 && pget d kVlvShedClass n != 0, refused 0x44)]
  else if key = kVlvShedClass then firstRefusal [(v != 0 && pairV d kVlvSafe n != 0, refused 0x44)]
  else none

/-- A pulse is placed in the open tick set (R277): the channel's CSEQ advances. -/
def placePulse (n : Fin 16) (r : PulseReq) (d : Dev) : Dev :=
  let slot : Fin 24 := ⟨8 + n.val, by omega⟩
  let old := match d.lift.opened.get slot with
    | .valve v => v
    | .bank _ _ => { cseq := 0, kind := 0, setMa := 0, holdT := 0 }
  let seq := (old.cseq + 1) % 256
  let d := { d with lift := { d.lift with
    opened := d.lift.opened.set slot (.valve { cseq := seq, kind := 1, setMa := 0, holdT := r.holdT })
    openMask := d.lift.openMask ||| 2 ^ (8 + n.val) } }
  let d := vlvMod n (fun c => { c with placed := c.placed ++ [(seq, r.cmd)] }) d
  match r.cmd with
  | some id => begin_ id d
  | none => d

/-- The open set already carries a pulse of the channel (R277). -/
def pulsePlaced (d : Dev) (n : Fin 16) : Bool :=
  match d.lift.opened.get ⟨8 + n.val, by omega⟩ with
  | .valve v => bitOf d.lift.openMask (8 + n.val) && v.kind == 1 && (vlvCh d n).placed.any fun p => p.1 == v.cseq
  | .bank _ _ => false

/-- An accepted pulse joins the open set, or the one after the sets its earlier pulses wait in (R277). -/
def queuePulse (n : Fin 16) (r : PulseReq) (d : Dev) : Dev :=
  if pulsePlaced d n || !(vlvCh d n).reqs.isEmpty then
    match r.cmd with
    | some id => waitOn id (vlvMod n (fun c => { c with reqs := c.reqs ++ [r] }) d)
    | none => vlvMod n (fun c => { c with reqs := c.reqs ++ [r] }) d
  else placePulse n r d

/-- After a set has closed, the oldest pulse that waits joins the new open set (R277). -/
def nextPulses (d : Dev) : Dev :=
  forEach (List.finRange 16) (fun n d =>
    match (vlvCh d n).reqs with
    | [] => d
    | r :: rest =>
      if pulsePlaced d n then d else placePulse n r (vlvMod n (fun c => { c with reqs := rest }) d)) d

/-- The control die knows the channel to be latched (R301). -/
def latchKnown (c : VlvCh) : Bool := c.latchRec || fld c.status.toNat 8 8 == 12

/-- `VLV_PULSE` (R291, R301). -/
def cmdVlvPulse (c : Cmd) (d : Dev) : Dev :=
  let holdT := field c.payload 0 4
  if h : targetN c < 16 then
    let n : Fin 16 := ⟨targetN c, h⟩
    match firstRefusal [
      (bitOf d.pwr.vdFail n, refused 0x94),
      (claimed d (64 + n), refused 0x40),
      (vlvSlave d n || !isPulseMode (pget d kVlvMode n), refused 0x43),
      (latchKnown (vlvCh d n), refused 0x46),
      (holdT != 0 && (holdT < 10 || 6000000 < holdT), ⟨stRange, 0⟩),
      (bitOf (vlvCh d n).status.toNat 2, refused 0x42)] with
    | some r => refuse c r d
    | none => queuePulse n { cmd := some c.id, holdT := holdT } d
  else refuse c ⟨stRange, 0⟩ d

/-- `VLV_READ` (R274, R301). Only a slave's mode is wrong for it (log entry 152). -/
def cmdVlvRead (c : Cmd) (d : Dev) : Dev :=
  if h : targetN c < 16 then
    let n : Fin 16 := ⟨targetN c, h⟩
    let x := vlvCh d n
    match firstRefusal [(claimed d (64 + n), refused 0x40), (vlvSlave d n, refused 0x43)] with
    | some r => refuse c r d
    | none => complete c 0 0 (le 4 x.status.toNat ++ le 4 x.last.toNat ++ le 2 (dutyNow d n) ++ [0, 0] ++ le 8 x.statTick) d
  else refuse c ⟨stRange, 0⟩ d

/-- `VLV_CLEAR` (R289, R301; log entry 152): the latch ends at the next APPLY. -/
def cmdVlvClear (c : Cmd) (d : Dev) : Dev :=
  if h : targetN c < 16 then
    let n : Fin 16 := ⟨targetN c, h⟩
    match firstRefusal [
      (bitOf d.pwr.vdFail n, refused 0x94),
      (claimed d (64 + n), refused 0x40),
      (vlvSlave d n, refused 0x43),
      (!latchKnown (vlvCh d n), refused 0x13)] with
    | some r => refuse c r d
    | none => begin_ c.id (vlvMod n (fun x => { x with clearPend := true, clearCmd := x.clearCmd ++ [c.id] }) d)
  else refuse c ⟨stRange, 0⟩ d

/-! ## Meanings of the rows -/

def execVlvDelayEnd (n : Fin 16) (s : State) := quiet (delayEnd n) s
def execDeferReject (n : Fin 16) (s : State) := quiet (deferExpired n) s
def execPeakReached (n : Fin 16) (us : Nat) (s : State) := quiet (peakReached n us) s
def execPeakEnd (n : Fin 16) (deferUs : Nat) (s : State) := quiet (peakEnd n deferUs) s
def execHoldEnd (n : Fin 16) (s : State) := quiet (holdEnd n) s
def execDecayEnd (n : Fin 16) (deferUs : Nat) (s : State) := quiet (decayEnd n deferUs) s
def execVlvTrip (n : Fin 16) (hs : Bool) (s : State) := quiet (vlvTrip n hs) s
def execVlvThermalShutoff (n : Fin 16) (hs : Bool) (s : State) := quiet (vlvThermal n hs) s
def execVlvThermalRestart (n : Fin 16) (hs : Bool) (s : State) := quiet (vlvRestart n hs) s
def execOpenCoil (n : Fin 16) (s : State) := quiet (openCoil n) s
def execOpenCoilEnd (n : Fin 16) (s : State) := quiet (openCoilEnd n) s
def execRegulatorFault (n : Fin 16) (s : State) := quiet (regFault n) s
def execDutyBin (n : Fin 16) (s : State) := quiet (dutyBin n) s
def execF2WaitExpired (n : Fin 16) (s : State) := quiet (f2WaitExpired n) s
def execVlvPulse (c : CmdId) (s : State) := quiet (withCmd 0x1401 c cmdVlvPulse) s
def execVlvRead (c : CmdId) (s : State) := quiet (withCmd 0x1402 c cmdVlvRead) s
def execVlvClear (c : CmdId) (s : State) := quiet (withCmd 0x1403 c cmdVlvClear) s

end Sys2Proof.Machine
end

