-- ==== Sys2Proof/Machine/Law.lean ====
section
/-!
DEFINITION. Machine/Law.lean: the arithmetic of the control law (08): descriptors, coefficient sets, fixed point and
block floating point, and the steps of R305 and R346.
-/
namespace Sys2Proof.Machine

/-! ## Descriptors (R313) -/

def dPeriodCode (b : List Byte) : Nat := byteAt b 1
def dNo (b : List Byte) : Nat := byteAt b 2
def dNi (b : List Byte) : Nat := byteAt b 3
def dM (b : List Byte) : Nat := byteAt b 4
def dP (b : List Byte) : Nat := byteAt b 5
def dQ (b : List Byte) : Nat := byteAt b 6
def dBackcalc (b : List Byte) : Bool := bitOf (byteAt b 7) 0
def dGlideAll (b : List Byte) : Bool := bitOf (byteAt b 7) 1
def dHeadroom (b : List Byte) : Nat := byteAt b 8
def dOvrMax (b : List Byte) : Nat := byteAt b 9
def dCoast (b : List Byte) : Nat := field b 10 2
def dCoefSrc (b : List Byte) : Nat := byteAt b 12
def dSets (b : List Byte) : Nat := byteAt b 13
def dSchedIn (b : List Byte) : Nat := byteAt b 14
def dFreezeOut (b : List Byte) : Nat := byteAt b 15
def dFreezeDu (b : List Byte) : Nat := field b 16 4
def dSchedHyst (b : List Byte) : Nat := field b 20 4

/-- Model and integral states together. -/
def dN (b : List Byte) : Nat := dNo b + dNi b

/-- Period in ms of a code (R308). -/
def periodMs (code : Nat) : Nat := [1, 2, 5, 10, 20, 50, 100, 200, 500, 1000, 10000].getD code 1

def dPeriod (b : List Byte) : Nat := periodMs (dPeriodCode b)

/-- Coast time in ms (R313). -/
def coastMs (b : List Byte) : Nat := if bitOf (dCoast b) 15 then dCoast b % 32768 * 1000 else dCoast b % 32768

/-- The words of inputs, outputs and references, and an entry of the integral map (R313). -/
def dIn (b : List Byte) (j : Nat) : Nat := field b (32 + 4 * j) 4
def dOut (b : List Byte) (o : Nat) : Nat := field b (96 + 4 * o) 4
def dRef (b : List Byte) (j : Nat) : Nat := field b (160 + 4 * j) 4
def integIn (b : List Byte) (i : Nat) : Nat := fld (byteAt b (224 + 2 * i)) 4 4
def integRef (b : List Byte) (i : Nat) : Nat := byteAt b (224 + 2 * i) % 16
def integOut (b : List Byte) (i : Nat) : Nat := byteAt b (225 + 2 * i) % 16

def wSrc (w : Nat) : Nat := fld w 28 4
def wObj (w : Nat) : Nat := fld w 16 12
def inFeedback (w : Nat) : Bool := bitOf w 15
def inFreezeN (w : Nat) : Nat := fld w 8 7
def inAllow (w : Nat) : Nat := w % 256
def outFbMode (w : Nat) : Bool := bitOf w 15
def refTrack (w : Nat) : Nat := fld w 12 4

/-- Service values that exist (R360): one of a bin, two of a column, one of a burner. -/
def svcNumOk (n : Nat) : Bool :=
  match n / 256 with
  | 1 => n / 16 % 16 < 4 && n % 16 == 0
  | 2 => n / 16 % 16 < 2 && n % 16 < 2
  | 6 => n / 16 % 16 < 4 && n % 16 == 0
  | _ => false

/-- Objects of an input source (R313). -/
def inObjOk (src obj : Nat) : Bool :=
  match src with
  | 0 => obj == 0
  | 1 => obj < 32
  | 2 => obj < 4
  | 3 => obj < 64
  | 4 => obj < 1024
  | 5 => obj < 16
  | 6 => svcNumOk obj
  | _ => false

/-- Objects of an output destination (R313). -/
def outObjOk (dst obj : Nat) : Bool :=
  match dst with
  | 0 => obj == 0
  | 1 => obj < 16
  | 2 => obj < 64
  | 4 => svcNumOk obj
  | _ => false

/-- Objects of a reference source (R313). -/
def refObjOk (src obj : Nat) : Bool :=
  match src with
  | 0 => obj == 0
  | 1 => obj < 1024
  | 2 => svcNumOk obj
  | _ => false

def inputOk (b : List Byte) (j : Nat) : Bool :=
  let w := dIn b j
  if j < dP b then inObjOk (wSrc w) (wObj w) && inFreezeN w != 1 else w == 0

def outputOk (b : List Byte) (o : Nat) : Bool :=
  let w := dOut b o
  if o < dM b then outObjOk (wSrc w) (wObj w) && w % 32768 == 0 else w == 0

def refOk (b : List Byte) (j : Nat) : Bool :=
  let w := dRef b j
  if j < dQ b then refObjOk (wSrc w) (wObj w) && refTrack w < dP b && w % 4096 == 0 else w == 0

def integOk (b : List Byte) (i : Nat) : Bool :=
  if i < dNi b then integIn b i < dP b && integRef b i < dQ b && integOut b i < dM b && byteAt b (225 + 2 * i) < 16
  else byteAt b (224 + 2 * i) == 0 && byteAt b (225 + 2 * i) == 0

/-- A descriptor whose every field lies in its range (R313). -/
def descOk (b : List Byte) : Bool :=
  byteAt b 0 == 1 && dPeriodCode b ≤ 10 && 1 ≤ dNo b && dNo b ≤ 64 && dNi b ≤ 16 && dN b ≤ 64 &&
  1 ≤ dM b && dM b ≤ 16 && 1 ≤ dP b && dP b ≤ 16 && dQ b ≤ 16 && byteAt b 7 < 4 && dHeadroom b ≤ 8 &&
  1 ≤ dOvrMax b && dOvrMax b ≤ 15 && dCoast b % 32768 ≤ 30000 && dCoefSrc b ≤ 2 && dSets b ≤ 8 &&
  (dCoefSrc b == 0 || 1 ≤ dSets b) && dSchedIn b < dP b && dFreezeOut b < dM b && field b 24 8 == 0 &&
  (List.range 16).all fun k => inputOk b k && outputOk b k && refOk b k && integOk b k

/-! ## Dimensions, memory and admission (R315-R320) -/

/-- Rows and columns of a block by its code (08, the control law). -/
def blockDims (b : List Byte) (code : Nat) : Nat × Nat :=
  match code with
  | 0 => (dNo b, dNo b)
  | 1 => (dNo b, dM b)
  | 2 => (dNo b, dP b)
  | 3 => (dP b, dNo b)
  | 4 => (dM b, dN b)
  | 5 => (dM b, dQ b)
  | 6 => (dNi b, 1)
  | 7 => (dNi b, 1)
  | 8 => (dNo b, dP b)
  | _ => (0, 0)

/-- Index of the first coefficient of a block (R315). -/
def blockBase (b : List Byte) (code : Nat) : Nat :=
  (List.range code).foldl (fun a k => a + (blockDims b k).1 * (blockDims b k).2) 0

/-- Index of a coefficient in its set, where block, row and column exist (R315, R355). -/
def coefIdx (b : List Byte) (code row col : Nat) : Option Nat :=
  let rc := blockDims b code
  if row < rc.1 ∧ col < rc.2 then some (blockBase b code + row * rc.2 + col) else none

/-- MAC count per period M, and coefficient count N (R315). -/
def macCount (b : List Byte) : Nat :=
  dNo b * dNo b + dNo b * dM b + 2 * dNo b * dP b + dM b * dN b + dM b * dQ b + 2 * dNi b

def coefCount (b : List Byte) : Nat := macCount b + dNo b * dP b

/-- Bytes an instance takes in its home area (R316). -/
def instBytes (b : List Byte) : Nat :=
  let n := coefCount b
  let raw := 256 + 16 * (dN b + dM b + dP b + dQ b) + (1 + dSets b) * (4 * n + 4 * ceilDiv n 4 + 4)
  ceilDiv raw 256 * 256

/-- The admission weight w (R318). -/
def weight (b : List Byte) : Nat := ceilDiv (3 * macCount b) 2 + 12 * (dN b + dM b + dP b + dQ b) + 400

/-- An instance's demand as a fraction of MAC per ms over 100 T - 31 (R319). -/
def demand (b : List Byte) : Rat := (weight b * 100 : Nat) / ((dPeriod b * 100 - 31 : Nat) : Rat)

/-- The bytes of a set image (R315, R338). -/
def setBytes (n : Nat) : Nat := 4 * n + 4 * ceilDiv n 4 + 4

/-- The image of a set without its CRC: N values, then N shifts padded to a multiple of 4 (R315). -/
def setImage (cs : List (Int × Nat)) : List Byte :=
  cs.flatMap (fun c => le 4 (toBits 32 c.1)) ++ padTo (4 * ceilDiv cs.length 4) (cs.map fun c => BitVec.ofNat 8 c.2)

def setCrc (cs : List (Int × Nat)) : Word := w32 (crc32 (setImage cs))

/-- The coefficients of a set image of N values. -/
def setOfImage (n : Nat) (bs : List Byte) : List (Int × Nat) :=
  (List.range n).map fun k => (sext 32 (field bs (4 * k) 4), byteAt bs (4 * n + k))

/-- A coefficient of a block; 0 with shift 0 where the set has none. -/
def coef (b : List Byte) (cs : List (Int × Nat)) (code row col : Nat) : Int × Nat :=
  cs.getD (blockBase b code + row * (blockDims b code).2 + col) (0, 0)

/-! ## Fixed point (R321) -/

/-- An arithmetic right shift with rounding. -/
def shiftRound (x : Int) (s : Nat) : Int := if s = 0 then x else (x + 2 ^ (s - 1)) / 2 ^ s

/-- One term: product, shift and rounding (R321). -/
def lawTerm (c : Int × Nat) (x : Int) : Int := shiftRound (c.1 * x) c.2

/-- The 64-bit accumulator of R321 with its limit ±(2^63 - 1); true when it has acted. -/
def acc64 (a : Int × Bool) (t : Int) : Int × Bool :=
  let s := a.1 + t
  if 2 ^ 63 - 1 < s then (2 ^ 63 - 1, true)
  else if s < -(2 ^ 63 - 1) then (-(2 ^ 63 - 1), true)
  else (s, a.2)

def accSum (start : Int) (ts : List Int) : Int × Bool := ts.foldl acc64 (start, false)

/-- A row of a block times a vector, as terms. -/
def dotTerms (b : List Byte) (cs : List (Int × Nat)) (code row : Nat) (xs : List Int) : List Int :=
  (List.range xs.length).map fun k => lawTerm (coef b cs code row k) (xs.getD k 0)

/-- A result held to 32 bits; true when the limit acted. -/
def sat32 (x : Int) : Int × Bool :=
  let y := clampI (-(2 ^ 31)) (2 ^ 31 - 1) x
  (y, y != x)

/-! ## Block floating point (R323) -/

/-- Bits of a magnitude. -/
def magBits (x : Int) : Nat := if x = 0 then 0 else Nat.log2 x.natAbs + 1

/-- A number m × 2^e in units of 2^es, rounded to nearest. -/
def alignTo (es : Int) (m e : Int) : Int :=
  if es ≤ e then m * 2 ^ (e - es).toNat else shiftRound m (es - e).toNat

/-- The shared exponent at which the largest of some numbers uses all 24 bits (R323). -/
def blockExp (xs : List (Int × Int)) : Int :=
  match ((xs.filter fun p => p.1 != 0).map fun p => ((magBits p.1 : Nat) : Int) + p.2 - 23).max? with
  | none => -128
  | some e => clampI (-128) 127 e

/-- Numbers of one exponent renormalised: mantissas of 24 bits, rounded to nearest, and the exponent (R323). -/
def renorm (ms : List Int) (es : Int) : List Int × Int :=
  let e := blockExp (ms.map fun m => (m, es))
  let r := ms.map fun m => alignTo e m es
  if r.any fun m => 2 ^ 23 ≤ m ∨ m < -(2 ^ 23) then (ms.map fun m => alignTo (e + 1) m es, e + 1) else (r, e)

/-- A number of exponent e as an integer, rounded to nearest (R324). -/
def toInt (m e : Int) : Int := alignTo 0 m e

/-- Numbers of exponent e beside integers of exponent 0. -/
def withExp (e : Int) (xs : List Int) : List (Int × Int) := xs.map fun x => (x, e)

/-! ## The law -/

/-- What a computation needs (R305): descriptor, set, format, state, gate record, limits of outputs and of integral
states, and the excitation of IDENT as output and value (R330). -/
structure LawIn where
  b : List Byte
  cs : List (Int × Nat)
  bfp : Bool
  st : List Int
  ste : Int
  g : GateRec
  lim : List (Int × Int)
  zlim : List Int
  exc : Option (Nat × Int)

/-- What a computation gives: state, raw and limited outputs, the flags SAT_ACC, SAT_OUT and SAT_STATE with the element
that set each, LIMIT and ZCLAMP. -/
structure LawOut where
  st : List Int
  ste : Int
  uraw : List Int
  u : List Int
  satAcc : Option Nat
  satOut : Option Nat
  satState : Option Nat
  limit : Bool
  zclamp : Bool

/-- The first index at which a list of results shows its flag. -/
def firstFlag (xs : List (Int × Bool)) (base : Nat) : Option Nat :=
  (xs.findIdx? fun p => p.2).map (· + base)

/-- The first of two optional values. -/
def orElseOpt (a b : Option Nat) : Option Nat :=
  match a with
  | some x => some x
  | none => b

/-- The innovation, entries of unused inputs 0 (R305), in units of 2^es. -/
def innovation (b : List Byte) (cs : List (Int × Nat)) (xs ys : List Int) (used : List Bool) : List (Int × Bool) :=
  (List.range (dP b)).map fun j =>
    if used.getD j false then
      let a := accSum 0 (dotTerms b cs 3 j xs)
      let e := acc64 (ys.getD j 0, false) (-a.1)
      (e.1, a.2 || e.2)
    else (0, false)

/-- The integral state i after a period (R305, R307, R325), in units of 2^es. -/
def integStep (x : LawIn) (zs ys rs us urs : List Int) (es : Int) (i : Nat) : (Int × Bool) × Bool :=
  let z := zs.getD i 0
  if x.g.frz.getD i false then ((z, false), false)
  else
    let t1 := lawTerm (coef x.b x.cs 6 i 0) (rs.getD (integRef x.b i) 0 - ys.getD (integIn x.b i) 0)
    let o := integOut x.b i
    let t2 := if dBackcalc x.b then [lawTerm (coef x.b x.cs 7 i 0) (us.getD o 0 - urs.getD o 0)] else []
    let a := accSum z (t1 :: t2)
    let lim := alignTo es (x.zlim.getD i 0) 0
    let c := clampI (-lim) lim a.1
    ((c, a.2), c != a.1)

/-- One computation of R305 from the gate record: observer update, feedback and outputs. -/
def lawStep (x : LawIn) : LawOut :=
  let no := dNo x.b
  let g := x.g
  let es : Int :=
    if x.bfp then blockExp (withExp x.ste x.st ++ withExp 0 (g.y ++ g.u ++ g.r ++ g.uraw)) else 0
  let al := fun (e : Int) (vs : List Int) => vs.map fun v => alignTo es v e
  let sts := al x.ste x.st
  let xs := sts.take no
  let zs := sts.drop no
  let ys := al 0 g.y
  let us := al 0 g.u
  let rs := al 0 g.r
  let urs := al 0 g.uraw
  let inn := innovation x.b x.cs xs ys g.used
  let e1 := inn.map (·.1)
  let e2 := if x.bfp then
      let p := renorm e1 es
      p.1.map fun m => alignTo es m p.2
    else e1
  let x1 := (List.range no).map fun i =>
    accSum 0 (dotTerms x.b x.cs 0 i xs ++ dotTerms x.b x.cs 1 i us ++ dotTerms x.b x.cs 2 i e2)
  let z1 := (List.range (dNi x.b)).map fun i => integStep x zs ys rs us urs es i
  let raw := x1.map (·.1) ++ z1.map (·.1.1)
  let st2 : List Int × Int := if x.bfp then renorm raw es else (raw.map fun v => (sat32 v).1, 0)
  let satS : Option Nat := if x.bfp then none else firstFlag (raw.map sat32) 0
  let acc1 := orElseOpt (firstFlag x1 0) (firstFlag (z1.map (·.1)) no)
  -- feedback and output
  let fb := (List.range (dM x.b)).map fun o => accSum 0 (dotTerms x.b x.cs 4 o st2.1)
  let fb2 : List Int × Int := if x.bfp then renorm (fb.map (·.1)) st2.2 else (fb.map (·.1), 0)
  let e3 : Int := if x.bfp then blockExp (withExp fb2.2 fb2.1 ++ withExp 0 g.r) else 0
  let fb3 := fb2.1.map fun v => alignTo e3 v fb2.2
  let r3 := g.r.map fun v => alignTo e3 v 0
  let out := (List.range (dM x.b)).map fun o => accSum (-(fb3.getD o 0)) (dotTerms x.b x.cs 5 o r3)
  let out2 : List Int :=
    if x.bfp then
      let p := renorm (out.map (·.1)) e3
      p.1.map fun m => toInt m p.2
    else out.map (·.1)
  let ur := out2.map sat32
  let uraw := ur.map (·.1)
  let ex := (List.range uraw.length).map fun o =>
    uraw.getD o 0 + (match x.exc with
      | some (k, v) => if k = o then v else 0
      | none => 0)
  let u := (List.range ex.length).map fun o =>
    let l := x.lim.getD o (0, 0)
    clampI l.1 l.2 (ex.getD o 0)
  { st := st2.1
    ste := st2.2
    uraw := uraw
    u := u
    satAcc := orElseOpt (firstFlag inn 0) (orElseOpt acc1 (orElseOpt (firstFlag fb 0) (firstFlag out 0)))
    satOut := firstFlag ur 0
    satState := satS
    limit := u != ex
    zclamp := z1.any (·.2) }

/-- The re-seed x̂ = x̂ + Lr e with the innovation of the returned inputs only (R346). -/
def reseedState (b : List Byte) (cs : List (Int × Nat)) (bfp : Bool) (st : List Int) (ste : Int) (y : List Int)
    (returned : List Bool) : List Int × Int :=
  let no := dNo b
  let es : Int := if bfp then blockExp (withExp ste st ++ withExp 0 y) else 0
  let sts := st.map fun v => alignTo es v ste
  let ys := y.map fun v => alignTo es v 0
  let e := (innovation b cs (sts.take no) ys returned).map (·.1)
  let xs := (List.range no).map fun i => (accSum (sts.getD i 0) (dotTerms b cs 8 i e)).1
  let all := xs ++ sts.drop no
  if bfp then renorm all es else (all.map fun v => (sat32 v).1, 0)

end Sys2Proof.Machine
end

