-- ==== Sys2Proof/Machine/Ctl.lean ====
section
/-!
DEFINITION. Machine/Ctl.lean: the Carve control engines (08): gates, computations and deadlines, instance states, Glide,
cascades, coefficient sets and schedules, lost and frozen feedback, outputs that do not follow, Crossover, and the
commands of group 0x15.
-/
namespace Sys2Proof.Machine

abbrev LI := Fin 64

def ctlMod (i : LI) (f : CtlInst → CtlInst) (d : Dev) : Dev :=
  { d with ctl := { d.ctl with inst := vMod d.ctl.inst i f } }

def ctlInst (d : Dev) (i : LI) : CtlInst := d.ctl.inst.get i

/-- The descriptor in force of an instance. -/
def ctlDesc (d : Dev) (i : Nat) : List Byte := pbytes d kCtlDesc i

/-- PATH of a loop instance: its engine's home and the instance (R5, R96). -/
def ctlPath (i : LI) : Nat := chanPath 5 (i.val / 32) i.val

/-- Home engine of an instance, which is also its load role's index (08). -/
def ctlHome (i : LI) : Fin 2 := ⟨i.val / 32, by omega⟩

/-! ## States (R326, R327) -/

/-- The state shown, by the order of R327. -/
def ctlState (x : CtlInst) : Nat :=
  match x.base with
  | .free => 0
  | .stopped => 1
  | .test => 8
  | .ident => 9
  | .fallback => 7
  | .start => if x.held then 6 else if x.coast then 5 else 2
  | .run => if x.held then 6 else if x.coast then 5 else if x.bfp then 4 else 3

/-- The instance runs: it has left STOPPED (R328). -/
def ctlRuns (x : CtlInst) : Bool := x.base != .free && x.base != .stopped

/-- Its outputs are written (R326). -/
def ctlWrites (x : CtlInst) : Bool := x.base == .run || x.base == .ident

/-- The period boundary at or before the present tick, and with `1` the one after it (R308). -/
def edgeOf (d : Dev) (i : LI) (k : Nat) : Nat :=
  d.time.tick - d.time.tick % dPeriod (ctlDesc d i) + k * dPeriod (ctlDesc d i)

/-- Changes an instance and raises EV_CTL_STATE on port 2 where the state shown changes, with the boundary it belongs to: the
period's own, or the next one for a change at a deadline (R328, R356). -/
def ctlTransAt (k : Nat) (i : LI) (f : CtlInst → CtlInst) (d : Dev) : Dev :=
  let old := ctlState (ctlInst d i)
  let d := ctlMod i f d
  let x := ctlInst d i
  let new := ctlState x
  if new = old then d
  else raise 2 0x5001 (ctlPath i) (le 1 i ++ le 1 new ++ le 1 old ++ le 1 x.cause ++ le 8 (edgeOf d i k)) d

/-- The same at the boundary that began the present period. -/
def ctlTrans : LI → (CtlInst → CtlInst) → Dev → Dev := ctlTransAt 0

/-- Sets sticky flags; the first setting of SAT_ACC, SAT_OUT or SAT_STATE raises EV_CTL_SAT (R321). -/
def ctlFlag (i : LI) (k : Nat) (elem : Option Nat) (d : Dev) : Dev :=
  match elem with
  | none => d
  | some e =>
    let x := ctlInst d i
    if bitOf x.sticky k then d
    else
      let d := ctlMod i (fun x => { x with sticky := x.sticky ||| 2 ^ k }) d
      if k < 3 then raise 2 0x5005 (ctlPath i) (le 1 i ++ le 1 k ++ le 1 e) d else d

/-! ## Coefficient sets -/

/-- Set s of an instance; an empty, invalid one where none has been written (R338). -/
def ctlSet (x : CtlInst) (s : Nat) : CoefSet := alGet x.sets s { coefs := [], crc := 0, valid := false }

/-- A set as it stands before its first write: N zero coefficients. -/
def setFilled (b : List Byte) (cs : CoefSet) : CoefSet :=
  if cs.coefs.length = coefCount b then cs else { cs with coefs := List.replicate (coefCount b) (0, 0), valid := false }

/-- Changes a set of an instance. -/
def ctlSetMod (i : LI) (s : Nat) (f : CoefSet → CoefSet) (d : Dev) : Dev :=
  let b := ctlDesc d i
  ctlMod i (fun x => { x with sets := alSet x.sets s (f (setFilled b (ctlSet x s))) }) d

/-- The coefficients in use. -/
def setInUse (x : CtlInst) : List (Int × Nat) := (ctlSet x x.setUse).coefs

/-- Valid schedule sets, lowest first. -/
def validSets (b : List Byte) (x : CtlInst) : List Nat :=
  (List.range (dSets b)).map (· + 1) |>.filter fun s => (ctlSet x s).valid

/-! ## Admission (R319, R320) -/

/-- The demand and bytes of an engine with one descriptor replaced; every admitted instance of the engine counts. -/
def engineLoad (d : Dev) (home : Nat) (i : Nat) (b : List Byte) : Rat × Nat :=
  (List.finRange 64).foldl (fun a k =>
    if k.val / 32 != home then a
    else
      let bb := if k.val = i then b else if (ctlInst d k).base == .free then [] else ctlDesc d k
      if bb.isEmpty then a else (a.1 + demand bb, a.2 + instBytes bb)) (0, 0)

/-- The engine admits the descriptor (R319). -/
def ctlAdmits (d : Dev) (i : Nat) (b : List Byte) : Bool :=
  let l := engineLoad d (i / 32) i b
  l.1 ≤ 270000 && l.2 ≤ 262144

/-! ## Claims (R314) -/

/-- MASK bits of R120 of the objects an instance's outputs name. -/
def ctlObjects (b : List Byte) : List Nat :=
  (List.range (dM b)).filterMap fun o =>
    let w := dOut b o
    if wSrc w = 1 then some (64 + wObj w) else if wSrc w = 2 then some (wObj w) else none

/-- The mask of a list of bits. -/
def maskOf (ks : List Nat) : Nat := ks.foldl (fun m k => m ||| 2 ^ k) 0

/-- Takes or gives back an instance's claims. -/
def ctlClaim (i : LI) (on : Bool) (d : Dev) : Dev :=
  let m := maskOf (ctlObjects (ctlDesc d i))
  { d with ctl := { d.ctl with claims := if on then d.ctl.claims ||| m else d.ctl.claims ^^^ (d.ctl.claims &&& m) } }

/-- A reference cascade that breaks R333. -/
def cascadeBad (d : Dev) (b : List Byte) (j : Nat) : Bool :=
  let w := dRef b j
  if wSrc w = 1 then
    let k := wObj w / 16
    let ob := ctlDesc d k
    let o := wObj w % 16
    (vAt d.ctl.inst k CtlInst.reset).base == .free || dM ob ≤ o || wSrc (dOut ob o) != 0 ||
      dPeriod ob % dPeriod b != 0 || dPeriod ob / dPeriod b < 2 || 1000 < dPeriod ob / dPeriod b
  else false

/-- Another instance whose enable is accepted and waits for its gate or boundary names one of the objects (R314). -/
def claimComing (d : Dev) (i : LI) (b : List Byte) : Bool :=
  (List.finRange 64).any fun k =>
    let x := ctlInst d k
    let wait := d.cmd.waits.any fun w => w.addr == addrOf kCtlEnable k && w.words != [0] && w.words != [2]
    k != i && (wait && x.base == .stopped || x.enable.isSome && x.enable != some 2) &&
      (ctlObjects (ctlDesc d k)).any fun o => (ctlObjects b).contains o

/-- The refusal of an enable (R314). -/
def enableRefusal (d : Dev) (i : LI) (mode : Nat) : Option Refuse :=
  let b := ctlDesc d i
  let x := ctlInst d i
  if x.base == .free || mode = 0 then none
  else
    let own := x.base != .stopped
    firstRefusal [
      (mode != 2 && (ctlObjects b).any fun k => if k < 64 then bitOf d.pwr.pinFail k else bitOf d.pwr.vdFail (k - 64), refused 0x94),
      (mode != 2 && !own && (((ctlObjects b).any fun k => claimed d k) || claimComing d i b), refused 0x50),
      (mode != 2 && (List.range (dM b)).any fun o =>
        let w := dOut b o
        (wSrc w == 1 && !isPropMode (pget d kVlvMode (wObj w))) || (wSrc w == 2 && pget d kFioMode (wObj w) != 5),
        refused 0x51),
      ((List.range (dQ b)).any fun j => cascadeBad d b j, refused 0x52)]

/-! ## Output objects -/

/-- A duty joins the open set (R115). -/
def openDuty (pin : Fin 64) (v : Nat) (d : Dev) : Dev :=
  let slot : Fin 24 := ⟨pin.val / 8, by omega⟩
  let f : SlotVal := match d.lift.opened.get slot with
    | .bank ds fr => .bank (ds.set (pin.val % 8) v) fr
    | .valve c => .valve c
  { d with lift := { d.lift with opened := d.lift.opened.set slot f, openMask := d.lift.openMask ||| 2 ^ slot.val } }

/-- Writes one output of an instance into the open set (R309). -/
def ctlWriteOut (w : Nat) (v : Int) (d : Dev) : Dev :=
  if wSrc w = 1 then
    if h : wObj w < 16 then openProp ⟨wObj w, h⟩ (clampI 0 3000 v).toNat d else d
  else if wSrc w = 2 then
    if h : wObj w < 64 then openDuty ⟨wObj w, h⟩ (clampI 0 255 v).toNat d else d
  else d

/-- Writes every output of an instance. -/
def ctlWriteAll (i : LI) (us : List Int) (d : Dev) : Dev :=
  let b := ctlDesc d i
  forEach (List.range (dM b)) (fun o d => ctlWriteOut (dOut b o) (us.getD o 0) d) d

/-- The limits of an output (R322, R325). -/
def ctlLimits (d : Dev) (i : Nat) (b : List Byte) (o : Nat) : Int × Int :=
  let w := dOut b o
  let lo := pgetI d (kCtlOutMin + o) i
  let hi := pgetI d (kCtlOutMax + o) i
  if wSrc w = 1 then (max lo 0, min hi (pairV d kVlvPropMaxMa (wObj w) : Nat))
  else if wSrc w = 2 then (max lo 0, min hi 255)
  else (lo, hi)

/-- How an output's object stands (R347, R348): it follows; it does not, with the value it reports if it reports one; or
it has tripped or latched. -/
inductive Follow where
  | follows
  | held (reported : Option Int)
  | fault
  deriving DecidableEq, Repr

/-- An inner instance that takes output o of instance i as a reference and does not follow it (R334). -/
def innerHeld (d : Dev) (i : LI) (o : Nat) : Bool :=
  (List.finRange 64).any fun k =>
    let x := ctlInst d k
    let b := ctlDesc d k
    x.base != .free && (List.range (dQ b)).any (fun j =>
      wSrc (dRef b j) == 1 && wObj (dRef b j) == 16 * i.val + o) &&
      (ctlState x == 2 || ctlState x == 6 || ctlState x == 7)

/-- The condition of an output's object (R347, R348); in the start-up hold of R495 no object follows. -/
def follow (d : Dev) (i : LI) (b : List Byte) (o : Nat) : Follow :=
  let w := dOut b o
  if wSrc w = 1 then
    if h : wObj w < 16 then
      let n : Fin 16 := ⟨wObj w, h⟩
      let c := vlvCh d n
      if c.tripSp.isSome || c.latched then .fault
      else if c.safe || c.shed || f2On d || d.lift.silent || d.pwr.hold || !bitOf (pairV d kVlvOutEn (n.val / 4)) (n.val % 4) ||
          vlvHot d n then .held (some (fld c.status.toNat 16 16))
      else .follows
    else .follows
  else if wSrc w = 2 then
    if h : wObj w < 64 then
      let n : Fin 64 := ⟨wObj w, h⟩
      let p := d.fio.pin.get n
      if p.latched then .fault
      else if p.safe || p.shed || d.lift.silent || d.pwr.hold || !bitOf (pairV d kFioOutEn (n.val / 8)) (n.val % 8) || p.therm then
        .held (some (pinDrive d n))
      else .follows
    else .follows
  else if wSrc w = 0 then (if innerHeld d i o then .held none else .follows)
  else .follows

/-! ## Inputs (R311, R312, R322) -/

/-- Feedback status of a word (R312): 0 measurement, 1 counts as SETTLING, 2 lost at once. -/
def stMeas := 0
def stSettle := 1
def stLost := 2

/-- One input as its source has it at a gate: value, raw word, tag, status, and whether a newer word is due (R311). -/
structure InWord where
  val : Int
  raw : Word
  tag : Option Nat
  st : Nat
  due : Bool

/-- A service value at a gate: what the step of the present edge wrote is taken from the next edge on (R360). -/
def svcValue (d : Dev) (n : Nat) : Int :=
  alGet (if d.svc.lastStep = some d.time.tick then d.svc.valsOld else d.svc.vals) n 0

/-- Output o of an instance as others take it (R310, R312, R334). -/
def instOutput (d : Dev) (obj : Nat) : Int × Nat × Nat :=
  let x := vAt d.ctl.inst (obj / 16) CtlInst.reset
  let s := ctlState x
  (x.u.getD (obj % 16) 0, if s = 2 then 1 else if s = 7 ∨ s ≤ 1 then 2 else 0, x.outTick)

/-- The word of an input at the gate of the period that began at the present tick (R311, R312). -/
def inWord (d : Dev) (i : LI) (b : List Byte) (j : Nat) : InWord :=
  let w := dIn b j
  let obj := wObj w
  let t := d.time.tick
  match wSrc w with
  | 1 =>
    if h : obj < 32 then
      let ch : Fin 32 := ⟨obj, h⟩
      let c := d.afe.ch.get ch
      let s := statusOf c.result
      let held := s = sSubst && bitOf (afeState d ch) 0
      { val := valueOf c.result
        raw := c.result
        tag := c.rcvSeq.map fun q => c.resTick * 16 + q
        st := if s = sBroken ∨ s = sStale then stLost else if s = sSettling ∨ s = sOver ∨ held then stSettle else stMeas
        due := c.resTick * 1000 + afePeriodUs (pget d kAfeRate ch) ≤ t * 1000 }
    else { val := 0, raw := 0, tag := none, st := stSettle, due := false }
  | 2 =>
    if h : obj < 4 then
      let c := d.dlx.ch.get ⟨obj, h⟩
      let s := statusOf c.result
      let cyc := pget d kDlxCycleMs 0 * (if dlxThrottled d then 2 else 1)
      { val := valueOf c.result
        raw := c.result
        tag := c.rcvSeq.map fun q => c.resTick * 16 + q
        st := if s = xProbeFault ∨ s = xStale then stLost else if s = xSettling ∨ s = xPartialFill then stSettle
          else stMeas
        due := c.resTick + cyc ≤ t }
    else { val := 0, raw := 0, tag := none, st := stSettle, due := false }
  | 3 =>
    let p := vAt d.fio.pin obj Pin.reset
    let v := min p.freq (2 ^ 31 - 1)
    { val := v, raw := w32 v, tag := p.gate.map (·.1), st := if p.freqStale then stLost else stMeas, due := false }
  | 4 =>
    let o := instOutput d obj
    { val := o.1, raw := iw o.1, tag := some o.2.2, st := o.2.1, due := false }
  | 5 =>
    let v := pgetI d (kCtlExtIn + obj) i
    { val := v, raw := iw v, tag := if bitOf (ctlInst d i).extNew obj then some (t + 1) else none, st := stMeas,
      due := false }
  | 6 =>
    let v := svcValue d obj
    { val := v, raw := iw v, tag := some d.svc.steps, st := stMeas, due := false }
  | _ => { val := 0, raw := 0, tag := none, st := stSettle, due := false }

/-- What a gate makes of an input: the record, whether it is used for the innovation, whether it has become lost, and whether
the word it holds is a measurement. -/
structure InStep where
  now : CtlIn
  used : Bool
  newLost : Bool
  holds : Bool

/-- An input of which no gate has taken a word. -/
def inEmpty : CtlIn where
  tag := none
  val := 0
  raw := 0
  fresh := false
  settle := 0
  lost := none
  gone := false
  same := 0
  hist := []

/-- Highest less lowest over a list of ranges. -/
def spread (xs : List (Int × Int)) : Int :=
  ((xs.map (·.1)).foldl max (xs.headD (0, 0)).1) - ((xs.map (·.2)).foldl min (xs.headD (0, 0)).2)

/-- An input at a gate (R311, R343, R345, R346); `ufz` is the watched output in force. -/
def inStep (b : List Byte) (j : Nat) (old : CtlIn) (w : InWord) (ufz : Int) : InStep :=
  let spec := dIn b j
  let fresh := w.tag.isSome && w.tag != old.tag
  let meas := w.st == stMeas
  let missing := !fresh && w.due
  let settling := (fresh && w.st == stSettle) || missing
  let settle := if fresh && meas then 0 else if settling then old.settle + 1 else old.settle
  let n := inFreezeN spec
  let same := fresh && meas && old.tag.isSome && w.val == old.val
  let hist :=
    if !(fresh && meas) then
      match old.hist with
      | [] => []
      | p :: rest => (max p.1 ufz, min p.2 ufz) :: rest
    else if same then ((ufz, ufz) :: old.hist).take (max n 1)
    else [(ufz, ufz)]
  let cnt := if !(fresh && meas) then old.same else if same then old.same + 1 else 1
  let frozen := 2 ≤ n && n ≤ cnt && (dFreezeDu b : Int) < spread hist && (same || old.lost == some 2)
  let lost : Option Nat :=
    if !inFeedback spec then none
    else if w.st == stLost then some (if old.lost.isSome then old.lost.getD 0 else 0)
    else if frozen then some 2
    else if fresh && meas then none
    else if old.lost.isSome then old.lost
    else if inAllow spec < settle then some 1
    else none
  { now := { tag := if fresh then w.tag else old.tag
             val := if fresh then w.val else old.val
             raw := if fresh && meas && lost.isNone then w.raw else old.raw
             fresh := fresh && meas
             settle := settle
             lost := lost
             gone := old.gone || lost.isSome
             same := cnt
             hist := hist }
    used := fresh && meas && lost.isNone
    newLost := lost.isSome && old.lost.isNone
    holds := meas && lost.isNone && (fresh || old.tag.isSome) }

/-! ## References and Glide (R331, R332) -/

/-- Source value of a reference at a gate (R313, R333). -/
def refSource (d : Dev) (i : LI) (b : List Byte) (j : Nat) : Int :=
  let w := dRef b j
  match wSrc w with
  | 0 => pgetI d (kCtlTarget + j) i
  | 1 => (instOutput d (wObj w)).1
  | _ => svcValue d (wObj w)

/-- The step of a ramp in one period (R331). -/
def glideStep (d : Dev) (i : LI) (b : List Byte) (j : Nat) : Nat :=
  let rate := pget d (kCtlGlideRate + j) i
  if rate = 0 then 0 else max 1 (rate * dPeriod b / 1000)

/-- One move of a reference toward its source. -/
def moveTo (r src : Int) (step : Nat) : Int :=
  if r < src then min src (r + step) else max src (r - step)

/-- References and ramps at a gate. `start` begins a ramp from the TRACK inputs (R331); otherwise ramps move on, and
with GLIDE_ALL a changed source value begins one (R332). -/
def glideRefs (d : Dev) (i : LI) (b : List Byte) (x : CtlInst) (ins : List CtlIn) (meas : List Bool) (start : Bool) :
    List Int × List Bool × List Int :=
  let js := List.range (dQ b)
  let src := js.map fun j => refSource d i b j
  let pairs := js.map fun j =>
    let s := src.getD j 0
    let step := glideStep d i b j
    let r := x.refs.getD j s
    if start then
      let k := refTrack (dRef b j)
      if step = 0 ∨ !meas.getD k false then (s, false)
      else
        let v := (ins.map (·.val)).getD k s
        (v, v != s)
    else if x.ramp.getD j false then
      let r := if step = 0 then s else moveTo r s step
      (r, r != s)
    else if dGlideAll b && x.seenSrc.getD j s != s && step != 0 then
      let r := moveTo r s step
      (r, r != s)
    else (s, false)
  (pairs.map (·.1), pairs.map (·.2), src)

/-! ## Entering FALLBACK -/

/-- The fallback value of an output (R329, R350). -/
def fallbackVal (d : Dev) (i : LI) (b : List Byte) (x : CtlInst) (cause o : Nat) : Int :=
  if cause = 4 ∧ follow d i b o = .fault then 0
  else if outFbMode (dOut b o) then pairI d (kCtlFallback + o) i
  else x.u.getD o 0

/-- An instance enters FALLBACK (R328, R329): its fallback values join the next set and are in force from its edge. -/
def ctlFallbackAt (k : Nat) (i : LI) (cause : Nat) (d : Dev) : Dev :=
  let b := ctlDesc d i
  let x := ctlInst d i
  let us := (List.range (dM b)).map fun o => fallbackVal d i b x cause o
  let d := ctlTransAt k i (fun x => { x with base := .fallback, cause := cause, next := some (us, us), held := false }) d
  if x.base == .test then d else ctlWriteAll i us d

/-- The same at the boundary that began the present period. -/
def ctlFallback : LI → Nat → Dev → Dev := ctlFallbackAt 0

/-- A change of the coefficient source that waits for the next period boundary; commands that waited before go on waiting. -/
def ctlPendSet (auto : Bool) (set : Option Nat) (cause : Nat) (cmds : List CmdId) (x : CtlInst) : CtlInst :=
  let p : SetPend := { auto := auto, set := set, cause := cause, cmds := ((x.setPend.map (·.cmds)).getD []) ++ cmds }
  { x with setPend := some p }

/-- EV_CTL_SCHED and the change of set (R339, R340). -/
def ctlSwitch (i : LI) (auto : Bool) (set cause : Nat) (d : Dev) : Dev :=
  let old := (ctlInst d i).setUse
  let d := ctlMod i (fun x => { x with setUse := set, auto := auto }) d
  if set = old then d
  else raise 2 0x5006 (ctlPath i) (le 1 i ++ le 1 set ++ le 1 old ++ le 1 cause) d

/-- The set that automatic selection takes for a value of the scheduling variable (R339): breakpoint s - 1 lies between
set s and set s + 1. -/
def schedTarget : (fuel : Nat) → (bp : List Int) → (hyst v : Int) → (sets s : Nat) → Nat
  | 0, _, _, _, _, s => s
  | n + 1, bp, hyst, v, sets, s =>
    if s < sets ∧ bp.getD (s - 1) 0 + hyst ≤ v then schedTarget n bp hyst v sets (s + 1)
    else if 1 < s ∧ v < bp.getD (s - 2) 0 - hyst then schedTarget n bp hyst v sets (s - 1)
    else s

/-- The nearest valid set on the side of the target (R339). -/
def nearestValid (valid : List Nat) (cur target : Nat) : Nat :=
  if valid.contains target then target
  else if cur < target then (valid.find? fun s => target ≤ s).getD cur
  else if target < cur then (valid.reverse.find? fun s => s ≤ target).getD cur
  else cur

/-- Breakpoints of the gain schedule. -/
def schedBp (d : Dev) (i : Nat) : List Int :=
  (List.range 7).map fun k => sext 32 (field (pbytes d kCtlSchedBp i) (4 * k) 4)

/-- Automatic selection at a gate: the change waits for the next period boundary (R339). -/
def ctlSchedule (i : LI) (v : Int) (meas : Bool) (d : Dev) : Dev :=
  let b := ctlDesc d i
  let x := ctlInst d i
  if !x.auto || !meas || x.setPend.isSome then d
  else
    let cur := max 1 x.setUse
    let t := nearestValid (validSets b x) cur (schedTarget 16 (schedBp d i) (dSchedHyst b) v (dSets b) cur)
    if t = x.setUse then d
    else ctlMod i (ctlPendSet true (some t) 0 []) d

/-- The set in use is not valid (R340): another set by the coefficient source, or FALLBACK with cause 3. -/
def setFailed (i : LI) (d : Dev) : Dev :=
  let b := ctlDesc d i
  let x := ctlInst d i
  match (validSets b x).filter fun s => x.setUse < s || dCoefSrc b == 2 with
  | s :: _ => if dCoefSrc b = 0 then ctlFallback i 3 d else ctlSwitch i (dCoefSrc b == 2 || x.auto) s 2 d
  | [] =>
    match validSets b x with
    | s :: _ => if dCoefSrc b = 0 then ctlFallback i 3 d else ctlSwitch i (dCoefSrc b == 2 || x.auto) s 2 d
    | [] => ctlFallback i 3 d

/-! ## Period boundaries -/

/-- An enable takes effect at a period boundary (R328), where no other block has claimed one of its objects
meanwhile (R314): states from 0 or as written, the coefficient source of R340, and
the outputs from the values in force at their objects. -/
def ctlBegin (i : LI) (mode : Nat) (d : Dev) : Dev :=
  let b := ctlDesc d i
  if mode ≠ 2 ∧ (ctlObjects b).any (fun k => claimed d k) then ctlMod i (fun x => { x with enable := none }) d else
  let d := if mode = 2 then d else ctlClaim i true d
  let wrote := (ctlInst d i).wrote
  let st := if wrote then padInts (dN b) (ctlInst d i).st else List.replicate (dN b) 0
  let ste := if wrote then (ctlInst d i).ste else 0
  let uf := (List.range (dM b)).map fun o =>
    let w := dOut b o
    if wSrc w = 1 then ((vAt d.vlv.ch (wObj w) VlvCh.reset).cmdSp : Int)
    else if wSrc w = 2 then ((vAt d.fio.pin (wObj w) Pin.reset).cmd : Int)
    else (ctlInst d i).u.getD o 0
  ctlTrans i (fun x =>
    { x with
      base := if mode = 1 then .start else if mode = 2 then .test else .ident
      cause := 0
      bfp := true
      held := false
      coast := false
      st := st
      ste := ste
      wrote := false
      u := uf
      uraw := uf
      next := none
      uPrev := uf
      backlog := []
      done := none
      since := d.time.tick
      refs := []
      ramp := []
      seenSrc := []
      ins := List.replicate (dP b) inEmpty
      gate := none
      overruns := 0
      setUse := if dCoefSrc b = 1 then 1 else 0
      auto := dCoefSrc b == 1
      setPend := x.setPend.filter fun p => !p.cmds.isEmpty
      enable := none
      reseed := false
      chk := some { st := st, ste := ste, u := uf, uraw := uf, refs := [], ramp := [], overruns := 0 }
      handover := d.ctl.serving.get (ctlHome i) == 2
      prbs := 0x1FF }) d
where
  /-- A list of integers cut or filled with zeros to a length. -/
  padInts (n : Nat) (xs : List Int) : List Int := (xs ++ List.replicate n 0).take n

/-- `CTL_RESUME` takes an instance from FALLBACK to START (R328); it keeps its set. -/
def ctlRestart (i : LI) (d : Dev) : Dev :=
  let t := tickBytes d
  let ids := (ctlInst d i).resume
  let x := ctlInst d i
  let st := if x.wrote then x.st else List.replicate x.st.length 0
  let ste := if x.wrote then x.ste else 0
  let d := ctlTrans i (fun x =>
    { x with base := .start, cause := 0, bfp := true, coast := false, held := false, next := none, overruns := 0,
             resume := [], wrote := false, ramp := [], backlog := [], done := none, since := d.time.tick,
             st := st, ste := ste, chk := x.chk.map fun c => { c with st := st, ste := ste, overruns := 0 },
             ins := x.ins.map fun c => { c with lost := none, gone := false, settle := 0, same := 0, hist := [] } }) d
  forEach ids (fun id d => completeId id 0 0 t d) d

/-- Coefficient writes land at the first period boundary of the instance that falls 20 µs or more after them (R335). -/
def ctlLand (i : LI) (d : Dev) : Dev :=
  let ps := (ctlInst d i).pend.filter fun p => p.since ≤ d.time.tick
  if ps.isEmpty then d
  else
    let d := ctlSetMod i 0 (fun s =>
      let cs := ps.foldl (fun cs p => cs.set p.idx (p.val, p.shift)) s.coefs
      { coefs := cs, crc := setCrc cs, valid := true }) d
    let d := ctlMod i (fun x => { x with pend := x.pend.filter fun p => d.time.tick < p.since }) d
    let r := tickBytes d ++ le 4 (ctlSet (ctlInst d i) 0).crc.toNat
    forEach ps (fun p d => completeId p.cmd 0 0 r d) d

/-- A change of the coefficient source takes effect at a period boundary (R339, R340). -/
def ctlSelect (i : LI) (d : Dev) : Dev :=
  match (ctlInst d i).setPend with
  | none => d
  | some p =>
    let b := ctlDesc d i
    let x := ctlInst d i
    let set := match p.set with
      | some s => s
      | none => nearestValid (validSets b x) 0 (max 1 x.setUse)
    let d := ctlSwitch i p.auto set p.cause (ctlMod i (fun x => { x with setPend := none }) d)
    let t := tickBytes d
    forEach p.cmds (fun id d => completeId id 0 0 t d) d

/-- `CTL_RESUME` of an instance that is no longer in FALLBACK at the boundary it waited for (R355). -/
def resumeVoid (i : LI) (d : Dev) : Dev :=
  forEach (ctlInst d i).resume (fun id d => completeId id stRefused 0x53 [] d) (ctlMod i (fun x => { x with resume := [] }) d)

/-- A period boundary of an instance (R308): what waits for it takes effect, and its new outputs are in force (R310). -/
def ctlBoundary (i : LI) (d : Dev) : Dev :=
  let d := ctlLand i d
  let d := ctlSelect i d
  let x := ctlInst d i
  let d := match x.next with
    | some (u, r) => ctlMod i (fun x => { x with u := u, uraw := r, uPrev := x.u, next := none, outTick := d.time.tick }) d
    | none => ctlMod i (fun x => { x with uPrev := x.u }) d
  let d := if x.resume.isEmpty then d else if x.base == .fallback then ctlRestart i d else resumeVoid i d
  match (ctlInst d i).enable with
  | none => d
  | some m => if 1 ≤ d.pwr.level then ctlBegin i m d else d

/-- The Carve engines at a TICK edge: period boundaries, and fallback values in force at the first edge (R329). Engines whose
domain sleeps stand still (R486). -/
def ctlTick (d : Dev) : Dev :=
  when (domOn d 2) (forEach (List.finRange 64) fun i d =>
    let x := ctlInst d i
    if x.base == .free then d
    else if d.time.tick % dPeriod (ctlDesc d i) = 0 then ctlBoundary i d
    else if x.base == .fallback then
      match x.next with
      | some (u, r) => ctlMod i (fun x => { x with u := u, uraw := r, next := none, outTick := d.time.tick }) d
      | none => d
    else d) d

/-! ## The gate (R309, R311) -/

/-- An instance stops (R328): its claims end and it computes no more. -/
def ctlStop (i : LI) (d : Dev) : Dev :=
  ctlTrans i (fun x =>
    { x with
      base := .stopped
      cause := 0
      held := false
      coast := false
      next := none
      gate := none
      done := none
      enable := none
      reseed := false
      wrote := false }) (ctlClaim i false d)

/-- A fallback value written while the instance is in FALLBACK is the output's from the next APPLY on (R329). -/
def fallbackWritten (i : LI) (o : Nat) (d : Dev) : Dev :=
  let b := ctlDesc d i
  let x := ctlInst d i
  if x.base == .fallback && o < dM b && outFbMode (dOut b o) then
    let us := ((x.next.map (·.1)).getD x.u).set o (fallbackVal d i b x x.cause o)
    ctlWriteOut (dOut b o) (us.getD o 0) (ctlMod i (fun x => { x with next := some (us, us) }) d)
  else d

/-- The device's own reaction when a parameter of this block takes effect: a descriptor gives an instance its memory,
`CTL_ENABLE` starts or stops it, an external input is fresh at the gate, and a fallback value in use is written (R312, R328,
R329). -/
def ctlHook (addr : Nat) (d : Dev) : Dev :=
  let key := keyOf addr
  if h : instOf addr < 64 then
    let i : LI := ⟨instOf addr, h⟩
    let x := ctlInst d i
    if key = kCtlDesc then
      let b := ctlDesc d i
      if x.base == .free then ctlTrans i (fun x => { x with base := .stopped, sets := [], st := List.replicate (dN b) 0 }) d
      else ctlMod i (fun x =>
        { x with sets := x.sets.filter fun p => p.2.coefs.length == coefCount b, st := List.replicate (dN b) 0, ste := 0,
                 wrote := false }) d
    else if key = kCtlEnable then
      let m := pget d kCtlEnable i
      if x.base == .free then d
      else if m = 0 then ctlStop i d
      else if x.base == .stopped then
        if d.time.tick % dPeriod (ctlDesc d i) = 0 && 1 ≤ d.pwr.level then ctlBegin i m d
        else ctlMod i (fun x => { x with enable := some m }) d
      else d
    else if kCtlExtIn ≤ key ∧ key < kCtlExtIn + 16 then
      ctlMod i (fun x => { x with extNew := x.extNew ||| 2 ^ (key - kCtlExtIn) }) d
    else if kCtlFallback ≤ key ∧ key < kCtlFallback + 16 then fallbackWritten i (key - kCtlFallback) d
    else d
  else d

/-- The values in force during the period (R306): the outputs applied, or what an object that does not follow reports. -/
def uInForce (d : Dev) (i : LI) (b : List Byte) (x : CtlInst) : List Int :=
  (List.range (dM b)).map fun o =>
    match (if x.base == .test then .follows else follow d i b o) with
    | .held (some v) => v
    | _ => x.u.getD o 0

/-- Events of inputs that have become lost (R344). -/
def lostEvents (i : LI) (olds : List CtlIn) (steps : List InStep) (d : Dev) : Dev :=
  forEach (List.range steps.length) (fun j d =>
    match steps[j]? with
    | some s =>
      if s.newLost then
        raise 2 0x5003 (ctlPath i) (le 1 i ++ le 1 j ++ le 1 (s.now.lost.getD 0) ++ [0] ++
          le 4 ((olds.map fun (o : CtlIn) => o.raw).getD j 0).toNat) d
      else d
    | none => d) d

/-- Events of inputs that seed the observer (R346). -/
def okEvents (i : LI) (steps : List InStep) (which : List Bool) (d : Dev) : Dev :=
  forEach (List.range steps.length) (fun j d =>
    match steps[j]? with
    | some s =>
      if which.getD j false then
        raise 2 0x5004 (ctlPath i) (le 1 i ++ le 1 j ++ [0, 0] ++ le 4 s.now.raw.toNat) d
      else d
    | none => d) d

/-- The gate of a running instance: inputs, states of R328, references and values in force are taken and the computation
is released (R309). -/
def gateRun (i : LI) (d : Dev) : Dev :=
  let b := ctlDesc d i
  let x := ctlInst d i
  let js := List.range (dP b)
  let ufz := x.u.getD (dFreezeOut b) 0
  let steps := js.map fun j => inStep b j ((x.ins[j]?).getD inEmpty) (inWord d i b j) ufz
  let ins := steps.map (·.now)
  let d := lostEvents i x.ins steps d
  let fbj := js.filter fun j => inFeedback (dIn b j)
  let anyLost := fbj.any fun j => ((ins[j]?).bind (·.lost)).isSome
  let wasLost := x.ins.any (·.lost.isSome)
  let allFresh := fbj.all fun j => ((ins[j]?).map (·.fresh)).getD false
  let meas := ins.map (·.fresh)
  let holds := steps.map (·.holds)
  let fol := (List.range (dM b)).map fun o => if x.base == .test then Follow.follows else follow d i b o
  let anyHeld := fol.any fun f => match f with
    | .held _ => true
    | _ => false
  let fault := fol.any fun f => f == .fault
  let back := ins.map fun c => c.gone && c.fresh
  let cs := setInUse x
  -- transitions
  let seedStart := x.base == .start && allFresh && !anyLost
  let seedBack := wasLost && !anyLost && (x.base == .run || (x.base == .fallback && x.cause == 2)) && !x.reseed
  let seedMove := x.reseed && !anyLost && allFresh
  let which := if seedBack then back else if seedStart || seedMove then meas else []
  let seed := seedStart || seedBack || seedMove
  let y := ins.map (·.val)
  let st := if seed then reseedState b cs true x.st x.ste y which else (x.st, x.ste)
  let leaveHeld := x.held && !anyHeld
  let glide := seed || (leaveHeld && x.base == .run && !anyLost)
  let d := ctlMod i (fun x =>
    { x with ins := if seed then ins.map (fun c => { c with gone := false }) else ins
             st := st.1
             ste := st.2
             chk := if seed then x.chk.map fun c => { c with st := st.1, ste := st.2 } else x.chk
             extNew := 0
             lastGate := d.time.tick
             reseed := x.reseed && !seedMove }) d
  let d := if seedBack then okEvents i steps back d else d
  let d := ctlTrans i (fun x =>
    { x with
      base := if seed then .run else x.base
      cause := if seed then 0 else x.cause
      bfp := x.bfp || glide
      coast := (x.base == .run || x.base == .ident) && anyLost
      since := if (x.base == .run || x.base == .ident) && anyLost && !x.coast then d.time.tick else x.since
      held := anyHeld && (x.base == .run || x.base == .ident || x.base == .start) }) d
  if fault && (ctlWrites (ctlInst d i) || x.base == .start) then ctlFallback i 4 d
  else if !(ctlSet (ctlInst d i) (ctlInst d i).setUse).valid && (ctlInst d i).base != .start && (ctlInst d i).base != .fallback
  then setFailed i d
  else
    let x := ctlInst d i
    let d := ctlSchedule i (y.getD (dSchedIn b) 0)
      (((js.map fun j => (inWord d i b j).st == stMeas)).getD (dSchedIn b) false) d
    let g := glideRefs d i b x ins holds glide
    let ended := (x.ramp.any id) && !(g.2.1.any id) && !glide
    let d := ctlMod i (fun x => { x with refs := g.1, ramp := g.2.1, seenSrc := g.2.2 }) d
    let d := if ended then raise 2 0x500B (ctlPath i) (le 1 i) d else d
    let used := steps.map (·.used)
    let frz := (List.range (dNi b)).map fun k =>
      !used.getD (integIn b k) false ||
        (match fol.getD (integOut b k) .follows with
         | .held _ => true
         | _ => false)
    let x := ctlInst d i
    if x.base == .start then d
    else
      ctlMod i (fun x =>
        { x with
          gate := some
            { tick := d.time.tick
              y := y
              used := used
              r := g.1
              u := uInForce d i b x
              uraw := x.uraw
              frz := frz
              obs := x.base == .fallback } }) d

/-- `CTL_GATE`: 100 µs after a period boundary LIVE values of the instance take effect (R354), and a running instance
takes its inputs (R309). In FALLBACK only a feedback cause keeps the observer running (R326). -/
def ctlGate (i : LI) (d : Dev) : Dev :=
  let d := boundary ctlHook (fun w => w.bnd == .gate i) d
  let x := ctlInst d i
  match x.base with
  | .free => d
  | .stopped => d
  | .fallback => if x.cause = 2 ∨ x.reseed then gateRun i d else d
  | _ => gateRun i d

/-! ## Computation and deadline -/

/-- The PRBS-9 of IDENT, x^9 + x^5 + 1 (R330): the next register; its lowest bit gives the sign. -/
def prbs9 (r : Nat) : Nat := (r * 2) % 512 + b2n (bitOf r 8 != bitOf r 4)

/-- The excitation of an instance in IDENT (R330). -/
def ctlExc (d : Dev) (i : LI) (x : CtlInst) : Option (Nat × Int) :=
  if x.base == .ident then
    let a : Int := pget d kCtlIdAmpl i
    some (pget d kCtlIdOut i, if bitOf x.prbs 0 then a else -a)
  else none

/-- The record of IDENT for Q17 (R330). -/
def identRecord (d : Dev) (i : LI) (g : GateRec) : List Byte :=
  le 8 g.tick ++ le 1 i ++ le 1 0x51 ++ [0, 0] ++ le 4 (toBits 32 (g.u.getD (pget d kCtlIdOut i) 0)) ++
    (List.range 4).flatMap fun j => le 4 (toBits 32 (g.y.getD j 0))

/-- An engine that no longer serves a load hands over an output: the latch refuses it by its epoch (R352). -/
def ctlFence (role : Fin 2) (d : Dev) : Dev :=
  let d := { d with ctl := { d.ctl with fenced := vMod d.ctl.fenced role (· + 1) } }
  let e := epochOf d (1 + role)
  raise 2 0x5008 (subPath 5) (le 1 role ++ le 1 e ++ le 1 (e + 255) ++ [0] ++ le 4 (d.ctl.fenced.get role)) d

/-- The computation that an engine ends next: a late one first, which hands nothing over (R341), else that of the period. -/
def ctlPending (x : CtlInst) : Option GateRec :=
  match x.backlog with
  | g :: _ => some g
  | [] => x.gate

/-- That computation is over. -/
def ctlTaken (x : CtlInst) : CtlInst :=
  match x.backlog with
  | _ :: rest => { x with backlog := rest }
  | [] => { x with gate := none }

/-- The set in use fails its check (R340): nothing is handed over and the set is invalid. -/
def ctlIntegrity (i : LI) (computed : Word) (d : Dev) : Dev :=
  let x := ctlInst d i
  let s := x.setUse
  let d := raise 2 0x5007 (ctlPath i) (le 1 i ++ le 1 s ++ [0, 0] ++ le 4 (ctlSet x s).crc.toNat ++ le 4 computed.toNat) d
  let d := ctlSetMod i s (fun c => { c with valid := false }) d
  setFailed i (ctlMod i (fun x => ctlTaken { x with sticky := x.sticky ||| 8 }) d)

/-- The engine `eng` ends the computation of a period (R305): the state is kept, and the outputs are handed over unless
the deadline has passed (R341). `bad` is the CRC computed where the set in use failed its check. -/
def computeDone (i : LI) (eng : Fin 3) (bad : Option Word) (d : Dev) : Dev :=
  let x := ctlInst d i
  match ctlPending x with
  | none => d
  | some g =>
    if d.ctl.serving.get (ctlHome i) != eng.val then ctlFence (ctlHome i) d
    else if d.ctl.faulty.get eng then d
    else match bad with
      | some w => ctlIntegrity i w d
      | none =>
        let b := ctlDesc d i
        let r := lawStep
          { b := b, cs := setInUse x, bfp := x.bfp, st := x.st, ste := x.ste, g := g
            lim := (List.range (dM b)).map fun o => ctlLimits d i b o
            zlim := (List.range (dNi b)).map fun k => (pget d (kCtlZLim + k) i : Int)
            exc := ctlExc d i x }
        let d := ctlMod i (fun x =>
          { ctlTaken x with
            done := if x.backlog.isEmpty then some g else x.done
            st := r.st
            ste := r.ste
            limit := r.limit
            zclamp := r.zclamp
            prbs := if x.base == .ident then prbs9 x.prbs else x.prbs
            next := if g.obs || x.base == .fallback || !x.backlog.isEmpty then x.next else some (r.u, r.uraw) }) d
        let d := ctlFlag i 0 r.satAcc (ctlFlag i 1 r.satOut (ctlFlag i 2 r.satState d))
        if x.base == .ident then emit (.push 17 (identRecord d i g)) d else d

/-- Every value lies within ±2^(31 - H) (R324). -/
def fitsHeadroom (b : List Byte) (x : CtlInst) : Bool :=
  let lim : Int := 2 ^ (31 - dHeadroom b)
  (x.st.map fun v => toInt v x.ste).all (fun v => -lim ≤ v && v ≤ lim) &&
    ((x.next.map (·.1)).getD x.u).all fun v => -lim ≤ v && v ≤ lim

/-- The end of RUN_BFP at a deadline (R324). -/
def ctlBfpExit (i : LI) (d : Dev) : Dev :=
  let b := ctlDesc d i
  let x := ctlInst d i
  if ctlState x = 4 && fitsHeadroom b x && !(x.ins.any (·.lost.isSome)) && !(x.ramp.any id) then
    let d := ctlTransAt 1 i (fun x => { x with bfp := false, st := x.st.map (fun v => (sat32 (toInt v x.ste)).1), ste := 0 }) d
    raise 2 0x500A (ctlPath i) (le 1 i ++ [0, 0, 0] ++ le 8 (edgeOf d i 1)) d
  else d

/-- The checkpoint record of a period, whose gate is needed no more (R317). -/
def ctlCheckpoint (i : LI) (d : Dev) : Dev :=
  ctlMod i (fun x =>
    { x with
      done := none
      chk := some
        { st := x.st
          ste := x.ste
          u := (x.next.map (·.1)).getD x.u
          uraw := (x.next.map (·.2)).getD x.uraw
          refs := x.refs
          ramp := x.ramp
          overruns := x.overruns } }) d

/-- A computation that has missed its deadline goes on, and hands nothing over (R341). -/
def ctlLate (i : LI) (d : Dev) : Dev :=
  ctlMod i (fun x => { x with backlog := x.backlog ++ x.gate.toList, gate := none, done := none }) d

/-- The deadline of a period (R309, R341): outputs handed over join the set, and the checkpoint is written; a
computation still running is an overrun. -/
def ctlDeadline (i : LI) (d : Dev) : Dev :=
  let b := ctlDesc d i
  let x := ctlInst d i
  if !ctlRuns x || x.base == .start then d
  else match x.next, x.gate with
    | some (u, _), _ =>
      if x.base == .fallback then ctlLate i d
      else
        let d := if ctlWrites x then ctlWriteAll i u d else d
        let d := ctlMod i (fun x => { x with overruns := 0 }) d
        ctlCheckpoint i (ctlBfpExit i d)
    | none, some _ =>
      if x.base == .fallback then ctlLate i d
      else
        let n := min (x.overruns + 1) 15
        let d := ctlMod i (fun x => { x with overruns := n, sticky := x.sticky ||| 256 }) (ctlLate i d)
        let d := raise 2 0x5002 (ctlPath i) (le 1 i ++ le 1 n ++ le 1 (d.ctl.serving.get (ctlHome i)) ++ [0] ++
          le 8 (edgeOf d i 1)) d
        if dOvrMax b ≤ n then ctlFallbackAt 1 i 1 d else d
    | none, none => if x.base == .fallback && x.cause == 2 then ctlCheckpoint i d else d

/-- The coast time is reached with an input still lost (R313, R344). -/
def coastExpired (i : LI) (d : Dev) : Dev :=
  let x := ctlInst d i
  if x.coast && (x.base == .run || x.base == .ident) && x.since + coastMs (ctlDesc d i) ≤ d.time.tick then ctlFallback i 2 (ctlMod i (fun x => { x with coast := false }) d)
  else d

/-- The feedback inputs that gave no seed count as lost, so that their return ends the FALLBACK (R328, R346). -/
def seedMissing (i : LI) (d : Dev) : Dev :=
  let b := ctlDesc d i
  forEach (List.range (dP b)) (fun j d =>
    let c := ((ctlInst d i).ins[j]?).getD inEmpty
    if !inFeedback (dIn b j) || c.fresh || c.lost.isSome then d
    else
      let d := ctlMod i (fun x => { x with ins := x.ins.set j { c with lost := some 1, gone := true } }) d
      raise 2 0x5003 (ctlPath i) (le 1 i ++ le 1 j ++ [1, 0] ++ le 4 c.raw.toNat) d) d

/-- The time in ms that START waits for a seed: the coast time, or 1 s where that is 0 (R328). -/
def seedMs (b : List Byte) : Nat := if coastMs b = 0 then 1000 else coastMs b

/-- START gets no seed within its time (R328). -/
def startTimeout (i : LI) (d : Dev) : Dev :=
  let x := ctlInst d i
  if x.base == .start && x.since + seedMs (ctlDesc d i) ≤ d.time.tick then ctlFallback i 2 (seedMissing i d) else d

/-! ## Apply misses, silence and Crossover -/

/-- An apply miss delays the outputs of instances that had one in the set (R306): the instance counts it, and with a
period of 1 ms the previous value is in force. -/
def ctlApplyMiss (tick mask : Nat) (d : Dev) : Dev :=
  forEach (List.finRange 64) (fun i d =>
    let x := ctlInst d i
    let b := ctlDesc d i
    let named := fun (o : Nat) =>
      let w := dOut b o
      (wSrc w == 1 && bitOf mask (8 + wObj w)) || (wSrc w == 2 && bitOf mask (wObj w / 8))
    if ctlWrites x && (List.range (dM b)).any named && tick % dPeriod b == 0 then
      let d := ctlMod i (fun x =>
        { x with sticky := x.sticky ||| 512, late := x.late + 1,
                 u := if dPeriod b = 1 then (List.range (dM b)).map fun o => if named o then x.uPrev.getD o 0 else x.u.getD o 0
                   else x.u }) d
      raise 2 0x500C (ctlPath i) (le 1 i ++ [0, 0, 0] ++ le 8 tick) d
    else d) d

/-- The commander that last wrote a live coefficient falls silent: COEF_SRC 2 goes to its schedule (R340). -/
def ctlSilence (cdr : Nat) (d : Dev) : Dev :=
  forEach (List.finRange 64) (fun i d =>
    let x := ctlInst d i
    if ctlRuns x && dCoefSrc (ctlDesc d i) == 2 && x.liveCdr == some cdr && !x.auto then
      ctlMod i (ctlPendSet true none 1 []) d
    else d) d

/-- An engine that no other replaces: its instances enter FALLBACK with cause 6 (R352, R516). -/
def engineLost (e : Fin 3) (d : Dev) : Dev :=
  let d := unitMod (3 + e) (fun u => { u with st := 2, role := 255, faults := satAdd u.faults 1 0xFFFF }) d
  forEach (List.finRange 64) (fun i d =>
    if (ctlHome i).val = e.val && ctlRuns (ctlInst d i) then ctlFallback i 6 d else d) d

/-- A Carve engine is declared faulty (R525): its unit is replaced by CE2 where CE2 is free, and a CE2 that carries a load by
that load's engine where it has become the spare (R527); the instances move at a TICK edge (R351). -/
def engineFault (e : Fin 3) (d : Dev) : Dev :=
  if d.ctl.faulty.get e then d
  else
    let d := { d with ctl := { d.ctl with faulty := d.ctl.faulty.set e true } }
    if h : e.val < 2 then
      if d.ctl.serving.get ⟨e, h⟩ != e.val then
        unitMod (3 + e) (fun u => if u.st = 1 then { u with st := 2, role := 255, faults := satAdd u.faults 1 0xFFFF } else u) d
      else if d.ctl.serving.toList.contains 2 || d.ctl.faulty.get 2 then doubleFault 1 (engineLost e d)
      else if d.hlt.patrolLost then engineLost e d
      else crossover (3 + e) 5 (1 + e) d
    else
      let d := unitMod 5 (fun u => { u with st := 2, role := 255, faults := satAdd u.faults 1 0xFFFF }) d
      if !d.hlt.patrolLost && (List.finRange 2).any fun h => d.ctl.serving.get h == 2 && (unitOf d (3 + h)).st == 1 then
        forEach ((List.finRange 2).filter fun h => d.ctl.serving.get h == 2) (fun h d => crossover 5 (3 + h) (1 + h) d) d
      else if d.ctl.serving.toList.contains 2 then
        doubleFault 1 (forEach (List.finRange 64) (fun i d =>
          if d.ctl.serving.get (ctlHome i) = 2 && ctlRuns (ctlInst d i) then ctlFallback i 6 d else d) d)
      else d

/-- A period of the instance has not met its deadline: its computation is made again from the stored gate (R351). -/
def recomputes (x : CtlInst) : Bool := x.gate.isSome || x.done.isSome

/-- An instance moved to CE2: from its checkpoint, in block floating point, with the computation of a period that has not met its
deadline to be made again (R351). -/
def moveInst (x : CtlInst) : CtlInst :=
  let y : CtlInst := match x.chk with
    | none => x
    | some c => { x with st := c.st, ste := c.ste, overruns := c.overruns }
  { y with
    bfp := true
    handover := true
    backlog := []
    gate := if x.gate.isSome then x.gate else x.done
    next := if x.done.isSome && x.base != .fallback then none else x.next
    done := none }

/-- The engine that is to take over a load whose engine has failed: CE2, or the load's own engine from CE2 (R351, R527). -/
def heir (d : Dev) (home : Fin 2) : Option Nat :=
  let own := d.ctl.faulty.get ⟨home, by omega⟩
  if own && d.ctl.serving.get home == home.val && !d.ctl.faulty.get 2 && !d.ctl.serving.toList.contains 2 then some 2
  else if !own && d.ctl.serving.get home == 2 && d.ctl.faulty.get 2 then some home.val
  else none

/-- At a TICK edge the instances of a replaced engine move to its substitute (R351). -/
def carveHandover (home : Fin 2) (d : Dev) : Dev :=
  match heir d home with
  | none => d
  | some e =>
    let mine := (List.finRange 64).filter fun i => ctlHome i == home && ctlRuns (ctlInst d i)
    let again := (mine.filter fun i => recomputes (ctlInst d i)).length
    let d := { d with ctl := { d.ctl with serving := d.ctl.serving.set home e } }
    let d := forEach mine (fun i d =>
      let x := ctlInst d i
      if x.base == .fallback && x.cause == 1 then ctlMod i (fun x => { moveInst x with reseed := true }) d
      else ctlTrans i moveInst d) d
    raise 1 0x5009 (subPath 5) (le 1 home ++ le 1 mine.length ++ le 1 again ++ [0] ++ le 8 d.time.tick) d

/-! ## Reads and checks -/

/-- `CTL_STATE` (R354). -/
def ctlStateWord (d : Dev) (i : LI) : Nat :=
  let x := ctlInst d i
  ctlState x + 16 * x.cause + 256 * min x.overruns 15 + 4096 * x.setUse + 65536 * d.ctl.serving.get (ctlHome i)

/-- `CTL_FLAGS` (R354). -/
def ctlFlags (d : Dev) (i : LI) : Nat :=
  let x := ctlInst d i
  let b := ctlDesc d i
  let used := x.ins.map fun c => c.fresh && c.lost.isNone
  x.sticky + 1024 * b2n x.limit + 2048 * b2n x.zclamp + 4096 * b2n (x.ramp.any id) + 8192 * b2n x.bfp +
    16384 * b2n (x.setUse != 0) + 32768 * b2n x.handover +
    65536 * packBits 16 fun j => j < dP b && ctlRuns x && !used.getD j false

/-- The bytes of `CTL_COEF_SET` (R338): image and CRC, or empty. -/
def coefSetBytes (x : CtlInst) (s : Nat) : List Byte :=
  let c := ctlSet x s
  if c.coefs.isEmpty then [] else setImage c.coefs ++ le 4 c.crc.toNat

/-- READ parameters of the Carve engines, and `CTL_COEF_SET` (R338, R354). -/
def ctlRead (d : Dev) (addr : Nat) : List Word :=
  let key := keyOf addr
  if key = kCtlEngineLoad then
    let e := instOf addr
    let on := (List.range 2).filter fun r => vAt d.ctl.serving r 0 == e
    let ls := on.map fun r => engineLoad d r 64 []
    [w32 (((ls.foldl (fun (a : Rat) l => a + l.1) 0) / 100).floor.toNat % 65536 * 65536 + (ls.foldl (fun a l => a + l.2) 0) / 256)]
  else if h : instOf addr < 64 then
    let i : LI := ⟨instOf addr, h⟩
    let x := ctlInst d i
    if key = kCtlState then [w32 (ctlStateWord d i)]
    else if key = kCtlFlags then [w32 (ctlFlags d i)]
    else if key = kCtlLoad then
      if x.base == .free then [0]
      else [w32 (weight (ctlDesc d i) / 16 * 65536 + instBytes (ctlDesc d i) / 256)]
    else if key = kCtlLiveCrc then [(ctlSet x 0).crc]
    else if kCtlCoefSet ≤ key then
      let bs := coefSetBytes x (key - kCtlCoefSet)
      wordsOf (ceilDiv bs.length 4) bs
    else if kCtlXhat ≤ key then [iw ((x.st.map fun v => toInt v x.ste).getD (key - kCtlXhat) 0)]
    else if kCtlRef ≤ key then [iw (x.refs.getD (key - kCtlRef) 0)]
    else [iw ((x.next.map (·.1)).getD x.u |>.getD (key - kCtlOut) 0)]
  else [0]

/-- The refusals of this chapter for a parameter write, beyond class and range (R313, R314, R320, R325, R338, R354). -/
def ctlCheck (d : Dev) (addr : Nat) (ws : List Word) : Option Refuse :=
  let key := keyOf addr
  let i := instOf addr
  let v := (ws.headD 0).toNat
  let bs := bytesOf ws
  if key = kCtlDesc then
    firstRefusal [(!descOk bs, ⟨stRange, 0⟩), (!ctlAdmits d i bs, ⟨stAdmission, 0⟩)]
  else if key = kCtlEnable then
    if h : i < 64 then enableRefusal d ⟨i, h⟩ v else none
  else if key = kCtlSchedBp then
    let bp := (List.range 7).map fun k => sext 32 (field bs (4 * k) 4)
    let n := dSets (ctlDesc d i) - 1
    firstRefusal [(field bs 28 4 != 0 || (List.range (n - 1)).any fun k => bp.getD (k + 1) 0 ≤ bp.getD k 0, ⟨stRange, 0⟩)]
  else if key = kCtlIdOut then firstRefusal [(dM (ctlDesc d i) ≤ v && v != 0, ⟨stRange, 0⟩)]
  else if kCtlOutMin ≤ key ∧ key < kCtlOutMin + 16 then
    firstRefusal [(pgetI d (kCtlOutMax + (key - kCtlOutMin)) i < (ws.headD 0).toInt, ⟨stRange, 0⟩)]
  else if kCtlOutMax ≤ key ∧ key < kCtlOutMax + 16 then
    firstRefusal [((ws.headD 0).toInt < pgetI d (kCtlOutMin + (key - kCtlOutMax)) i, ⟨stRange, 0⟩)]
  else if kCtlCoefSet ≤ key ∧ key < kCtlCoefSet + 9 then
    let n := coefCount (ctlDesc d i)
    let img := setBytes n - 4
    firstRefusal [
      ((vAt d.ctl.inst i CtlInst.reset).base == .free || bs.length != setBytes n || dSets (ctlDesc d i) < key - kCtlCoefSet,
        ⟨stRange, 0⟩),
      (crc32 (bs.take img) != field bs img 4, ⟨stIntegrity, 0⟩)]
  else none

/-- A `CTL_COEF_SET` write takes effect: the set is stored, sealed and valid (R338). -/
def coefSetWrite (addr : Nat) (ws : List Word) (d : Dev) : Dev :=
  if h : instOf addr < 64 then
    let i : LI := ⟨instOf addr, h⟩
    let n := coefCount (ctlDesc d i)
    ctlSetMod i (keyOf addr - kCtlCoefSet) (fun _ =>
      let cs := setOfImage n (bytesOf ws)
      { coefs := cs, crc := setCrc cs, valid := true }) d
  else d

/-- The block of a STAGED parameter runs: the instance is neither FREE nor STOPPED (R354). -/
def ctlBusy (d : Dev) (addr : Nat) : Bool := ctlRuns (vAt d.ctl.inst (instOf addr) CtlInst.reset)

/-! ## Commands -/

/-- Runs a command on its instance: refused outside 0-63 and in FREE (R355). -/
def ctlCmd (f : Cmd → LI → Dev → Dev) (c : Cmd) (d : Dev) : Dev :=
  if h : targetN c < 64 then
    let i : LI := ⟨targetN c, h⟩
    if (ctlInst d i).base == .free then refuse c (refused 0x53) d else f c i d
  else refuse c ⟨stRange, 0⟩ d

/-- The first tick at which a coefficient write taken now may land, by the frame periods since the edge (R335). -/
def landFrom (d : Dev) : Nat := if d.lift.frames * 4 ≤ 4900 then d.time.tick + 1 else d.time.tick + 2

/-- `CTL_COEF_WRITE` (R335, R355). -/
def cmdCoefWrite (c : Cmd) (i : LI) (d : Dev) : Dev :=
  let p := c.payload
  match coefIdx (ctlDesc d i) (byteAt p 0) (byteAt p 1) (byteAt p 2) with
  | none => refuse c ⟨stRange, 0⟩ d
  | some k =>
    if 31 < byteAt p 3 then refuse c ⟨stRange, 0⟩ d
    else
      waitOn c.id (ctlMod i (fun x =>
        { x with
          pend := x.pend ++ [{ idx := k, val := sext 32 (field p 4 4), shift := byteAt p 3, cmd := c.id, since := landFrom d }]
          liveCdr := some c.commander }) d)

/-- The coefficients of a `CTL_SET_WRITE` payload (R355). -/
def setWriteCoefs (p : List Byte) (n : Nat) : List (Int × Nat) :=
  (List.range n).map fun k => (sext 32 (field p (8 + 5 * k) 4), byteAt p (12 + 5 * k))

/-- Puts coefficients into a list from an index on. -/
def setFrom (cs new : List (Int × Nat)) (first : Nat) : List (Int × Nat) :=
  cs.take first ++ new ++ cs.drop (first + new.length)

/-- `CTL_SET_WRITE` (R337, R355). -/
def cmdSetWrite (c : Cmd) (i : LI) (d : Dev) : Dev :=
  let p := c.payload
  let s := byteAt p 0
  let first := field p 2 2
  let n := byteAt p 4
  let b := ctlDesc d i
  let new := setWriteCoefs p n
  if s < 1 ∨ dSets b < s ∨ n < 1 ∨ 8 < n ∨ coefCount b < first + n ∨ new.any (fun x => 31 < x.2) then
    refuse c ⟨stRange, 0⟩ d
  else if (ctlInst d i).setUse = s && ctlRuns (ctlInst d i) then refuse c ⟨stBusyRunning, 0⟩ d
  else complete c 0 0 [] (ctlSetMod i s (fun x => { x with coefs := setFrom x.coefs new first, valid := false }) d)

/-- `CTL_SET_SEAL` (R337, R355). -/
def cmdSetSeal (c : Cmd) (i : LI) (d : Dev) : Dev :=
  let s := byteAt c.payload 0
  let b := ctlDesc d i
  let cs := (setFilled b (ctlSet (ctlInst d i) s)).coefs
  if s < 1 ∨ dSets b < s then refuse c ⟨stRange, 0⟩ d
  else if (setCrc cs).toNat != field c.payload 4 4 then
    refuse c ⟨stIntegrity, 0⟩ (ctlSetMod i s (fun x => { x with valid := false }) d)
  else complete c 0 0 [] (ctlSetMod i s (fun x => { x with crc := setCrc cs, valid := true }) d)

/-- `CTL_SRC_SELECT` (R340, R355): takes effect at the next period boundary. -/
def cmdSrcSelect (c : Cmd) (i : LI) (d : Dev) : Dev :=
  let w := byteAt c.payload 0
  let b := ctlDesc d i
  let x := ctlInst d i
  if (w != 0xFF && dSets b < w) || (w == 0xFF && dCoefSrc b == 0) then refuse c ⟨stRange, 0⟩ d
  else if (w != 0xFF && !(ctlSet x w).valid) || (w == 0xFF && (validSets b x).isEmpty) then refuse c (refused 0x57) d
  else
    waitOn c.id (ctlMod i (ctlPendSet (w == 0xFF) (if w = 0xFF then none else some w) 3 [c.id]) d)

/-- `CTL_RESUME` (R328, R350): entry to START at the next period boundary. -/
def cmdCtlResume (c : Cmd) (i : LI) (d : Dev) : Dev :=
  let b := ctlDesc d i
  let x := ctlInst d i
  if x.base != .fallback then refuse c (refused 0x53) d
  else if x.cause = 4 && (ctlObjects b).any (fun k =>
      if k < 64 then (vAt d.fio.pin k Pin.reset).latched else (vAt d.vlv.ch (k - 64) VlvCh.reset).latched) then
    refuse c (refused 0x53) d
  else waitOn c.id (ctlMod i (fun x => { x with resume := x.resume ++ [c.id] }) d)

/-- `CTL_STATE_WRITE` (R355). -/
def cmdStateWrite (c : Cmd) (i : LI) (d : Dev) : Dev :=
  let k := byteAt c.payload 0
  let v := sext 32 (field c.payload 4 4)
  let b := ctlDesc d i
  let x := ctlInst d i
  let idx := if k < 0x80 then k else dNo b + (k - 0x80)
  if !(x.base == .stopped || x.base == .fallback) then refuse c (refused 0x53) d
  else if (k < 0x80 && dNo b ≤ k) || (0x80 ≤ k && dNi b ≤ k - 0x80) then refuse c ⟨stRange, 0⟩ d
  else
    complete c 0 0 [] (ctlMod i (fun x =>
      let st := if x.wrote || x.base == .fallback then x.st.map fun v => toInt v x.ste else List.replicate (dN b) 0
      { x with st := st.set idx v, ste := 0, wrote := true,
               chk := x.chk.map fun c => { c with st := st.set idx v, ste := 0 } }) d)

/-- `CTL_READ` (R355). -/
def cmdCtlRead (c : Cmd) (i : LI) (d : Dev) : Dev :=
  let x := ctlInst d i
  complete c 0 0 (le 4 (ctlStateWord d i) ++ le 4 (ctlFlags d i) ++ le 8 x.lastGate ++
    le 4 (toBits 32 (((x.next.map (·.1)).getD x.u).getD 0 0))) d

/-- `CTL_CLEAR_FLAGS` (R321, R355). -/
def cmdClearFlags (c : Cmd) (i : LI) (d : Dev) : Dev :=
  complete c 0 0 [] (ctlMod i (fun x => { x with sticky := 0 }) d)

/-- `CTL_ADMIT_CHECK` (R320, R355): the test for the descriptor last given, or the one in force. -/
def cmdAdmitCheck (c : Cmd) (i : LI) (d : Dev) : Dev :=
  let a := (ctlInst d i).attempt
  let b := if a.isEmpty then ctlDesc d i else a
  let l := engineLoad d (i.val / 32) i b
  complete c 0 0 (le 4 (weight b) ++ le 4 (instBytes b) ++ le 4 (ratRound l.1).toNat ++
    le 1 (b2n (!(ctlAdmits d i b && descOk b)))) d

/-- `CTL_SET_READ` (R338, R355). -/
def cmdSetRead (c : Cmd) (i : LI) (d : Dev) : Dev :=
  let s := byteAt c.payload 0
  let first := field c.payload 2 2
  let n := byteAt c.payload 4
  let b := ctlDesc d i
  let cs := ctlSet (ctlInst d i) s
  let cf := fun k => cs.coefs.getD k (0, 0)
  if 8 < s ∨ n < 1 ∨ 2 < n ∨ coefCount b < first + n then refuse c ⟨stRange, 0⟩ d
  else if !cs.valid then refuse c (refused 0x57) d
  else
    let one := fun k => le 4 (toBits 32 (cf k).1) ++ le 1 (cf k).2 ++ [0, 0, 0]
    complete c 0 0 (one first ++ (if n = 2 then one (first + 1) else List.replicate 8 0) ++ le 4 cs.crc.toNat) d

/-! ## Meanings of the rows -/

def execCtlComputeDone (i : LI) (eng : Fin 3) (bad : Option Word) (s : State) := loud (computeDone i eng bad) s
def execCtlDeadline (i : LI) (s : State) := quiet (ctlDeadline i) s
def execCoastExpired (i : LI) (s : State) := quiet (coastExpired i) s
def execStartSeedTimeout (i : LI) (s : State) := quiet (startTimeout i) s
def execEngineFault (e : Fin 3) (s : State) := quiet (engineFault e) s
def execCarveHandover (home : Fin 2) (s : State) := quiet (carveHandover home) s
def execCtlCoefWrite (c : CmdId) (s : State) := quiet (withCmd 0x1501 c (ctlCmd cmdCoefWrite)) s
def execCtlSetWrite (c : CmdId) (s : State) := quiet (withCmd 0x1502 c (ctlCmd cmdSetWrite)) s
def execCtlSetSeal (c : CmdId) (s : State) := quiet (withCmd 0x1503 c (ctlCmd cmdSetSeal)) s
def execCtlSrcSelect (c : CmdId) (s : State) := quiet (withCmd 0x1504 c (ctlCmd cmdSrcSelect)) s
def execCtlResume (c : CmdId) (s : State) := quiet (withCmd 0x1505 c (ctlCmd cmdCtlResume)) s
def execCtlStateWrite (c : CmdId) (s : State) := quiet (withCmd 0x1506 c (ctlCmd cmdStateWrite)) s
def execCtlRead (c : CmdId) (s : State) := quiet (withCmd 0x1507 c (ctlCmd cmdCtlRead)) s
def execCtlClearFlags (c : CmdId) (s : State) := quiet (withCmd 0x1508 c (ctlCmd cmdClearFlags)) s
def execCtlAdmitCheck (c : CmdId) (s : State) := quiet (withCmd 0x1509 c (ctlCmd cmdAdmitCheck)) s
def execCtlSetRead (c : CmdId) (s : State) := quiet (withCmd 0x150A c (ctlCmd cmdSetRead)) s

end Sys2Proof.Machine
end

