-- ==== Sys2Proof/Machine/Image.lean ====
section
/-!
DEFINITION. Machine/Image.lean: the records of configuration images and recipes (R94, R388): parsing, lengths and the
checks made before anything applies.
-/
namespace Sys2Proof.Machine

/-- The records as they stand: address and value words, in order; none where a record has no words or is cut short. -/
def rawRecords : (fuel : Nat) → List Word → Option (List (Nat × List Word))
  | _, [] => some []
  | 0, _ :: _ => none
  | fuel + 1, h :: rest =>
    let n := h.toNat / 2 ^ 24
    if n = 0 ∨ rest.length < n then none
    else (rawRecords fuel (rest.drop n)).map fun rs => (h.toNat % 2 ^ 24, rest.take n) :: rs

/-- Words a record of an address must carry in all; `descs` are the records given earlier in the same image,
the latest first. -/
def recordWords (d : Dev) (descs : List (Nat × List Word)) (addr : Nat) : Option Nat :=
  match findDef addr with
  | none => none
  | some p =>
    if kCtlCoefSet ≤ keyOf addr ∧ keyOf addr < kCtlCoefSet + 9 then
      let b := bytesOf (alGet descs (addrOf kCtlDesc (instOf addr)) (pwords d (addrOf kCtlDesc (instOf addr))))
      some (ceilDiv (setBytes (coefCount b)) 4)
    else if p.cls = .paired then some (2 * p.ty.words)
    else some p.ty.words

/-- Joins the consecutive records that carry one BLOB (R94). -/
def joinRecords (d : Dev) : List (Nat × List Word) → List (Nat × List Word) → List (Nat × List Word)
  | acc, [] => acc.reverse
  | [], r :: rest => joinRecords d [r] rest
  | (a, ws) :: acc, (b, vs) :: rest =>
    let need := (recordWords d acc a).getD 0
    if a = b ∧ ws.length < need then joinRecords d ((a, ws ++ vs) :: acc) rest
    else joinRecords d ((b, vs) :: (a, ws) :: acc) rest

/-- A joined record names a defined parameter, has its length by the records given earlier, the latest first, and its pairs are
valid (R94). -/
def recordOk (d : Dev) (earlier : List (Nat × List Word)) (r : Nat × List Word) : Bool :=
  match findDef r.1, recordWords d earlier r.1 with
  | some p, some n => r.2.length == n && (p.cls != .paired || pairsValid (pairsOfWords r.2))
  | _, _ => false

/-- Every joined record is good by those before it. -/
def recordsOk (d : Dev) : (earlier : List (Nat × List Word)) → List (Nat × List Word) → Bool
  | _, [] => true
  | acc, r :: rest => recordOk d acc r && recordsOk d (r :: acc) rest

/-- The records of a body of words that breaks none of R94; none where it does. -/
def goodRecords (d : Dev) (count : Nat) (body : List Word) : Option (List (Nat × List Word)) :=
  match rawRecords (body.length + 1) body with
  | none => none
  | some rs =>
    let js := joinRecords d [] rs
    if rs.length == count && recordsOk d [] js then some js else none

/-! ## Recipes (R388) -/

/-- Kind code of the service a parameter key of `SVC` belongs to: 1 BIN to 6 BRN; 0 for a device parameter. -/
def svcKindOf (key : Nat) : Nat := if 0x6100 ≤ key ∧ key < 0x6700 then (key - 0x6000) / 256 else 0

/-- The records of a recipe as a list of words from byte 32 on, as far as `RECORDS` records reach. -/
def recipeBody (bs : List Byte) : List Word :=
  let ws := wordsOf 1024 (padTo 4096 bs)
  cut (field bs 24 2) (ws.drop 8)
where
  /-- The words of the first `n` records. -/
  cut : Nat → List Word → List Word
    | 0, _ => []
    | _, [] => []
    | n + 1, h :: rest => h :: rest.take (h.toNat / 2 ^ 24) ++ cut n (rest.drop (h.toNat / 2 ^ 24))

/-- The records of a valid recipe (R388); none where the recipe is refused with ST_INTEGRITY. -/
def recipeRecords (d : Dev) (bs : List Byte) : Option (List (Nat × List Word)) :=
  let kind := byteAt bs 4
  let body := recipeBody bs
  let len := 32 + 4 * body.length
  let zeroed := (bs.take 28) ++ [0, 0, 0, 0] ++ (bs.take len).drop 32
  if field bs 0 4 != 0x3A9640D2 || kind < 1 || 4 < kind || !grainOk (byteAt bs 5) || 2 < byteAt bs 6 ||
      field bs 28 4 != crc32 zeroed || 4096 < len then none
  else
    match goodRecords d (field bs 24 2) body with
    | none => none
    | some rs =>
      if rs.all fun r => svcKindOf (keyOf r.1) == kind &&
          (match findDef r.1 with
           | some p => p.cls == .live || p.cls == .staged
           | none => false)
      then some rs else none

end Sys2Proof.Machine
end

