-- ==== Sys2Proof/Machine/Svc.lean ====
section
/-!
DEFINITION. Machine/Svc.lean: what the services share (09): objects and claims, measurements, lots and resume records,
conveyor chains, burners, aeration, conditioning water and the water ledger.
-/
namespace Sys2Proof.Machine

/-! ## Measurements and objects -/

/-- An AFE result that counts as a measurement (R312). -/
def afeMeas (d : Dev) (n : Nat) : Option Int :=
  if h : n < 32 then
    let ch : Fin 32 := ⟨n, h⟩
    let w := (d.afe.ch.get ch).result
    let s := statusOf w
    if s = sBroken ∨ s = sStale ∨ s = sSettling ∨ s = sOver ∨ (s = sSubst ∧ bitOf (afeState d ch) 0) then none
    else some (valueOf w)
  else none

/-- A DLX result that counts as a measurement (R312), in 0.001 % w.b. -/
def dlxMeas (d : Dev) (n : Nat) : Option Int :=
  if h : n < 4 then
    let w := (d.dlx.ch.get ⟨n, h⟩).result
    let s := statusOf w
    if s = xProbeFault ∨ s = xStale ∨ s = xSettling ∨ s = xPartialFill then none else some (valueOf w)
  else none

/-- `FIO_STATE` bits of a pin as the control die last saw them. -/
def pinBit (d : Dev) (n k : Nat) : Bool := n < 64 && bitOf (vAt d.fio.pin n Pin.reset).seen k

/-- A DIN pin reads 1. -/
def pinOn (d : Dev) (n : Nat) : Bool := pinBit d n 0

/-- A run pin shows current limit, latch, thermal shut-off or open load (R387). -/
def pinFaulty (d : Dev) (n : Nat) : Bool := pinBit d n 5 || pinBit d n 6 || pinBit d n 7 || pinBit d n 8

/-- Puts a DOUT pin on or off in the open tick set, where that differs from its value there (R358, R115). -/
def pinPut (n : Nat) (v : Nat) (d : Dev) : Dev :=
  if h : n < 64 then
    let old := match d.lift.opened.get ⟨n / 8, by omega⟩ with
      | .bank ds _ => ds.getD (n % 8) 0
      | .valve _ => 0
    if old = v then d else openDuty ⟨n, h⟩ v d
  else d

/-- Writes a LIVE value of another block: it applies at that block's boundary (R358, R88). -/
def svcWrite (key inst : Nat) (w : Word) (bnd : Boundary) (d : Dev) : Dev :=
  let a := addrOf key inst
  let mine : Wait → Bool := fun x => x.addr = a && x.cmd.isNone
  let own := d.cmd.waits.filter mine
  if (own.isEmpty && pw d key inst == w) || (own.map (·.words) == [[w]]) then d
  else
    addWait { addr := a, words := [w], bnd := bnd, left := 0, cmd := none }
      { d with cmd := { d.cmd with waits := d.cmd.waits.filter fun x => !mine x } }

/-- Limits of output 0 of a loop instance (R325). -/
def loopLimits (li : Nat) (lo hi : Int) (d : Dev) : Dev :=
  if h : li < 64 then
    let b := Boundary.gate ⟨li, h⟩
    svcWrite kCtlOutMax li (iw hi) b (svcWrite kCtlOutMin li (iw lo) b d)
  else d

/-- Publishes a service value (R360). -/
def setVal (kind inst idx : Nat) (v : Int) (d : Dev) : Dev :=
  { d with svc := { d.svc with vals := alSet d.svc.vals (256 * kind + 16 * inst + idx) v } }

/-- State of a loop instance by number (R326). -/
def loopState (d : Dev) (li : Nat) : Nat := if li < 64 then ctlState (vAt d.ctl.inst li CtlInst.reset) else 0

/-- Cause of a loop instance's FALLBACK. -/
def loopCause (d : Dev) (li : Nat) : Nat := (vAt d.ctl.inst li CtlInst.reset).cause

/-! ## State records -/

def dryMod (i : Fin 6) (f : Dry → Dry) (d : Dev) : Dev := { d with svc := { d.svc with dry := vMod d.svc.dry i f } }
def dryOf (d : Dev) (i : Fin 6) : Dry := d.svc.dry.get i
def brnMod (i : Fin 4) (f : Burner → Burner) (d : Dev) : Dev := { d with svc := { d.svc with brn := vMod d.svc.brn i f } }
def brnOf (d : Dev) (i : Fin 4) : Burner := d.svc.brn.get i
def cnvMod (i : Fin 16) (f : Conv → Conv) (d : Dev) : Dev := { d with svc := { d.svc with cnv := vMod d.svc.cnv i f } }
def cnvOf (d : Dev) (i : Fin 16) : Conv := d.svc.cnv.get i
def chainMod (c : Fin 4) (f : Chain → Chain) (d : Dev) : Dev :=
  { d with svc := { d.svc with chain := vMod d.svc.chain c f } }
def chainOf (d : Dev) (c : Fin 4) : Chain := d.svc.chain.get c
def aerMod (b : Fin 12) (f : AerBin → AerBin) (d : Dev) : Dev := { d with svc := { d.svc with aer := vMod d.svc.aer b f } }
def aerOf (d : Dev) (b : Fin 12) : AerBin := d.svc.aer.get b
def watMod (i : Fin 2) (f : Water → Water) (d : Dev) : Dev := { d with svc := { d.svc with wat := vMod d.svc.wat i f } }
def watOf (d : Dev) (i : Fin 2) : Water := d.svc.wat.get i
def ledgerMod (f : Ledger → Ledger) (d : Dev) : Dev := { d with svc := { d.svc with ledger := f d.svc.ledger } }

/-- Kind code and instance of a drying instance. -/
def dryKind (i : Fin 6) : Nat := if i.val < 4 then 1 else 2
def dryNo (i : Fin 6) : Nat := if i.val < 4 then i.val else i.val - 4

/-- Parameter of a drying instance: the BIN key or the COL key. -/
def dryGet (d : Dev) (i : Fin 6) (bin col : Nat) : Nat := pget d (if i.val < 4 then bin else col) (dryNo i)

/-- Owner code of an instance. -/
def ownerCode (kind inst : Nat) : Nat := 16 * kind + inst

/-- PATH of a service instance: kind and instance (R96). -/
def svcPath (kind inst : Nat) : Nat := chanPath 6 kind inst

/-- Raises a service event on port 6. -/
def svcEv (code kind inst : Nat) (data : List Byte) (d : Dev) : Dev := raise 6 code (svcPath kind inst) data d

/-- EV_SVC_INPUT_LOST (R397); the object type is the subsystem number of R6 (log entry 15). -/
def inputLost (kind inst ty obj : Nat) (d : Dev) : Dev :=
  svcEv 0x6010 kind inst (le 1 kind ++ le 1 inst ++ le 1 ty ++ le 1 obj) d

/-- A running drying instance: neither IDLE nor DONE. -/
def dryRuns (i : Fin 6) (x : Dry) : Bool := x.phase != 0 && !(i.val < 4 && x.phase == 6)

/-! ## Claims (R359) -/

/-- Burners of a drying instance. -/
def dryBurners (d : Dev) (i : Fin 6) : List (Fin 4) :=
  (List.finRange 4).filter fun b =>
    if i.val < 4 then pget d kSvcBinBurner i == b.val else bitOf (pget d kSvcColBurners (dryNo i)) b

/-- Chains of a drying instance: the fill chain and the unload or discharge chain. -/
def dryFill (d : Dev) (i : Fin 6) : Nat := dryGet d i kSvcBinFillChain kSvcColFillChain
def dryOut (d : Dev) (i : Fin 6) : Nat := dryGet d i kSvcBinUnloadChain kSvcColOutChain

/-- Object bits of the claims: a pin, a valve channel, an AFE channel, a DX channel, a loop instance. -/
def obPin (n : Nat) : List Nat := if n < 64 then [n] else []
def obVd (n : Nat) : List Nat := if n < 16 then [64 + n] else []
def obAfe (n : Nat) : List Nat := if n < 32 then [96 + n] else []
def obDx (n : Nat) : List Nat := if n < 4 then [128 + n] else []
def obLi (n : Nat) : List Nat := if n < 64 then [192 + n] else []

/-- Objects of a burner, a conveyor and a chain. -/
def brnObjects (d : Dev) (b : Fin 4) : List Nat :=
  obPin (pget d kSvcBrnReqPin b) ++ obPin (pget d kSvcBrnProvenPin b) ++ obLi (pget d kSvcBrnLi b) ++
    obAfe (pget d kSvcBrnPlenumChan b) ++ obPin (pget d kSvcBrnGasPin b)

def cnvObjects (d : Dev) (n : Fin 16) : List Nat :=
  let g := pget d kSvcCnvGateVd n
  obPin (pget d kSvcCnvRunPin n) ++ obPin (pget d kSvcCnvSpeedPin n) ++ obPin (pget d kSvcCnvPlugPin n) ++
    obPin (pget d kSvcCnvAlignPin n) ++ obVd (g / 256) ++ obVd (g % 256)

/-- The conveyors of a chain: those that name a run pin and the chain (R384). -/
def chainMembers (d : Dev) (c : Nat) : List (Fin 16) :=
  (List.finRange 16).filter fun n => pget d kSvcCnvChain n == c && pget d kSvcCnvRunPin n < 64

def chainObjects (d : Dev) (c : Nat) : List Nat := (chainMembers d c).flatMap (cnvObjects d)

/-- Objects a drying instance claims: every object its parameters name. -/
def dryObjects (d : Dev) (i : Fin 6) : List Nat :=
  let n := dryNo i
  let own :=
    if i.val < 4 then
      obPin (pget d kSvcBinFanPin n) ++ obPin (pget d kSvcBinFullPin n) ++ obPin (pget d kSvcBinEmptyPin n) ++
        (bitsOf 32 (pget d kSvcBinGtChans n)).flatMap obAfe ++ obAfe (pget d kSvcBinAmbChan n) ++
        obDx (pget d kSvcBinMSrc n) ++ obAfe (pget d kSvcBinWeighChan n)
    else
      obLi (pget d kSvcColLiObs n) ++ obLi (pget d kSvcColLiRoll n) ++ obPin (pget d kSvcColRollPin n) ++
        obDx (pget d kSvcColDxOut n) ++ obDx (pget d kSvcColDxIn n) ++ obAfe (pget d kSvcColExhChan n) ++
        ((List.range 8).flatMap fun k => obAfe (byteAt (pbytes d kSvcColProbes n) (2 * k))) ++
        obPin (pget d kSvcColFullPin n) ++ obPin (pget d kSvcColInlowPin n) ++ obPin (pget d kSvcColEmptyPin n)
  own ++ (dryBurners d i).flatMap (brnObjects d) ++ chainObjects d (dryFill d i) ++ chainObjects d (dryOut d i)

/-- Objects of a WAT instance. -/
def watObjects (d : Dev) (i : Fin 2) : List Nat :=
  let f := pget d kSvcWatFlowSrc i
  (bitsOf 16 (pget d kSvcWatInj i)).flatMap obVd ++ obPin (pget d kSvcWatMeterPin i) ++ obDx (pget d kSvcWatDx i) ++
    (if f / 256 = 1 then obAfe (f % 256) else [])

/-- The union of the claims (R230). -/
def svcClaims (owners : List (Nat × Nat)) : Nat := owners.foldl (fun m o => m ||| o.2) 0

/-- Takes or gives back the claims of an owner. -/
def setClaims (owner mask : Nat) (d : Dev) : Dev :=
  let os := if mask = 0 then alDel d.svc.owners owner else alSet d.svc.owners owner mask
  { d with svc := { d.svc with owners := os, claims := svcClaims os } }

/-- Objects claimed by another service, or by a loop instance the service does not name (R359). -/
def claimClash (d : Dev) (owner : Nat) (objs : List Nat) : Bool :=
  let others := svcClaims (alDel d.svc.owners owner)
  let loops := (List.finRange 64).filter fun k =>
    let x := ctlInst d k
    ctlRuns x && x.base != .test && !objs.contains (192 + k.val)
  objs.any fun o => bitOf others o || loops.any fun k => (ctlObjects (ctlDesc d k)).contains o

/-! ## Lots (R390, R561) -/

/-- The largest T_max in force for a grain and a use (R367). -/
def tmaxOf (d : Dev) (grain use : Nat) : Int := pairI d (kSvcTmaxCom + use) grain

/-- 10^-4 kJ of the burners of a drying instance so far (R366). -/
def dryEnergy (d : Dev) (i : Fin 6) : Nat := (dryBurners d i).foldl (fun a b => a + (brnOf d b).energy) 0

/-- The water charged so far in µL, with open blocks at their full size (R381). -/
def openBlocks (d : Dev) : Nat :=
  d.svc.wat.toList.foldl (fun a w => a + match w.block with
    | some b => b.size
    | none => 0) 0

def ledgerUsed (d : Dev) : Nat := d.svc.ledger.used + openBlocks d

/-- A lot as it opens (R390): it takes the next number. -/
def openLot (kind inst grain use recipe recipeCrc energy : Nat) (d : Dev) : Lot × Dev :=
  let l : Lot :=
    { kind := kind
      inst := inst
      no := d.svc.lotNext
      grain := grain
      use := use
      recipe := recipe
      recipeCrc := recipeCrc
      flags := if d.gns.tq = 0 then 8 else 0
      dtOpen := dtNs d
      timeOpen := timeWord d
      stepsOpen := d.gns.steps
      dtClose := 0
      timeClose := 0
      stepsClose := 0
      bootClose := 0
      pos := []
      posMode := 0
      mass := 0
      massIn := none
      inMass := 0
      inSum := 0
      outMass := 0
      outSum := 0
      energyBase := energy
      energy := 0
      waterBase := d.svc.ledger.total
      water := 0
      grainMax := 0
      tmax := tmaxOf d grain use
      openBib := none
      closeBib := none
      entries := []
      dropped := 0 }
  (l, svcEv 0x600F kind inst (le 1 kind ++ le 1 inst ++ le 1 0 ++ [0] ++ le 4 l.no)
    { d with svc := { d.svc with lotNext := d.svc.lotNext + 1 } })

/-- A lot closes (R390): its record waits for the bib of the event; `interrupted` is a lot found open at boot (R394). -/
def closeLot (l : Lot) (energy : Nat) (aborted interrupted : Bool) (d : Dev) : Dev :=
  let l := { l with
    flags := l.flags ||| (b2n aborted + 2 * b2n interrupted + (if d.gns.tq = 0 then 8 else 0))
    dtClose := dtNs d
    timeClose := timeWord d
    stepsClose := d.gns.steps
    bootClose := d.pwr.bootCount
    pos := d.gns.pos.toList
    posMode := d.gns.posMode
    energy := energy - l.energyBase
    water := d.svc.ledger.total - l.waterBase }
  svcEv 0x600F l.kind l.inst (le 1 l.kind ++ le 1 l.inst ++ le 1 (if interrupted then 2 else 1) ++ [0] ++ le 4 l.no)
    { d with svc := { d.svc with closed := d.svc.closed ++ [l] } }

/-- Eight records wait, so that a further lot stays open (R564). -/
def lotsFull (d : Dev) : Bool := 8 ≤ d.svc.closed.length

/-- Adds an event to a lot's entries: the first 32 are kept (R561). -/
def lotEntry (bib : Word) (code data : Nat) (l : Lot) : Lot :=
  if l.entries.length < 32 then { l with entries := l.entries ++ [{ bib := bib, code := code, data := data }] }
  else { l with dropped := min (l.dropped + 1) 255 }

/-- The service instance a service event names, by owner code, and the two data bytes its entry carries (R561): bytes
2-3, or 0-1 where the instance lies in byte 0. -/
def evOwner (d : Dev) (e : EvRec) : Option (Nat × Nat) :=
  let b0 := byteAt e.data 0
  let b1 := byteAt e.data 1
  let own : Option Nat → Option (Nat × Nat) := fun o => o.map fun x => (x, field e.data 0 2)
  if e.code = 0x6001 ∨ e.code = 0x6002 ∨ e.code = 0x6003 ∨ e.code = 0x6010 then
    some (ownerCode b0 b1, field e.data 2 2)
  else if e.code = 0x6004 ∨ e.code = 0x6005 ∨ e.code = 0x6006 then
    own ((vAt d.svc.brn b0 Burner.reset).owner)
  else if e.code = 0x6007 then
    own ((vAt d.svc.chain (pget d kSvcCnvChain b0) { want := false, owner := none, fault := false }).owner)
  else if e.code = 0x600D ∨ e.code = 0x600E then own (some (ownerCode 4 b0))
  else none

/-- What an admitted service event does to the lots (R561): entries, and the bibs of opening and close. -/
def lotAdmit (e : EvRec) (bib wrap : Word) (d : Dev) : Dev :=
  let upd : Lot → Lot := fun l =>
    if e.code = 0x600F then
      if field e.data 4 4 != l.no then l
      else if byteAt e.data 2 = 0 then { l with openBib := some (bib, wrap) }
      else { l with closeBib := some (bib, wrap) }
    else match evOwner d e with
      | some (o, data) =>
        if o = ownerCode l.kind l.inst && l.closeBib.isNone && l.openBib.isSome then lotEntry bib e.code data l else l
      | none => l
  if e.code / 0x1000 != 6 then d
  else
    { d with svc := { d.svc with
        dry := d.svc.dry.map fun x => { x with lot := x.lot.map upd }
        wat := d.svc.wat.map fun x => { x with lot := x.lot.map upd }
        closed := d.svc.closed.map upd } }

/-- `SVC_STATE` of a drying instance (R361). -/
def dryState (x : Dry) : Nat :=
  x.phase + 256 * b2n x.susp + 512 * b2n (x.fault || x.obsFault) + 1024 * b2n (x.limitHeld || x.silentHeld)

/-- An instance writes its resume record (R394). -/
def putResume (r : Resume) (d : Dev) : Dev :=
  { d with svc := { d.svc with resume := (d.svc.resume.filter fun x => x.inst != r.inst) ++ [r] } }

def dryResume (i : Fin 6) (d : Dev) : Dev :=
  let x := dryOf d i
  putResume { inst := ownerCode (dryKind i) (dryNo i), phase := x.phase, ms := x.ms,
              dryMs := if x.phase = 3 then x.dryMs + x.ms else x.dryMs, state := dryState x,
              cdr := x.cdr, recipe := x.recipe, lot := x.lot } d

def watState (w : Water) : Nat := w.phase + 256 * b2n w.susp + 1024 * b2n w.held

def watResume (i : Fin 2) (d : Dev) : Dev :=
  let w := watOf d i
  putResume { inst := ownerCode 4 i, phase := w.phase, ms := w.ms, dryMs := 0, state := watState w, cdr := w.cdr, recipe := w.recipe,
              lot := w.lot } d

/-! ## Conveyor chains (R384-R387) -/

/-- The line of a chain from its end: each conveyor that discharges into the last one found. -/
def chainFrom (d : Dev) (ms : List (Fin 16)) : (fuel : Nat) → Nat → List (Fin 16)
  | 0, _ => []
  | n + 1, down =>
    match ms.find? fun (m : Fin 16) => pget d kSvcCnvDown m == down with
    | none => []
    | some m => m :: chainFrom d ms n m.val

/-- The conveyors of a chain from its end to its first. -/
def chainLine (d : Dev) (c : Nat) : List (Fin 16) := chainFrom d (chainMembers d c) 16 255

/-- A chain forms one line with one end (R384). -/
def chainOk (d : Dev) (c : Nat) : Bool :=
  let ms := chainMembers d c
  (chainLine d c).length == ms.length && (ms.map fun (m : Fin 16) => pget d kSvcCnvDown m).Nodup &&
    ms.all fun m => pget d kSvcCnvDown m == 255 || (ms.map (·.val)).contains (pget d kSvcCnvDown m)

/-- A conveyor stops: its run pin goes off and its gate is to close (R385). -/
def convOff (n : Fin 16) (d : Dev) : Dev :=
  let was := (cnvOf d n).on
  let gate := pget d kSvcCnvGateVd n % 256 < 16
  pinPut (pget d kSvcCnvRunPin n) 0 (cnvMod n (fun c =>
    { c with
      on := false
      proven := false
      ms := 0
      slip := 0
      stopIn := none
      gate := if was && gate then some false else c.gate
      gateTries := if was && gate then 0 else c.gateTries
      gateOut := if was && gate then false else c.gateOut }) d)

/-- Gives the conveyors of a line, first to stop first, their times of an orderly stop: each `SVC_CNV_RUNOUT_S` after the
one that feeds it (R386). -/
def orderly (line : List (Fin 16)) (d : Dev) : Dev :=
  (line.foldl (fun (a : Nat × Dev) (n : Fin 16) =>
    let t := a.1 + pget d kSvcCnvRunoutS n * 1000
    (t, if (cnvOf a.2 n).on then cnvMod n (fun c => { c with stopIn := some t }) a.2 else a.2)) (0, d)).2

/-- An orderly stop of a chain: the first conveyor stops at once, each downstream one `SVC_CNV_RUNOUT_S` after the one
that feeds it (R386). -/
def chainStop (c : Nat) (d : Dev) : Dev :=
  if h : c < 4 then
    let c : Fin 4 := ⟨c, h⟩
    if !(chainOf d c).want then d
    else
      let line := (chainLine d c).reverse
      let d := chainMod c (fun x => { x with want := false }) d
      match line with
      | [] => d
      | n :: rest => orderly rest (cnvMod n (fun x => { x with stopIn := some 0 }) d)
  else d

/-- A chain is wanted on (R385). -/
def chainStart (c : Nat) (d : Dev) : Dev :=
  if h : c < 4 then
    let c : Fin 4 := ⟨c, h⟩
    if (chainOf d c).want then d
    else
      forEach (chainLine d c) (fun n d => cnvMod n (fun x => { x with stopIn := none }) d)
        (chainMod c (fun x => { x with want := true }) d)
  else d

/-- Every conveyor of a chain stops at one APPLY (R370, R374, R391). -/
def chainKill (c : Nat) (d : Dev) : Dev :=
  if h : c < 4 then
    forEach (chainLine d c) convOff (chainMod ⟨c, h⟩ (fun x => { x with want := false }) d)
  else d

/-- The owning service of a chain sets FAULT (R387). -/
def ownerFault (o : Option Nat) (d : Dev) : Dev :=
  forEach (List.finRange 6) (fun i d =>
    if o = some (ownerCode (dryKind i) (dryNo i)) then dryMod i (fun x => { x with fault := true }) d else d) d

/-- A conveyor fault (R387): the conveyor and every one upstream stop together, those downstream as in an orderly stop. -/
def convFault (c : Fin 4) (n : Fin 16) (cause : Nat) (d : Dev) : Dev :=
  let line := chainLine d c
  let down := (line.takeWhile (· != n)).reverse
  let up := line.dropWhile (· != n)
  let d := forEach up convOff d
  let d := cnvMod n (fun x => { x with fault := true }) d
  let d := orderly down d
  let d := chainMod c (fun x => { x with fault := true }) d
  svcEv 0x6007 5 n (le 1 n ++ le 1 cause) (ownerFault (chainOf d c).owner d)

/-- The owner of a chain is SUSPENDED. -/
def ownerSusp (d : Dev) (o : Option Nat) : Bool :=
  (List.finRange 6).any fun i => o == some (ownerCode (dryKind i) (dryNo i)) && (dryOf d i).susp

/-- The roll loop of the column that owns a chain is in FALLBACK with cause 6 (R387). -/
def rollLost (d : Dev) (o : Option Nat) : Bool :=
  (List.finRange 2).any fun n =>
    o == some (ownerCode 2 n) && loopState d (pget d kSvcColLiRoll n) == 7 && loopCause d (pget d kSvcColLiRoll n) == 6

/-- A conveyor's speed has reached a percentage of its nominal speed (R385, R387). -/
def speedAt (d : Dev) (n : Fin 16) (pct : Nat) : Option Bool :=
  let p := pget d kSvcCnvSpeedPin n
  if p < 64 then
    let x := vAt d.fio.pin p Pin.reset
    if x.freqStale then none else some (pct * pget d kSvcCnvNomMhz n ≤ x.freq * 100)
  else none

/-- The fault a conveyor shows (R387), with its cause of EV_SVC_CNV_FAULT: a gate that cannot be moved, and while it runs the
others. `slip` counts the present step, so that a time of R387 has passed one step later. -/
def convCause (d : Dev) (c : Fin 4) (n : Fin 16) : Option Nat :=
  let x := cnvOf d n
  let run := pget d kSvcCnvRunPin n
  if x.fault then none
  else if 3 ≤ x.gateTries then some 5
  else if !x.on then none
  else if pget d kSvcCnvSlipMs n + 100 ≤ x.slip && x.proven then some 0
  else if pinOn d (pget d kSvcCnvPlugPin n) then some 1
  else if pinOn d (pget d kSvcCnvAlignPin n) then some 2
  else if pinBit d run 12 then some 6
  else if pinFaulty d run then some 3
  else if !x.proven && pget d kSvcCnvStartS n * 1000 ≤ x.ms then some 4
  else if rollLost d (chainOf d c).owner then some 7
  else none

/-- The gate pulse that is due: issued on the open or close channel, or refused because the channel is latched (R385,
R301). -/
def gateStep (n : Fin 16) (d : Dev) : Dev :=
  let x := cnvOf d n
  let g := pget d kSvcCnvGateVd n
  match x.gate with
  | none => d
  | some b =>
    let v := if b then g / 256 else g % 256
    if h : v < 16 then
      let vd : Fin 16 := ⟨v, h⟩
      if x.gateOut || 3 ≤ x.gateTries then d
      else if latchKnown (vlvCh d vd) then cnvMod n (fun x => { x with gateTries := x.gateTries + 1 }) d
      else queuePulse vd { cmd := none, holdT := 0 } (cnvMod n (fun x => { x with gateOut := true }) d)
    else cnvMod n (fun x => { x with gate := none }) d

/-- A conveyor at a service step (R385): it is proven, or it starts; `prev` are the conveyors as the step found them. -/
def convRun (prev : Vector Conv 16) (c : Fin 4) (n : Fin 16) (d : Dev) : Dev :=
  let ch := chainOf d c
  let x := cnvOf d n
  let down := pget d kSvcCnvDown n
  if x.on then
    let fast := speedAt d n (pget d kSvcCnvProvePct n)
    let named := pget d kSvcCnvSpeedPin n < 64
    let ms := x.ms + 100
    let proven := x.proven || (if named then fast.getD false else pget d kSvcCnvStartS n * 1000 ≤ ms)
    let slow := named && (match speedAt d n (pget d kSvcCnvSlipPct n) with
      | some ok => !ok
      | none => false)
    let open_ := proven && !x.proven && pget d kSvcCnvGateVd n / 256 < 16
    cnvMod n (fun x =>
      { x with
        ms := ms
        proven := proven
        slip := if slow then x.slip + 100 else 0
        gate := if open_ then some true else x.gate
        gateTries := if open_ then 0 else x.gateTries
        gateOut := x.gateOut && !open_ }) d
  else if ch.want && !ch.fault && !ownerSusp d ch.owner &&
      (down = 255 || (vAt prev down Conv.reset).on && (vAt prev down Conv.reset).proven) then
    pinPut (pget d kSvcCnvRunPin n) 255 (cnvMod n (fun x => { x with on := true, ms := 0, slip := 0, stopIn := none }) d)
  else d

/-- A conveyor whose time of an orderly stop has come stops (R386), and its gate pulse is issued (R385); no pulse is issued
while the owner is SUSPENDED. -/
def convHalt (susp : Bool) (n : Fin 16) (d : Dev) : Dev :=
  let d := match (cnvOf d n).stopIn with
    | none => d
    | some t => if t < 100 then convOff n d else cnvMod n (fun x => { x with stopIn := some (t - 100) }) d
  if susp then d else gateStep n d

/-- The conveyors at a service step (R358): every chain runs, the faults found stop theirs, and stops that are due are
made. -/
def cnvStep (d : Dev) : Dev :=
  let prev := d.svc.cnv
  forEach (List.finRange 4) (fun c d =>
    let line := chainLine d c
    let d := forEach line.reverse (convRun prev c) d
    let d := forEach line (fun n d => match convCause d c n with
      | some k => convFault c n k d
      | none => d) d
    let susp := ownerSusp d (chainOf d c).owner
    forEach line.reverse (convHalt susp) d) d

/-- Every conveyor of a chain runs and is proven. -/
def chainProven (d : Dev) (c : Nat) : Bool := (chainLine d c).all fun n => (cnvOf d n).on && (cnvOf d n).proven

/-- No conveyor of a chain runs. -/
def chainStopped (d : Dev) (c : Nat) : Bool := (chainLine d c).all fun n => !(cnvOf d n).on

/-- `SVC_FAULT_CLEAR` on a chain (R387). -/
def chainClear (c : Nat) (d : Dev) : Dev :=
  if h : c < 4 then
    forEach (chainMembers d c) (fun n d => cnvMod n (fun x => { x with fault := false, gateTries := 0 }) d)
      (chainMod ⟨c, h⟩ (fun x => { x with fault := false }) d)
  else d

/-! ## Burners (R363-R366) -/

/-- Why a burner must be OFF (R365): 1 plenum high, 2 plenum lost, 3 fan, 4 loop; the grain limit is the owner's. -/
def brnCause (d : Dev) (b : Fin 4) : Option Nat :=
  let x := brnOf d b
  let ch := pget d kSvcBrnPlenumChan b
  let w := (vAt d.afe.ch ch AfeCh.reset).result
  let s := statusOf w
  let fan := match x.owner with
    | some o => if o / 16 = 1 then some (pget d kSvcBinFanPin (o % 16)) else none
    | none => none
  if s != sBroken && s != sStale && pairI d kSvcBrnPlenumMax b ≤ valueOf w then some 1
  else if s = sBroken ∨ s = sStale ∨ 10000 < x.settleMs then some 2
  else if (match fan with
      | some p => !pinBit d p 4 || pinFaulty d p
      | none => false) then some 3
  else if loopState d (pget d kSvcBrnLi b) = 7 then some 4
  else none

/-- A burner's own event for a cause (R365). -/
def brnCauseEvent (b : Fin 4) (cause : Nat) (d : Dev) : Dev :=
  let ch := pget d kSvcBrnPlenumChan b
  match cause with
  | 1 => svcEv 0x6004 6 b (le 1 b ++ [0, 0, 0] ++ le 4 (toBits 32 (valueOf (vAt d.afe.ch ch AfeCh.reset).result)))
      (brnMod b (fun x => { x with fault := true }) d)
  | 2 => inputLost 6 b 2 ch d
  | 3 => inputLost 6 b 1 (match (brnOf d b).owner with
      | some o => pget d kSvcBinFanPin (o % 16)
      | none => 255) d
  | _ => inputLost 6 b 5 (pget d kSvcBrnLi b) d

/-- A burner goes to a state (R364). -/
def brnTo (b : Fin 4) (st : Nat) (d : Dev) : Dev := brnMod b (fun x => { x with st := st, ms := 0, pause := 0 }) d

/-- A burner goes to OFF at once, without an event of its own (R365, R370, R391). -/
def brnOff (b : Fin 4) (d : Dev) : Dev := if (brnOf d b).st = 4 then d else brnTo b 0 d

/-- Burner value 0 never exceeds `SVC_BRN_PLENUM_MAX` - 2,000 (R364). -/
def brnValue (d : Dev) (b : Fin 4) (v : Int) : Int := min v (pairI d kSvcBrnPlenumMax b - 2000)

/-- A request that was not proven in time (R364): a pause of 30 s, or LOCKED. -/
def brnRetry (b : Fin 4) (d : Dev) : Dev :=
  let x := brnOf d b
  if pget d kSvcBrnRetries b ≤ x.retries then
    svcEv 0x6005 6 b (le 1 b ++ le 1 x.retries) (brnTo b 4 d)
  else brnMod b (fun x => { x with retries := x.retries + 1, pause := 30000, ms := 0 }) d

/-- The transition of a burner at a service step (R364, R365). `susp` says that its owner is SUSPENDED. -/
def brnMove (b : Fin 4) (susp : Bool) (d : Dev) : Dev :=
  let x := brnOf d b
  let proven := pinOn d (pget d kSvcBrnProvenPin b)
  let cause := brnCause d b
  if x.st = 4 then d
  else if x.st = 0 then
    if x.want && !susp && !x.fault && cause.isNone then
      brnMod b (fun x => { x with st := 1, ms := 0, pause := 0, retries := 0 }) d
    else d
  else if susp || !x.want then brnTo b 0 d
  else match cause with
    | some k => brnTo b 0 (brnCauseEvent b k d)
    | none =>
      if x.st = 1 then
        if 100 < x.pause then brnMod b (fun x => { x with pause := x.pause - 100 }) d
        else if x.pause != 0 then brnMod b (fun x => { x with pause := 0, ms := 0 }) d
        else if proven then brnTo b 2 d
        else if pget d kSvcBrnProveS b * 1000 ≤ x.ms + 100 then brnRetry b d
        else brnMod b (fun x => { x with ms := x.ms + 100 }) d
      else if !proven then
        svcEv 0x6006 6 b (le 1 b ++ le 1 x.st) (brnMod b (fun y => { y with retries := x.retries + 1 }) (brnTo b 1 d))
      else if x.st = 2 && pget d kSvcBrnLowfireS b * 1000 ≤ x.ms + 100 then
        brnTo b 3 d
      else brnMod b (fun x => { x with ms := x.ms + 100 }) d

/-- Burner value 0 of a step (R364): the plenum measurement on entry to MODULATE, from where it moves to the owner's set-point
at `CTL_GLIDE_RATE` of the plenum loop, and at once where that rate is 0. -/
def brnRamp (d : Dev) (b : Fin 4) (entered : Bool) : Int :=
  let x := brnOf d b
  let goal := brnValue d b x.sp
  let rate := pget d kCtlGlideRate (pget d kSvcBrnLi b)
  if entered then min goal ((afeMeas d (pget d kSvcBrnPlenumChan b)).getD goal)
  else if x.st != 3 || rate == 0 then goal
  else min goal (alGet d.svc.vals (0x600 + 16 * b.val) goal + ((max 1 (rate / 10) : Nat) : Int))

/-- The outputs of a burner at a service step: request pin, limits of the plenum loop, value 0 (R364). -/
def brnOutputs (b : Fin 4) (entered : Bool) (d : Dev) : Dev :=
  let x := brnOf d b
  let li := pget d kSvcBrnLi b
  let low : Int := pget d kSvcBrnLowfireMa b
  let vd := wObj (dOut (ctlDesc d li) 0)
  let d := pinPut (pget d kSvcBrnReqPin b) (if (x.st = 1 ∧ x.pause = 0) ∨ x.st = 2 ∨ x.st = 3 then 255 else 0) d
  let d :=
    if x.st = 0 ∨ x.st = 4 then loopLimits li 0 0 d
    else if x.st = 3 then loopLimits li low (pairV d kVlvPropMaxMa vd : Nat) d
    else loopLimits li low low d
  setVal 6 b 0 (brnRamp d b entered) d

/-- The energy of 100 ms, in 10^-4 kJ (R366). -/
def brnEnergy (b : Fin 4) (d : Dev) : Dev :=
  let x := brnOf d b
  let p := pget d kSvcBrnGasPin b
  if p < 64 then
    let c := (vAt d.fio.pin p Pin.reset).cdCount
    brnMod b (fun y =>
      { y with
        gasCount := c
        energy := x.energy + (c + 2 ^ 32 - x.gasCount) % 2 ^ 32 * pget d kSvcBrnKjPerPulse b * 10000 }) d
  else
    let vd := wObj (dOut (ctlDesc d (pget d kSvcBrnLi b)) 0)
    let ma := fld (vAt d.vlv.ch vd VlvCh.reset).status.toNat 16 16
    brnMod b (fun y => { y with energy := x.energy + ma * pget d kSvcBrnKwPerA b }) d

/-- Number of the service value that holds an owner's requested plenum set-point (R360). -/
def ownerValue (o : Nat) : Nat := if o / 16 = 1 then 0x100 + 16 * (o % 16) else 0x201 + 16 * (o % 16)

/-- A burner at a service step; a burner that no service owns is OFF and writes nothing. -/
def brnStep (b : Fin 4) (d : Dev) : Dev :=
  let x := brnOf d b
  match x.owner with
  | none => d
  | some o =>
    let s := statusOf (vAt d.afe.ch (pget d kSvcBrnPlenumChan b) AfeCh.reset).result
    let d := brnMod b (fun y =>
        { y with
          sp := alGet d.svc.vals (ownerValue o) x.sp
          settleMs := if s = sSettling then min (x.settleMs + 100) 10100 else 0 }) d
    let d := brnEnergy b (brnMove b (ownerSusp d (some o)) d)
    brnOutputs b ((brnOf d b).st = 3 && x.st != 3) d

/-! ## Aeration (R377-R379) -/

/-- Natural logarithm; of a number that is not positive the spec states no result (log entry 4). -/
def ratLn (x : Rat) : Rat :=
  let ln2 : Rat := 693147180559945309 / 1000000000000000000
  if x ≤ 0 then Config.openRat x else if 1 ≤ x then log2Of x * ln2 else -(log2Of (1 / x) * ln2)

/-- A positive number to a power. -/
def ratPow (x y : Rat) : Rat :=
  if x ≤ 0 then Config.openRat x
  else
    let e := (if 1 ≤ x then log2Of x else -(log2Of (1 / x))) * y
    if 0 ≤ e then exp2Of e else 1 / exp2Of (-e)

/-- Equilibrium moisture of a grain in 0.001 % w.b., at a temperature in 0.001 °C and a humidity in 0.001 % (R377). -/
def emcOf (d : Dev) (grain : Nat) (t rh : Rat) : Int :=
  let bs := pbytes d kSvcEmcCoef grain
  let k : Nat → Rat := fun n => f32 (w32 (field bs n 4))
  let a := k 4
  let b := k 8
  let c := k 12
  let t := t / 1000
  let rh := rh / 100000
  let md :=
    if byteAt bs 0 = 0 then ratPow (rdiv (ratLn (1 - rh)) (-(a * (t + c)))) (rdiv 1 b)
    else -(rdiv 1 b) * ratLn (rdiv (-(t + c) * ratLn rh) a)
  ratRound (rdiv (100000 * md) (1 + md))

/-- The sensors of a bin's cables that report (R379). -/
def binSensors (d : Dev) (b : Fin 12) : List CableSensor :=
  (aerOf d b).cables.toList.flatMap fun c => if c.lost then [] else c.sensors

/-- Rise of a sensor over the lowest of its last 24 hourly samples. -/
def sensorRise (s : CableSensor) : Int := s.val - s.hist.foldl min s.val

/-- A sensor is a hot spot (R379). -/
def sensorHot (d : Dev) (b : Fin 12) (s : CableSensor) : Bool :=
  pgetI d kSvcAerHotC b ≤ s.val || pgetI d kSvcAerRiseK b ≤ sensorRise s

/-- Changes a cable of a bin. -/
def cableMod (b : Fin 12) (k : Fin 8) (f : Cable → Cable) (d : Dev) : Dev :=
  aerMod b (fun x => { x with cables := vMod x.cables k f }) d

/-- Role of a cable (R379). -/
def cableRole (d : Dev) (b : Fin 12) (k : Fin 8) : Nat := byteAt (pbytes d kSvcAerCables b) k

/-- The hot-spot test of a cable's sensors: EV_SVC_HOT_SPOT once per episode (R379). -/
def cableHot (b : Fin 12) (k : Fin 8) (d : Dev) : Dev :=
  let c := (aerOf d b).cables.get k
  let new := c.sensors.map fun s => { s with hot := sensorHot d b s }
  let d := cableMod b k (fun c => { c with sensors := new }) d
  forEach c.sensors (fun s d =>
    if sensorHot d b s && !s.hot then
      svcEv 0x6008 3 b (le 1 b ++ le 1 k ++ le 1 s.no ++ [0] ++ le 4 (toBits 32 s.val) ++ le 4 (toBits 32 (sensorRise s))) d
    else d) d

/-- A cable is lost (R379): EV_SVC_CABLE_LOST, and its sensors leave the mean and the tests. -/
def cableLost (b : Fin 12) (k : Fin 8) (d : Dev) : Dev :=
  if ((aerOf d b).cables.get k).lost then d
  else
    svcEv 0x6009 3 b (le 1 b ++ le 1 k ++ le 1 (cableRole d b k))
      (cableMod b k (fun c => { c with lost := true, sensors := c.sensors.map fun s => { s with hist := [], hot := false } }) d)

/-- Every cable of every bin that names a role. -/
def cablesOf (d : Dev) (role : Nat) : List (Fin 12 × Fin 8) :=
  (List.finRange 12).flatMap fun b => (List.finRange 8).filterMap fun k => if cableRole d b k = role then some (b, k) else none

/-- A role has died: its cables are lost at once (R379, R432). -/
def svcRoleDead (role : Nat) (d : Dev) : Dev := forEach (cablesOf d role) (fun p d => cableLost p.1 p.2 d) d

/-- A reading of a role's cable: sensors and their values in 0.01 °C; a failed sensor leaves the cable (R379). -/
def svcCable (role : Nat) (vals : List (Nat × Option Int)) (d : Dev) : Dev :=
  forEach (cablesOf d role) (fun p d =>
    let d := cableMod p.1 p.2 (fun c =>
      { c with
        seen := d.time.tick
        lost := false
        sensors := vals.foldl (fun ss v =>
          match v.2 with
          | none => ss.filter fun s => s.no != v.1
          | some x =>
            if ss.any fun s => s.no = v.1 then ss.map fun s =>
                if s.no = v.1 then { s with val := x * 10, hist := if s.hist.isEmpty then [x * 10] else s.hist } else s
            else ss ++ [{ no := v.1, val := x * 10, hist := [x * 10], hot := false }]) c.sensors }) d
    cableHot p.1 p.2 d) d

/-- The means of the last 10 minutes (R377). -/
def ambMeans (d : Dev) : Option (Rat × Rat) :=
  let ms := d.svc.ambMins
  let tN : Nat := ms.foldl (fun a m => a + m.tN) 0
  let hN : Nat := ms.foldl (fun a m => a + m.hN) 0
  if tN = 0 ∨ hN = 0 then none
  else some (((ms.foldl (fun (a : Int) m => a + m.tSum) 0 : Int) : Rat) / (tN : Rat),
    ((ms.foldl (fun (a : Int) m => a + m.hSum) 0 : Int) : Rat) / (hN : Rat))

/-- Both ambient inputs are measurements. -/
def ambOk (d : Dev) : Bool :=
  (afeMeas d (pget d kSvcAerAmbChan 0)).isSome && (afeMeas d (pget d kSvcAerRhChan 0)).isSome

/-- The evaluation of one bin (R377, R378). -/
def aerEval (b : Fin 12) (t rh : Rat) (d : Dev) : Dev :=
  let emc := emcOf d (pget d kSvcAerGrain b) t rh
  let m : Int := pget d kSvcAerM b
  let ss := binSensors d b
  let mean : Rat := rsum (ss.map fun s => (s.val : Rat)) / (ss.length : Rat)
  let cool := pget d kSvcAerMode b != 0 || (!ss.isEmpty && decide (t ≤ mean - (pgetI d kSvcAerDtMin b : Int)))
  let frost := decide (t < (pgetI d kSvcAerTmin b : Int))
  let suits := decide (m - (pget d kSvcAerBandLo b : Nat) ≤ emc) && decide (emc ≤ m + (pget d kSvcAerBandHi b : Nat)) &&
    cool && !frost
  let now := d.time.tick
  let x := aerOf d b
  let ss' := if suits then some (x.suitSince.getD now) else none
  let fs' := if suits then none else some (x.failSince.getD now)
  let long : Option Nat → Nat → Bool := fun s k => match s with
    | some a => k * 60000 ≤ now - a
    | none => false
  aerMod b (fun x =>
    { x with
      suits := suits
      frost := frost
      emc := emc
      suitSince := ss'
      failSince := fs'
      want := if long ss' (pget d kSvcAerOnMin b) then true
        else if long fs' (pget d kSvcAerOffMin b) then false else x.want }) d

/-- `AER_EVALUATION`, every 60 s (R377-R379): parameters are taken (R395), the minute's samples join the means, every bin is
evaluated where both inputs are measurements and RH lies between 0.05 and 0.95, hourly samples are kept, and cables are
checked. -/
def aerEvaluation (d : Dev) : Dev :=
  let d := boundary (fun _ d => d) (fun w => w.bnd == .aerEval) d
  let d := { d with svc := { d.svc with
    ambMins := (d.svc.amb :: d.svc.ambMins).take 10, amb := { tSum := 0, tN := 0, hSum := 0, hN := 0 } } }
  let d :=
    if 3600000 ≤ d.time.tick - d.svc.lastHour then
      { d with svc := { d.svc with
          lastHour := d.time.tick
          aer := d.svc.aer.map fun x => { x with cables := x.cables.map fun c =>
            if c.lost then c else { c with sensors := c.sensors.map fun s => { s with hist := (s.val :: s.hist).take 24 } } } } }
    else d
  let d := forEach (List.finRange 12) (fun b d => forEach (List.finRange 8) (fun k d =>
    let c := (aerOf d b).cables.get k
    if cableRole d b k = 255 then d
    else if 600000 < d.time.tick - c.seen then cableLost b k d
    else if c.lost then d else cableHot b k d) d) d
  match ambMeans d with
  | none => d
  | some (t, rh) =>
    if !ambOk d || rh < 5000 || 95000 < rh then d
    else forEach (List.finRange 12) (fun b d => aerEval b t rh d) d

/-- A bin has a hot sensor. -/
def binHot (d : Dev) (b : Fin 12) : Bool := (binSensors d b).any (·.hot)

/-- A bin wants its fan (R378, R379); none does until `RUN` (R93, R97). -/
def aerWants (d : Dev) (b : Fin 12) : Bool :=
  let x := aerOf d b
  let mode := pget d kSvcAerEnable b
  if x.susp || mode = 0 || !d.svc.running then false
  else if binHot d b && pget d kSvcAerHotAct b == 1 && !x.frost then true
  else if mode = 1 then x.want else mode = 2

/-- EV_SVC_AER_FAN and the fan's pin (R378). -/
def aerFan (b : Fin 12) (on : Bool) (d : Dev) : Dev :=
  let t := match ambMeans d with
    | some (t, _) => ratRound t
    | none => 0
  svcEv 0x600A 3 b (le 1 b ++ le 1 (b2n on) ++ [0, 0] ++ le 4 (toBits 32 (aerOf d b).emc) ++ le 4 (toBits 32 t))
    (pinPut (pget d kSvcAerFanPin b) (if on then 255 else 0) (aerMod b (fun x => { x with fan := on }) d))

/-- A bin at a service step: claims, the stop of its fan and its run time; a start where its turn has come (R358, R359,
R378). -/
def aerStep (b : Fin 12) (d : Dev) : Dev :=
  let mode := pget d kSvcAerEnable b
  let own := ownerCode 3 b
  let d :=
    if mode = 0 then setClaims own 0 d
    else if claimClash d own (obPin (pget d kSvcAerFanPin b)) then d
    else setClaims own (maskOf (obPin (pget d kSvcAerFanPin b))) d
  let d :=
    if !ambOk d then aerMod b (fun x => { x with want := false, suitSince := none, failSince := none }) d else d
  let x := aerOf d b
  let d := if x.fan then aerMod b (fun x => { x with runMs := x.runMs + 100 }) d else d
  let claimed := alGet d.svc.owners own 0 != 0
  if x.fan && !(claimed && aerWants d b) then aerFan b false d
  else if !x.fan && claimed && aerWants d b then
    let running := (d.svc.aer.toList.filter (·.fan)).length
    let spaced := match d.svc.lastFan with
      | some t => 10000 ≤ d.time.tick - t
      | none => true
    if spaced && running < pget d kSvcAerFanMax 0 then
      aerFan b true { d with svc := { d.svc with lastFan := some d.time.tick } }
    else d
  else d

/-- The ambient samples of a service step (R377). -/
def ambSample (d : Dev) : Dev :=
  let a := d.svc.amb
  let t := afeMeas d (pget d kSvcAerAmbChan 0)
  let h := afeMeas d (pget d kSvcAerRhChan 0)
  { d with svc := { d.svc with amb :=
      { tSum := a.tSum + t.getD 0, tN := a.tN + b2n t.isSome, hSum := a.hSum + h.getD 0, hN := a.hN + b2n h.isSome } } }

/-- `SVC_AER_STATE` (R395). -/
def aerState (d : Dev) (b : Fin 12) : Nat :=
  let x := aerOf d b
  b2n x.fan + 2 * b2n x.suits + 4 * b2n (binHot d b) + 8 * b2n (x.cables.toList.any (·.lost)) +
    65536 * (x.runMs / 3600000 % 65536)

/-! ## The water ledger (R381-R383) -/

/-- Allocation in µL. -/
def quotaUl (d : Dev) : Nat := pairV d kSvcWaterQuotaL 0 * 1000000

/-- New blocks of a total size fit within the quota (R382). -/
def blocksFit (d : Dev) (size : Nat) : Bool := ledgerUsed d + size ≤ quotaUl d

/-- Size of a block of an instance in µL. -/
def blockUl (d : Dev) (i : Nat) : Nat := pget d kSvcWatBlockMl i * 1000

/-- Meter count of an instance; none without a meter. -/
def meterCount (d : Dev) (i : Nat) : Option Nat :=
  let p := pget d kSvcWatMeterPin i
  if p < 64 then some (vAt d.fio.pin p Pin.reset).cdCount else none

/-- The local day number of DT, counted from 2000-01-01 (R383, R439, R441). -/
def localDay (d : Dev) : Option Int :=
  if !d.gns.solved then none
  else d.gns.utcOfs.map fun ofs => (d.time.dtFs / 1000000000000000 - ofs + pgetI d kSvcLocalOfsMin 0 * 60) / 86400

/-- The civil date of a day number from 2000-01-01: year, month, day. -/
def civil (day : Int) : Nat × Nat × Nat :=
  -- days since 0000-03-01 of the proleptic calendar
  let z := (day + 730425).toNat
  let era := z / 146097
  let doe := z % 146097
  let yoe := (doe - doe / 1460 + doe / 36524 - doe / 146096) / 365
  let doy := doe - (365 * yoe + yoe / 4 - yoe / 100)
  let mp := (5 * doy + 2) / 153
  let dd := doy - (153 * mp + 2) / 5 + 1
  let mm := if mp < 10 then mp + 3 else mp - 9
  (yoe + era * 400 + (if mm ≤ 2 then 1 else 0), mm, dd)

/-- The ledger day closes (R383): the daily record, kept newest first in 6 sectors of 128 (R28), EV_SVC_WATER_DAY, and a new day. -/
def dayClose (date : Option Int) (d : Dev) : Dev :=
  let l := d.svc.ledger
  let excess := l.used - quotaUl d
  let flags := (l.flags % 32) ||| (b2n date.isNone + 2 * b2n (excess != 0))
  let dw := match date with
    | some x => let c := civil x; c.1 * 65536 + c.2.1 * 256 + c.2.2
    | none => 0
  let quota := pairV d kSvcWaterQuotaL 0
  let rcd := padTo 32 (le 4 (l.dayNo + 1) ++ le 4 dw ++ le 4 (l.used / 1000) ++ le 4 quota ++ le 4 (l.pulsed / 1000) ++
    le 4 (l.metered / 1000) ++ le 4 (excess / 1000) ++ le 1 flags)
  let d := ledgerMod (fun l =>
    { l with
      used := 0
      pulsed := 0
      metered := 0
      dayNo := l.dayNo + 1
      lastTick := d.time.tick
      lastDay := date.map (· + 1)
      flags := 0
      quotaSaid := false
      records := (logKeep 6 128 (rcd :: l.records).reverse).reverse }) d
  raise 6 0x600C (subPath 6) (le 4 (l.used / 1000000) ++ le 4 quota ++ le 1 (flags % 4)) d

/-- The day test of a service step (R383). -/
def dayStep (d : Dev) : Dev :=
  let l := d.svc.ledger
  match localDay d with
  | some today =>
    match l.lastDay with
    | none => ledgerMod (fun l => { l with lastDay := some today }) d
    | some old =>
      if old < today then ledgerMod (fun l => { l with lastDay := some today }) (dayClose (some old) d) else d
  | none => if !d.gns.solved && 86400000 ≤ d.time.tick - l.lastTick then dayClose none d else d

/-! ## Conditioning water (R380-R382) -/

/-- A block closes (R381): it is charged with the larger of the pulsed and the metered volume. -/
def blockClose (i : Fin 2) (d : Dev) : Dev :=
  match (watOf d i).block with
  | none => d
  | some b =>
    let pulsed := b.ul
    let metered := match meterCount d i with
      | some c => (c + 2 ^ 32 - b.meter) % 2 ^ 32 * pget d kSvcWatMeterUl i
      | none => 0
    let charge := max pulsed metered
    let diff := if pulsed < metered then metered - pulsed else pulsed - metered
    let bad := (meterCount d i).isSome && decide (pget d kSvcWatTolPct i * pulsed < diff * 100)
    let d := watMod i (fun w =>
      { w with block := none, dose := w.dose.map fun x => { x with charged := x.charged + charge } }) d
    let d := ledgerMod (fun l =>
      { l with
        used := l.used + charge
        total := l.total + charge
        pulsed := l.pulsed + pulsed
        metered := l.metered + metered
        flags := l.flags ||| (4 * b2n bad) }) d
    if bad then svcEv 0x600D 4 i (le 1 i ++ [0, 0, 0] ++ le 4 (pulsed / 1000) ++ le 4 (metered / 1000)) d else d

/-- A block opens where it fits (R381, R382): the journal write begins; otherwise EV_SVC_QUOTA once a day. -/
def blockOpen (i : Fin 2) (d : Dev) : Dev :=
  if 3 ≤ d.pwr.lStep then d
  else if blocksFit d (blockUl d i) then
    watMod i (fun w =>
      { w with block := some { size := blockUl d i, ready := false, ul := 0, meter := (meterCount d i).getD 0 } }) d
  else if d.svc.ledger.quotaSaid then d
  else
    raise 6 0x600B (subPath 6) (le 4 (ledgerUsed d / 1000) ++ le 4 (pairV d kSvcWaterQuotaL 0))
      (ledgerMod (fun l => { l with quotaSaid := true }) d)

/-- The journal write of a block has completed (R381). -/
def blockJournalled (i : Fin 2) (d : Dev) : Dev :=
  watMod i (fun w => { w with block := w.block.map fun b => { b with ready := true } }) d

/-- A pulse of an injector ended without having energised (R380): its volume returns; after five in a row the injector
leaves the rotation. -/
def pulseBack (i : Fin 2) (vd ul : Nat) (d : Dev) : Dev :=
  let n := alGet (watOf d i).fails vd 0 + 1
  let d := watMod i (fun w =>
    { w with
      acc := w.acc + ((ul : Nat) : Rat)
      fails := alSet w.fails vd n
      out := if n = 5 then w.out ++ [vd] else w.out
      block := w.block.map fun b => { b with ul := b.ul - ul } }) d
  if n = 5 then inputLost 4 i 4 vd d else d

/-- The injectors in rotation. -/
def injectors (d : Dev) (i : Fin 2) : List Nat :=
  (bitsOf 16 (pget d kSvcWatInj i)).filter fun v => !(watOf d i).out.contains v

/-- The injector after the last one used. -/
def nextInjector (d : Dev) (i : Fin 2) : Option Nat :=
  let vs := injectors d i
  match vs.find? fun v => (watOf d i).next < v with
  | some v => some v
  | none => vs.head?

/-- One pulse to the next injector (R380, R301). -/
def pulseIssue (i : Fin 2) (d : Dev) : Dev :=
  match nextInjector d i with
  | none => d
  | some v =>
    if h : v < 16 then
      let ul := pget d kSvcWatPulseUl i
      let d := watMod i (fun w =>
        { w with acc := w.acc - ((ul : Nat) : Rat), next := v, block := w.block.map fun b => { b with ul := b.ul + ul } }) d
      if latchKnown (vlvCh d ⟨v, h⟩) then pulseBack i v ul d
      else queuePulse ⟨v, h⟩ { cmd := none, holdT := 0 } (watMod i (fun w => { w with flight := w.flight ++ [(v, ul)] }) d)
    else d

/-- Pulses as long as the accumulator holds one (R380, R381). -/
def pulseLoop (i : Fin 2) : (fuel : Nat) → Dev → Dev
  | 0, d => d
  | n + 1, d =>
    let w := watOf d i
    let ul := pget d kSvcWatPulseUl i
    if w.acc < (ul : Nat) || (injectors d i).isEmpty then d
    else match w.block with
      | none => blockOpen i d
      | some b =>
        if b.ul + ul ≤ b.size then
          if b.ready && ledgerUsed d ≤ quotaUl d then pulseLoop i n (pulseIssue i d) else d
        else blockOpen i (blockClose i d)

/-- Dosing has stopped (R380-R382): a pulse is due and no injector is left, no block could open, or the quota has been
lowered below the used volume. Nothing is then added to the accumulator. -/
def doseStopped (d : Dev) (i : Fin 2) : Bool :=
  let w := watOf d i
  !(w.acc < (pget d kSvcWatPulseUl i : Nat)) && ((injectors d i).isEmpty || match w.block with
    | none => true
    | some b => b.ready && quotaUl d < ledgerUsed d)

/-- Grain mass flow in kg/h (R380); none while it is not a measurement. -/
def watFlow (d : Dev) (i : Fin 2) : Option Rat :=
  let f := pget d kSvcWatFlowSrc i
  if f / 16 = 0x20 then
    let n := f % 16
    let p := vAt d.fio.pin (pget d kSvcColRollPin n) Pin.reset
    if p.freqStale then none
    else some ((p.freq : Rat) / 1000 * (pget d kSvcColMgPerPulse n : Nat) * 36 / 10000)
  else if f / 256 = 1 then (afeMeas d (f % 256)).map fun v => (v : Rat) * (pget d kSvcWatGPerCount i : Nat) / 1000
  else none

/-- The water rate in L/h (R380). -/
def watRate (d : Dev) (i : Fin 2) : Rat :=
  match watFlow d i, dlxMeas d (pget d kSvcWatDx i) with
  | some g, some m =>
    let t : Rat := (pget d kSvcWatMTarget i : Nat)
    let q := rdiv (g * (t - (m : Int))) (100000 - t)
    min (max q 0) (pget d kSvcWatMaxLph i : Nat)
  | _, _ => 0

/-- Meter counts for 10 s with no pulse in flight are charged (R381), and an open block no longer counts them. -/
def leakStep (i : Fin 2) (d : Dev) : Dev :=
  match meterCount d i with
  | none => d
  | some c =>
    let w := watOf d i
    if !w.flight.isEmpty then watMod i (fun w => { w with leakMs := 0, leakMeter := c }) d
    else if w.leakMs + 100 < 10000 then watMod i (fun w => { w with leakMs := w.leakMs + 100 }) d
    else
      let ul := (c + 2 ^ 32 - w.leakMeter) % 2 ^ 32 * pget d kSvcWatMeterUl i
      let stop := watMod i (fun w => { w with leakMs := 0, leakMeter := c })
      if ul = 0 then stop d
      else
        stop <| svcEv 0x600E 4 i (le 1 i ++ [0, 0, 0] ++ le 4 (ul / 1000)) (ledgerMod (fun l =>
          { l with used := l.used + ul, total := l.total + ul, metered := l.metered + ul, flags := l.flags ||| 8 })
          (watMod i (fun w => { w with block := w.block.map fun b =>
            { b with meter := (b.meter + (c + 2 ^ 32 - w.leakMeter) % 2 ^ 32) % 2 ^ 32 } }) d))

/-- A dose comes to its end (R396): the block closes and the command completes with the volume charged. -/
def doseEnd (i : Fin 2) (d : Dev) : Dev :=
  let w := watOf d i
  match w.dose with
  | none => d
  | some x =>
    if 0 < x.left || (pget d kSvcWatPulseUl i : Nat) ≤ w.acc || !w.flight.isEmpty then d
    else
      let d := blockClose i d
      let ul := match (watOf d i).dose with
        | some y => y.charged
        | none => 0
      completeId x.cmd 0 0 (le 4 (ul / 1000)) (watMod i (fun w => { w with dose := none, acc := 0 }) d)

/-- The lot of a WAT instance takes the grain that passes. -/
def watLot (i : Fin 2) (d : Dev) : Dev :=
  match (watOf d i).lot, watFlow d i with
  | some l, some g =>
    let mg := (g * 1000000 / 36000).floor.toNat
    let m := dlxMeas d (pget d kSvcWatDx i)
    let l := { l with
      mass := l.mass + mg
      massIn := some (l.massIn.getD 0 + mg)
      inMass := if m.isSome then l.inMass + mg else l.inMass
      inSum := l.inSum + mg * (m.getD 0).toNat }
    watMod i (fun w => { w with lot := some l }) d
  | _, _ => d

/-- A WAT instance at a service step (R380-R382). -/
def watStep (i : Fin 2) (d : Dev) : Dev :=
  let w := watOf d i
  let active := (w.phase = 1 ∨ w.dose.isSome) && !w.susp && !w.held
  let d := leakStep i (watLot i d)
  let d := if w.phase != 0 && !w.susp then watMod i (fun w => { w with ms := w.ms + 100 }) d else d
  if !active then d
  else
    -- L/h for 100 ms is 250 / 9 µL
    let d :=
      if doseStopped d i then d
      else match w.dose with
        | some x =>
          let add := min x.left ((pget d kSvcWatMaxLph i : Nat) * (250 : Rat) / 9)
          watMod i (fun w => { w with acc := w.acc + add, dose := some { x with left := x.left - add } }) d
        | none => watMod i (fun w => { w with acc := w.acc + watRate d i * 250 / 9 }) d
    doseEnd i (pulseLoop i 32 d)

/-- The reported ends of the pulses issued since the last step go to the instance or gate that issued them (R380,
R385). -/
def pulseEndOne (p : Nat × Bool) (d : Dev) : Dev :=
  match (List.finRange 2).find? fun i => (watOf d i).flight.any fun q => q.1 = p.1 with
  | some i =>
    let ul := alGet (watOf d i).flight p.1 0
    let d := watMod i (fun w => { w with flight := w.flight.erase (p.1, ul) }) d
    if p.2 then watMod i (fun w => { w with fails := alSet w.fails p.1 0 }) d else pulseBack i p.1 ul d
  | none =>
    match (List.finRange 16).find? fun n =>
        let x := cnvOf d n
        let g := pget d kSvcCnvGateVd n
        x.gateOut && (match x.gate with
          | some true => g / 256 == p.1
          | some false => g % 256 == p.1
          | none => false) with
    | some n =>
      cnvMod n (fun x =>
        if p.2 then { x with gate := none, gateOut := false, gateTries := 0 }
        else { x with gateOut := false, gateTries := x.gateTries + 1 }) d
    | none => d

def pulseEndsTake (d : Dev) : Dev :=
  forEach d.svc.pulseEnds pulseEndOne { d with svc := { d.svc with pulseEnds := [] } }

end Sys2Proof.Machine
end

