-- ==== Sys2Proof/Machine/Dry.lean ====
section
/-!
DEFINITION. Machine/Dry.lean: the drying services (09): batch bins and columns, their grain limit, phases and lots, the
start and the commands of group 0x16, the service step, suspension, and what follows a reset.
-/
namespace Sys2Proof.Machine

/-! ## Grain and plenum limits (R367, R368) -/

/-- The grain-temperature channels a drying instance names. -/
def gtChans (d : Dev) (i : Fin 6) : List Nat :=
  if i.val < 4 then bitsOf 32 (pget d kSvcBinGtChans i)
  else (List.range 8).filterMap fun k =>
    let c := byteAt (pbytes d kSvcColProbes (dryNo i)) (2 * k)
    if c < 32 then some c else none

/-- Observer and roll loop of a column. -/
def obsLi (d : Dev) (i : Fin 6) : Nat := pget d kSvcColLiObs (dryNo i)
def rollLi (d : Dev) (i : Fin 6) : Nat := pget d kSvcColLiRoll (dryNo i)

/-- Estimates of a column's observer by state index (R372). -/
def obsHat (d : Dev) (i : Fin 6) (k : Nat) : Int :=
  let x := vAt d.ctl.inst (obsLi d i) CtlInst.reset
  (x.st.map fun v => toInt v x.ste).getD k 0

/-- The sources of the grain temperature that are measurements (R368). -/
def gtMeas (d : Dev) (i : Fin 6) : List Int :=
  (gtChans d i).filterMap (afeMeas d) ++
    if i.val < 4 then []
    else (dryBurners d i).filterMap fun (b : Fin 4) =>
      (afeMeas d (pget d kSvcBrnPlenumChan b)).map fun v => v - pgetI d kSvcColPlenumGap (dryNo i)

/-- The estimates of the layers' temperatures, while the observer runs. -/
def gtEst (d : Dev) (i : Fin 6) : List Int :=
  if i.val < 4 ∨ loopState d (obsLi d i) ≤ 1 then [] else (List.range 32).map fun j => obsHat d i (2 * j + 1)

/-- Highest of a list, none for an empty one. -/
def maxOf : List Int → Option Int
  | [] => none
  | x :: xs => some (xs.foldl max x)

/-- The grain temperature (R368). -/
def dryTemp (d : Dev) (i : Fin 6) : Option Int := maxOf (gtMeas d i ++ gtEst d i)

/-- The plenum set-point of the recipe, and what is requested (R360, R368). -/
def recipeSp (d : Dev) (i : Fin 6) : Int :=
  if i.val < 4 then pgetI d kSvcBinPlenum i else pgetI d kSvcColPlenum (dryNo i)

def reqSp (d : Dev) (i : Fin 6) : Int := recipeSp d i - ((dryOf d i).drop / 600 : Nat)

/-- Grain type and use of a drying instance, and its T_max. -/
def dryGrain (d : Dev) (i : Fin 6) : Nat := dryGet d i kSvcBinGrain kSvcColGrain
def dryUse (d : Dev) (i : Fin 6) : Nat := dryGet d i kSvcBinUse kSvcColUse
def dryTmax (d : Dev) (i : Fin 6) : Int := tmaxOf d (dryGrain d i) (dryUse d i)

/-- Phases in which a missing grain temperature counts: HEAT, DRY, WARM, FLOW (R368). -/
def heatPhase (phase : Nat) : Bool := phase == 2 || phase == 3

/-- A phase that requests heat (R369, R374). -/
def dryHeats (d : Dev) (i : Fin 6) : Bool :=
  let x := dryOf d i
  if i.val < 4 then x.phase == 2 || x.phase == 3
  else
    let hold := pget d kSvcColHoldKg (dryNo i) * 1000000
    x.phase == 2 || x.phase == 3 ||
      (x.phase == 4 && decide (pget d kSvcColEmptyLayers (dryNo i) < 32 - x.emptied * 32 / max hold 1))

/-- Every burner of an instance to OFF. -/
def burnersOff (i : Fin 6) (d : Dev) : Dev := forEach (dryBurners d i) brnOff d

/-- The comparison with T_max (R368). -/
def grainLimit (i : Fin 6) (d : Dev) : Dev :=
  let k := dryKind i
  let n := dryNo i
  let tm := dryTmax d i
  let margin : Int := pget d kSvcTmaxMargin 0
  let d :=
    if heatPhase (dryOf d i).phase && (gtMeas d i).isEmpty then
      let ms := (dryOf d i).noMeasMs
      let d := dryMod i (fun x => { x with noMeasMs := min (ms + 100) 10100 }) d
      if ms ≤ 10000 ∧ 10000 < ms + 100 then inputLost k n 2 ((gtChans d i).headD 255) (burnersOff i d) else d
    else dryMod i (fun x => { x with noMeasMs := 0 }) d
  match dryTemp d i with
  | none => d
  | some t =>
    let d :=
      if tm - margin ≤ t then dryMod i (fun x => { x with drop := x.drop + pget d kSvcTmaxRate 0, limitHeld := true }) d
      else if t < tm - margin - 1000 then dryMod i (fun x => { x with drop := 0, limitHeld := false }) d
      else d
    let d := dryMod i (fun x =>
      { x with lot := x.lot.map fun l => if l.grainMax < t then { l with grainMax := t } else l }) d
    if tm ≤ t then
      if (dryOf d i).tooHot then d
      else
        svcEv 0x6003 k n (le 1 k ++ le 1 n ++ [0, 0] ++ le 4 (toBits 32 t) ++ le 4 (toBits 32 tm))
          (burnersOff i (dryMod i (fun x => { x with tooHot := true }) d))
    else if t < tm - margin then dryMod i (fun x => { x with tooHot := false }) d
    else d

/-! ## Lots and phases -/

/-- The lot of a drying instance closes, or waits where eight records wait (R390, R564). -/
def dryLotClose (i : Fin 6) (aborted : Bool) (d : Dev) : Dev :=
  match (dryOf d i).lot with
  | none => d
  | some l =>
    let est := (dryBurners d i).any fun b => 63 < pget d kSvcBrnGasPin b
    let l := { l with flags := l.flags ||| (b2n aborted + 4 * b2n est) }
    if lotsFull d then dryMod i (fun x => { x with closing := true, lot := some l }) d
    else closeLot l (dryEnergy d i) aborted false (dryMod i (fun x => { x with closing := false, lot := none }) d)

/-- A lot opens; one that still waits to be closed goes on (R564). -/
def dryLotOpen (i : Fin 6) (d : Dev) : Dev :=
  let x := dryOf d i
  if x.lot.isSome then d
  else
    let r := openLot (dryKind i) (dryNo i) (dryGrain d i) (dryUse d i) x.recipe x.recipeCrc (dryEnergy d i) d
    dryMod i (fun x => { x with lot := some r.1, closing := false }) r.2

/-- An instance takes a phase (R358, R361): EV_SVC_PHASE and a resume record (R394). -/
def dryTo (i : Fin 6) (new cause : Nat) (d : Dev) : Dev :=
  let old := (dryOf d i).phase
  let d := dryMod i (fun x => { x with phase := new, ms := 0, pinMs := 0, runout := none, dryMs := if new = 3 then x.dryMs else 0 }) d
  let d := svcEv 0x6001 (dryKind i) (dryNo i) (le 1 (dryKind i) ++ le 1 (dryNo i) ++ le 1 new ++ le 1 old ++ le 1 cause) d
  dryResume i d

/-- Back to IDLE or DONE: the lot closes and the claims are given back (R359, R390). -/
def dryEnd (i : Fin 6) (phase cause : Nat) (aborted : Bool) (d : Dev) : Dev :=
  let d := dryLotClose i aborted (dryTo i phase cause d)
  let d := dryMod i (fun x =>
    { x with susp := false, obsFault := false, limitHeld := false, silentHeld := false, silentDone := false, drop := 0,
             tooHot := false, noMeasMs := 0, cdr := none, rebuild := none }) d
  let own := ownerCode (dryKind i) (dryNo i)
  let d := forEach (dryBurners d i) (fun b d =>
    pinPut (pget d kSvcBrnReqPin b) 0 (loopLimits (pget d kSvcBrnLi b) 0 0
      (brnMod b (fun x => { x with owner := none, want := false, st := if x.st = 4 then 4 else 0 }) d))) d
  setClaims own 0 d

/-- Mass and moisture of a bin's grain. -/
def binMass (d : Dev) (i : Fin 6) : Option Nat :=
  (afeMeas d (pget d kSvcBinWeighChan i)).map fun (v : Int) => (v * ((pget d kSvcBinGPerCount i : Nat) : Int)).toNat

def binMoisture (d : Dev) (i : Fin 6) : Option Int :=
  let src := pget d kSvcBinMSrc i
  if src = 254 then
    if d.cmd.params.any fun e => e.1 = addrOf kSvcBinMMan i then some (pget d kSvcBinMMan i : Nat) else none
  else dlxMeas d src

/-- Mass and moisture of a bin's lot at the end of FILL, and at the start of UNLOAD (R561). -/
def binLotIn (i : Fin 6) (d : Dev) : Dev :=
  let m := binMoisture d i
  let g := binMass d i
  dryMod i (fun x => { x with lot := x.lot.map fun l =>
    { l with massIn := g.map (· * 1000), inMass := if m.isSome then 1 else 0, inSum := (m.getD 0).toNat } }) d

def binLotOut (i : Fin 6) (d : Dev) : Dev :=
  let m := binMoisture d i
  dryMod i (fun x => { x with lot := x.lot.map fun l =>
    { l with mass := ((binMass d i).getD 0) * 1000, outMass := if m.isSome then 1 else 0, outSum := (m.getD 0).toNat } }) d

/-! ## Bins (R369) -/

/-- The step to the phase that follows (R369). -/
def binNext (i : Fin 6) (cause : Nat) (d : Dev) : Dev :=
  match (dryOf d i).phase with
  | 1 => dryTo i 2 cause (binLotIn i d)
  | 2 => dryTo i 3 cause d
  | 3 => dryTo i 4 cause d
  | 4 => dryTo i 5 cause (binLotOut i d)
  | 5 => dryEnd i 6 cause false (chainStop (dryOut d i) d)
  | _ => d

/-- Steps at which a pin has been on without a break, in ms: the first one found it on and counts none of its time. -/
def pinTime (i : Fin 6) (pin : Nat) (d : Dev) : Dev :=
  dryMod i (fun x => { x with pinMs := if pinOn d pin then x.pinMs + 100 else 0 }) d

/-- A measured value lies at or below a bound. -/
def leOpt (v : Option Int) (b : Int) : Bool :=
  match v with
  | some x => decide (x ≤ b)
  | none => false

/-- The exits of a bin's phase (R369). `held` bars every exit but those to FAULT (R393). -/
def binExit (i : Fin 6) (held : Bool) (d : Dev) : Dev :=
  let x := dryOf d i
  match x.phase with
  | 1 =>
    let d := pinTime i (pget d kSvcBinFullPin i) d
    let kg := pget d kSvcBinFillKg i
    let full := 30000 < (dryOf d i).pinMs || (kg != 0 && match binMass d i with
      | some g => decide (kg * 1000 ≤ g)
      | none => false)
    if full && !held then binNext i 0 d
    else if pget d kSvcBinFillS i * 1000 ≤ x.ms && !x.fault then dryMod i (fun x => { x with fault := true }) d
    else d
  | 2 =>
    if !held && (match dryTemp d i with
      | some t => decide (pgetI d kSvcBinHeatT i ≤ t)
      | none => false) then binNext i 0 d else d
  | 3 =>
    if held then d
    else if leOpt (binMoisture d i) ((pget d kSvcBinMTarget i + pget d kSvcBinCoolDrop i : Nat) : Int) then binNext i 0 d
    else if pget d kSvcBinDryMaxS i * 1000 ≤ x.ms + x.dryMs then binNext i 2 d
    else d
  | 4 =>
    if held then d
    else if (match afeMeas d (pget d kSvcBinAmbChan i) with
      | some a => leOpt (dryTemp d i) (a + pgetI d kSvcBinCoolDt i)
      | none => false) then binNext i 0 d
    else if pget d kSvcBinCoolMaxS i * 1000 ≤ x.ms then binNext i 2 d
    else d
  | 5 =>
    let d := pinTime i (pget d kSvcBinEmptyPin i) d
    let kg := pget d kSvcBinFillKg i
    let empty := 30000 < (dryOf d i).pinMs || (kg != 0 && match binMass d i with
      | some g => decide (g * 100 ≤ kg * 1000)
      | none => false)
    match x.runout with
    | none =>
      if !empty then d
      else if pget d kSvcBinUnloadS i = 0 && !held then binNext i 0 d
      else dryMod i (fun x => { x with runout := some 0 }) d
    | some t =>
      if pget d kSvcBinUnloadS i * 1000 ≤ t + 100 then (if held then d else binNext i 0 d)
      else dryMod i (fun x => { x with runout := some (t + 100) }) d
  | _ => d

/-- A chain is held in the state a phase asks for. -/
def chainSet (c : Nat) (want : Bool) (d : Dev) : Dev := if want then chainStart c d else chainStop c d

/-- The outputs of a bin's phase (R369). -/
def binOutputs (i : Fin 6) (d : Dev) : Dev :=
  let x := dryOf d i
  let d := setVal 1 i 0 (reqSp d i) d
  if !dryRuns i x then d
  else
    let d := pinPut (pget d kSvcBinFanPin i) (if x.phase = 2 ∨ x.phase = 3 ∨ x.phase = 4 then 255 else 0) d
    let d := chainSet (dryFill d i) (x.phase == 1 && !x.fault) d
    chainSet (dryOut d i) (x.phase == 5) d

/-! ## The column observer (R371-R373) -/

/-- The probes of a column: channel and layer. -/
def colProbes (d : Dev) (n : Nat) : List (Nat × Nat) :=
  (List.range 8).filterMap fun k =>
    let b := pbytes d kSvcColProbes n
    if byteAt b (2 * k) < 32 then some (byteAt b (2 * k), byteAt b (2 * k + 1)) else none

/-- An input word: source, object, FEEDBACK and ALLOW (R313). -/
def inputWord (src obj : Nat) (fb : Bool) (allow : Nat) : Nat := src * 2 ^ 28 + obj * 2 ^ 16 + 32768 * b2n fb + allow

/-- The descriptor of the observer (R371). What R371 leaves open: TRACK of the reference is the discharge moisture
(log entry 16). -/
def obsDesc (d : Dev) (i : Fin 6) : List Byte :=
  let n := dryNo i
  let ps := colProbes d n
  let dxIn := pget d kSvcColDxIn n
  let plenum := match dryBurners d i with
    | b :: _ => pget d kSvcBrnPlenumChan b
    | [] => 0
  let ins :=
    [inputWord 3 (pget d kSvcColRollPin n) false 0,
     if dxIn < 4 then inputWord 2 dxIn false 0 else inputWord 5 1 false 0,
     inputWord 1 plenum false 0,
     inputWord 1 (pget d kSvcColExhChan n) true 5,
     inputWord 2 (pget d kSvcColDxOut n) true 10] ++ ps.map fun p => inputWord 1 p.1 true 5
  let area := fun (ws : List Nat) => padTo 64 (ws.flatMap fun w => le 4 w)
  [1, 9, 64, 0, 1, BitVec.ofNat 8 ins.length, 1, 2, 0, 3] ++ le 2 (0x8000 + pget d kSvcColCoastS n) ++
    [1, 4, 0, 0] ++ List.replicate 16 0 ++ area ins ++ area [0] ++
    area [2 * 2 ^ 28 + (0x200 + 16 * n) * 2 ^ 16 + 4 * 2 ^ 12] ++ List.replicate 32 0

/-- Model speed k of four, 1 to 4, in mHz (R372). -/
def modelSpeed (d : Dev) (n k : Nat) : Int :=
  let lo : Int := pget d kSvcColRollMin n
  let hi : Int := pget d kSvcColRollMax n
  lo + (hi - lo) * (2 * (k : Int) - 1) / 8

/-- Coefficient set k of the observer for a set-point (R372). -/
def modelSet (d : Dev) (i : Fin 6) (k : Nat) (sp : Int) : CoefSet :=
  let n := dryNo i
  let key : List Int :=
    [((dryGrain d i : Nat) : Int), sp, ((pget d kSvcColHoldKg n : Nat) : Int), ((pget d kSvcColMgPerPulse n : Nat) : Int),
      modelSpeed d n k] ++ (colProbes d n).map fun (p : Nat × Nat) => ((p.2 : Nat) : Int)
  let cs := (List.range (coefCount (obsDesc d i))).map fun j =>
    let c := Config.colCoef key j
    (sw c.1, c.2.toNat)
  { coefs := cs, crc := setCrc cs, valid := true }

/-- Writes set k of the observer, sealed. -/
def writeModelSet (i : Fin 6) (k : Nat) (d : Dev) : Dev :=
  if h : obsLi d i < 64 then
    let s := modelSet d i k (dryOf d i).builtSp
    ctlSetMod ⟨obsLi d i, h⟩ k (fun _ => s) d
  else d

/-- The observer's descriptor, breakpoints and sets as `SVC_START` writes them (R371, R372). -/
def obsWrite (i : Fin 6) (d : Dev) : Dev :=
  let li := obsLi d i
  let n := dryNo i
  let desc := wordsOf 64 (obsDesc d i)
  let a := addrOf kCtlDesc li
  let d := ctlHook a (setParam a desc d)
  let lo := pget d kSvcColRollMin n
  let hi := pget d kSvcColRollMax n
  let bp := wordsOf 8 (padTo 32 ((List.range 3).flatMap fun k => le 4 (lo + (hi - lo) * (k + 1) / 4)))
  let d := setParam (addrOf kCtlSchedBp li) bp d
  let d := dryMod i (fun x => { x with builtSp := recipeSp d i }) d
  forEach [1, 2, 3, 4] (writeModelSet i) d

/-- Changes an enable of a loop instance (R374). -/
def loopEnable (li v : Nat) (d : Dev) : Dev :=
  let a := addrOf kCtlEnable li
  if li < 64 ∧ pget d kCtlEnable li ≠ v then ctlHook a (setParam a [w32 v] d) else d

/-- A change of the coefficient source by the firmware (R373, R340). -/
def obsSelect (li : Nat) (set : Option Nat) (d : Dev) : Dev :=
  if h : li < 64 then
    ctlMod ⟨li, h⟩ (ctlPendSet set.isNone set 3 []) d
  else d

/-- The model speed nearest the present roll speed, among some sets. -/
def nearestSet (d : Dev) (n : Nat) (speed : Int) (ks : List Nat) : Nat :=
  (ks.foldl (fun (a : Option (Nat × Nat)) k =>
    let e := (modelSpeed d n k - speed).natAbs
    match a with
    | none => some (k, e)
    | some (k0, e0) => if e < e0 then some (k, e) else some (k0, e0)) none).elim 1 (·.1)

/-- The rebuild of the four sets, one stage a step (R373). -/
def colRebuild (i : Fin 6) (d : Dev) : Dev :=
  let li := obsLi d i
  let n := dryNo i
  let x := vAt d.ctl.inst li CtlInst.reset
  match (dryOf d i).rebuild with
  | some old =>
    if x.setPend.isNone && x.setUse != old then
      obsSelect li none (writeModelSet i old (dryMod i (fun y => { y with rebuild := none }) d))
    else d
  | none =>
    if 5000 ≤ (recipeSp d i - (dryOf d i).builtSp).natAbs && x.setPend.isNone then
      let ks := [1, 2, 3, 4].filter (· != x.setUse)
      let d := dryMod i (fun y => { y with builtSp := recipeSp d i, rebuild := some x.setUse }) d
      let d := forEach ks (writeModelSet i) d
      let speed := (vAt d.fio.pin (pget d kSvcColRollPin n) Pin.reset).freq
      obsSelect li (some (nearestSet d n speed ks)) d
    else d

/-! ## Columns (R374-R376) -/

/-- The roll loop and the observer stop, and the roll with them (R374). -/
def rollStop (i : Fin 6) (d : Dev) : Dev :=
  let w := dOut (ctlDesc d (rollLi d i)) 0
  let d := loopEnable (obsLi d i) 0 (loopEnable (rollLi d i) 0 d)
  if wSrc w = 2 then pinPut (wObj w) 0 d else d

/-- The exit of a column's phase to another (R374). -/
def colTo (i : Fin 6) (new cause : Nat) (d : Dev) : Dev :=
  match new with
  | 3 => dryLotOpen i (dryTo i 3 cause d)
  | 4 =>
    let u := (vAt d.ctl.inst (obsLi d i) CtlInst.reset).u.getD 0 0
    dryTo i 4 cause (dryMod i (fun x => { x with emptied := 0, heldRoll := u }) d)
  | _ => dryTo i new cause d

/-- The grain discharged since the last step, in mg, into the lot with its moistures (R375). -/
def colMass (i : Fin 6) (d : Dev) : Dev :=
  let n := dryNo i
  let x := dryOf d i
  let c := (vAt d.fio.pin (pget d kSvcColRollPin n) Pin.reset).cdCount
  let mg := (c + 2 ^ 32 - x.rollCount) % 2 ^ 32 * pget d kSvcColMgPerPulse n
  let mo := dlxMeas d (pget d kSvcColDxOut n)
  let mi : Option Int := if pget d kSvcColDxIn n < 4 then dlxMeas d (pget d kSvcColDxIn n) else some (pget d kSvcColMIn n : Nat)
  let upd : Lot → Lot := fun l =>
    { l with
      mass := l.mass + mg
      outMass := if mo.isSome then l.outMass + mg else l.outMass
      outSum := l.outSum + mg * (mo.getD 0).toNat
      inMass := if mi.isSome then l.inMass + mg else l.inMass
      inSum := l.inSum + mg * (mi.getD 0).toNat }
  dryMod i (fun x =>
    { x with rollCount := c, emptied := if x.phase = 4 then x.emptied + mg else x.emptied, lot := x.lot.map upd }) d

/-- In FLOW the lot closes and the next opens at `SVC_COL_LOT_KG` (R375). -/
def colLots (i : Fin 6) (d : Dev) : Dev :=
  match (dryOf d i).lot with
  | some l =>
    if pget d kSvcColLotKg (dryNo i) * 1000000 ≤ l.mass && !lotsFull d then dryLotOpen i (dryLotClose i false d) else d
  | none => d

/-- The exits of a column's phase (R374). -/
def colExit (i : Fin 6) (held : Bool) (d : Dev) : Dev :=
  let n := dryNo i
  let x := dryOf d i
  match x.phase with
  | 1 =>
    let d := pinTime i (pget d kSvcColFullPin n) d
    if 30000 < (dryOf d i).pinMs && !held then colTo i 2 0 d
    else if pget d kSvcColFillS n * 1000 ≤ x.ms && !x.fault then dryMod i (fun x => { x with fault := true }) d
    else d
  | 2 =>
    let lim : Int := (pget d kSvcColMTarget n + pget d kSvcColMBand n : Nat)
    if !held && leOpt (dlxMeas d (pget d kSvcColDxOut n)) lim &&
      1 < loopState d (obsLi d i) && decide (obsHat d i 62 ≤ lim) then colTo i 3 0 d else d
  | 3 =>
    let d := pinTime i (pget d kSvcColInlowPin n) d
    if 60000 < (dryOf d i).pinMs && !held then colTo i 4 0 d else colLots i d
  | 4 =>
    let d := pinTime i (pget d kSvcColEmptyPin n) d
    if 30000 < (dryOf d i).pinMs && !held then colTo i 5 0 d else d
  | 5 =>
    if pget d kSvcColCoolS n * 1000 ≤ x.ms then
      let d := chainStop (dryFill d i) (chainStop (dryOut d i) (rollStop i d))
      if chainStopped d (dryFill d i) && chainStopped d (dryOut d i) && !held then dryEnd i 0 0 false d else d
    else d
  | _ => d

/-- The outputs of a column's phase (R371, R374). -/
def colOutputs (i : Fin 6) (d : Dev) : Dev :=
  let n := dryNo i
  let x := dryOf d i
  let d := setVal 2 n 1 (reqSp d i) (setVal 2 n 0 (pget d kSvcColMTarget n : Nat) d)
  if x.phase = 0 then d
  else
    let lo : Int := pget d kSvcColRollMin n
    let hi : Int := pget d kSvcColRollMax n
    let a := addrOf (kCtlExtIn + 1) (obsLi d i)
    let d := if 3 < pget d kSvcColDxIn n then ctlHook a (setParam a [w32 (pget d kSvcColMIn n)] d) else d
    let d := colRebuild i d
    let d :=
      if x.phase = 5 then d
      else
        let d := chainStart (dryOut d i) (loopEnable (rollLi d i) 1 (loopEnable (obsLi d i) 1 d))
        if x.phase != 4 && chainProven d (dryOut d i) then chainStart (dryFill d i) d else d
    match x.phase with
    | 1 => loopLimits (obsLi d i) lo lo d
    | 2 => loopLimits (obsLi d i) lo lo d
    | 3 => loopLimits (obsLi d i) lo hi d
    | 4 => chainStop (dryFill d i) (loopLimits (obsLi d i) x.heldRoll x.heldRoll d)
    | _ => d

/-! ## The step of a drying instance -/

/-- A commander counts as silent (R100, R393): 0 the host, 1 + 8 * channel + commander a remote one. -/
def cdrSilent (d : Dev) (c : Option Nat) : Bool :=
  match c with
  | none => false
  | some 0 => d.host.silent
  | some (k + 1) => d.host.rmbSilent.contains k

/-- `SVC_STOP` of a drying instance (R370, R374). -/
def dryStop (i : Fin 6) (d : Dev) : Dev :=
  let p := (dryOf d i).phase
  if i.val < 4 then
    if 1 ≤ p ∧ p ≤ 3 then dryTo i 4 1 (if p = 1 then binLotIn i d else d)
    else if p = 4 then binNext i 1 d
    else d
  else if 1 ≤ p ∧ p ≤ 3 then colTo i 5 1 d
  else d

/-- What a silent commander does to an instance (R393). -/
def drySilence (i : Fin 6) (d : Dev) : Dev :=
  let x := dryOf d i
  if !dryRuns i x || !cdrSilent d x.cdr then dryMod i (fun x => { x with silentHeld := false, silentDone := false }) d
  else match pget d kSvcHostSilenceAct 0 with
    | 1 => dryMod i (fun x => { x with silentHeld := true }) d
    | 2 =>
      let d := dryMod i (fun x => { x with silentHeld := false }) d
      if x.silentDone then d else dryStop i (dryMod i (fun x => { x with silentDone := true }) d)
    | _ => dryMod i (fun x => { x with silentHeld := false }) d

/-- Requests of heat to the burners of an instance (R364, R368). -/
def dryHeat (i : Fin 6) (d : Dev) : Dev :=
  let x := dryOf d i
  let want := dryHeats d i && !x.susp && !x.tooHot && x.noMeasMs ≤ 10000
  forEach (dryBurners d i) (fun b d =>
    if (brnOf d b).owner = some (ownerCode (dryKind i) (dryNo i)) then
      brnMod b (fun y => { y with want := want }) d
    else d) d

/-- Exits and outputs of a drying instance at a service step (R358). `old` is the phase before the step's commands: where one
of them has changed the phase, that is the step's transition. -/
def dryStep (i : Fin 6) (old : Nat) (d : Dev) : Dev :=
  let d := if (dryOf d i).closing then dryLotClose i false d else d
  let d := drySilence i d
  let x := dryOf d i
  let d :=
    if !dryRuns i x || x.susp then d
    else
      let moved := x.phase != old
      let d := if moved then d else dryMod i (fun x => { x with ms := x.ms + 100 }) d
      let d := if i.val < 4 then d else colMass i d
      let d := grainLimit i d
      let st := loopState d (obsLi d i)
      let d :=
        if i.val < 4 then d
        else if st = 7 then dryMod i (fun x => { x with obsFault := true }) d
        else if st = 4 ∨ st = 3 then dryMod i (fun x => { x with obsFault := false }) d
        else d
      if moved then d else if i.val < 4 then binExit i x.silentHeld d else colExit i x.silentHeld d
  dryHeat i (if i.val < 4 then binOutputs i d else colOutputs i d)

/-- A running loop instance that writes a service value (DST 4) publishes it at the service step (R360); a burner's value is
the burner's own. -/
def loopValues (d : Dev) : Dev :=
  forEach (List.finRange 64) (fun k d =>
    let b := ctlDesc d k
    if !ctlRuns (ctlInst d k) then d
    else forEach (List.range (dM b)) (fun o d =>
      let n := wObj (dOut b o)
      if wSrc (dOut b o) = 4 && n / 256 != 6 then
        { d with svc := { d.svc with vals := alSet d.svc.vals n (instOutput d (16 * k.val + o)).1 } }
      else d) d) d

/-! ## SVC_START (R359, R363, R371, R384) -/

/-- Modes of a pin. -/
def modeIs (d : Dev) (n m : Nat) : Bool := 63 < n || pget d kFioMode n == m

/-- A switch input: DIN or DIN_WB, where named. -/
def switchOk (d : Dev) (n : Nat) : Bool := 63 < n || pget d kFioMode n == 1 || pget d kFioMode n == 2

/-- The objects of a burner that must be named (R363). -/
def brnMissing (d : Dev) (b : Fin 4) : Bool :=
  63 < pget d kSvcBrnReqPin b || 63 < pget d kSvcBrnProvenPin b || 63 < pget d kSvcBrnLi b || 31 < pget d kSvcBrnPlenumChan b

/-- A burner's objects are in the wrong mode, or its loop has the wrong shape (R363). -/
def brnWrong (d : Dev) (b : Fin 4) : Bool :=
  let li := pget d kSvcBrnLi b
  let ds := ctlDesc d li
  let o := dOut ds 0
  let r := dRef ds 0
  let m := pget d kVlvMode (wObj o)
  !modeIs d (pget d kSvcBrnReqPin b) 4 || !modeIs d (pget d kSvcBrnProvenPin b) 1 || !modeIs d (pget d kSvcBrnGasPin b) 3 ||
    loopState d li == 0 || dP ds < 1 || dM ds != 1 || dQ ds != 1 || !dBackcalc ds || !dGlideAll ds || wSrc o != 1 ||
    !(m == 2 || m == 4) || !outFbMode o || pairI d kCtlFallback li != 0 || wSrc r != 2 ||
    wObj r != 0x600 + 16 * b.val

/-- The request pin's safe state is not OFF (R363). -/
def brnUnsafe (d : Dev) (b : Fin 4) : Bool := pairV d kFioSafe (pget d kSvcBrnReqPin b) != 0

/-- A chain that breaks R384, or whose conveyors' objects are in the wrong mode. -/
def chainWrong (d : Dev) (c : Nat) : Bool :=
  c < 4 && (!chainOk d c || (chainMembers d c).any fun n =>
    let g := pget d kSvcCnvGateVd n
    !modeIs d (pget d kSvcCnvRunPin n) 4 || !modeIs d (pget d kSvcCnvSpeedPin n) 3 || !modeIs d (pget d kSvcCnvPlugPin n) 1 ||
      !modeIs d (pget d kSvcCnvAlignPin n) 1 || (g / 256 < 16 && pget d kVlvMode (g / 256) != 1) ||
      (g % 256 < 16 && pget d kVlvMode (g % 256) != 1))

/-- The roll loop's shape (R371): 100 ms, the roll frequency in, PWM out, its reference the observer's output. -/
def rollWrong (d : Dev) (i : Fin 6) : Bool :=
  let n := dryNo i
  let ds := ctlDesc d (rollLi d i)
  let x := dIn ds 0
  let r := dRef ds 0
  loopState d (rollLi d i) == 0 || dPeriod ds != 100 || wSrc x != 3 || wObj x != pget d kSvcColRollPin n ||
    wSrc (dOut ds 0) != 2 || wSrc r != 1 || wObj r != 16 * obsLi d i

/-- A required object of an instance is not named (R359, R395). -/
def dryMissing (d : Dev) (i : Fin 6) : Bool :=
  let n := dryNo i
  (dryBurners d i).isEmpty || (dryBurners d i).any (brnMissing d) ||
    if i.val < 4 then 63 < pget d kSvcBinFanPin n || 31 < pget d kSvcBinAmbChan n
    else
      63 < pget d kSvcColLiObs n || 63 < pget d kSvcColLiRoll n || 63 < pget d kSvcColRollPin n || 3 < pget d kSvcColDxOut n ||
        31 < pget d kSvcColExhChan n || 63 < pget d kSvcColFullPin n || 63 < pget d kSvcColInlowPin n ||
        63 < pget d kSvcColEmptyPin n || 3 < pget d kSvcColFillChain n || 3 < pget d kSvcColOutChain n ||
        pget d kSvcColRollMin n == 0 || pget d kSvcColRollMax n == 0 || pget d kSvcColHoldKg n == 0 ||
        pget d kSvcColMgPerPulse n == 0 || pget d kSvcColRollMax n < pget d kSvcColRollMin n

/-- An object of an instance is in the wrong mode or a named loop has the wrong shape (R359). -/
def dryWrong (d : Dev) (i : Fin 6) : Bool :=
  let n := dryNo i
  (dryBurners d i).any (brnWrong d) || chainWrong d (dryFill d i) || chainWrong d (dryOut d i) ||
    if i.val < 4 then
      !modeIs d (pget d kSvcBinFanPin n) 4 || !switchOk d (pget d kSvcBinFullPin n) || !switchOk d (pget d kSvcBinEmptyPin n)
    else
      !modeIs d (pget d kSvcColRollPin n) 3 || !switchOk d (pget d kSvcColFullPin n) ||
        !switchOk d (pget d kSvcColInlowPin n) || !switchOk d (pget d kSvcColEmptyPin n) || 1 < loopState d (obsLi d i) ||
        rollWrong d i

/-- An object that failed the self-test is refused to every claim (R494). -/
def objFailed (d : Dev) (objs : List Nat) : Bool :=
  objs.any fun o => if o < 64 then bitOf d.pwr.pinFail o else o < 80 && bitOf d.pwr.vdFail (o - 64)

/-- The refusal of a start of a drying instance (R359); where several hold, the first here (log entry 17). -/
def dryRefusal (d : Dev) (i : Fin 6) : Option Refuse :=
  let objs := dryObjects d i
  firstRefusal [
    (dryRuns i (dryOf d i), refused 0x64),
    (dryMissing d i, refused 0x63),
    (dryWrong d i, refused 0x61),
    ((dryBurners d i).any (brnUnsafe d), refused 0x62),
    (claimClash d (ownerCode (dryKind i) (dryNo i)) objs, refused 0x60),
    (objFailed d objs, refused 0x94),
    (4 ≤ i.val && !ctlAdmits d (obsLi d i) (obsDesc d i), ⟨stAdmission, 0⟩)]

/-- The claims are made: objects, burners and chains (R359). -/
def dryClaim (i : Fin 6) (d : Dev) : Dev :=
  let own := ownerCode (dryKind i) (dryNo i)
  let d := setClaims own (maskOf (dryObjects d i)) d
  let d := forEach (dryBurners d i) (fun b d => brnMod b (fun x =>
    { x with owner := some own, want := false, settleMs := 0, st := if x.st = 4 then 4 else 0,
             gasCount := (vAt d.fio.pin (pget d kSvcBrnGasPin b) Pin.reset).cdCount }) d) d
  forEach ((List.finRange 4).filter fun c => c.val = dryFill d i || c.val = dryOut d i) (fun c d =>
    chainMod c (fun x => { x with owner := some own }) d) d

/-- The first phase of an instance begins (R369, R374). -/
def dryBegin (i : Fin 6) (cdr : Option Nat) (phase cause : Nat) (d : Dev) : Dev :=
  let d := dryClaim i d
  let d := dryMod i (fun x =>
    { x with cdr := cdr, fault := false, obsFault := false, tooHot := false, drop := 0, noMeasMs := 0, susp := false,
             rollCount := (vAt d.fio.pin (pget d kSvcColRollPin (dryNo i)) Pin.reset).cdCount }) d
  let d := if i.val < 4 then d else obsWrite i d
  let d := dryTo i phase cause d
  if i.val < 4 then dryLotOpen i d else d

/-! ## Recipes (R388, R389) -/

/-- The bytes of a recipe slot. -/
def recipeBytes (d : Dev) (slot : Nat) : List Byte := pbytes d kSvcRecipe slot

/-- The records of a recipe for an instance: each names the instance the recipe is applied to. -/
def recipeFor (d : Dev) (slot kind inst : Nat) : Option (List (Nat × List Word)) :=
  if 31 < slot ∨ byteAt (recipeBytes d slot) 4 ≠ kind then none
  else (recipeRecords d (recipeBytes d slot)).map fun rs => rs.map fun r => (addrOf (keyOf r.1) inst, r.2)

/-- The COL parameters whose 0 marks them unset (R395). -/
def unsetKey (key : Nat) : Bool :=
  key == kSvcColRollMin || key == kSvcColRollMax || key == kSvcColHoldKg || key == kSvcColMgPerPulse

/-- The refusal of a recipe's application (R389), with the instance running or not. -/
def recipeRefusal (d : Dev) (slot kind inst : Nat) (running : Bool) : Option Refuse :=
  match recipeFor d slot kind inst with
  | none => some ⟨stIntegrity, 0⟩
  | some rs =>
    firstRefusal [
      (running && rs.any (fun r => match findDef r.1 with
        | some p => p.cls == .staged
        | none => true), ⟨stBusyRunning, 0⟩),
      (rs.any (fun r => match findDef r.1 with
        | some p => !p.ty.isBlob && !inRange p (r.2.headD 0)
        | none => true), ⟨stRange, 0⟩),
      (running && rs.any (fun r => unsetKey (keyOf r.1) && r.2.headD 0 == 0), ⟨stRange, 0⟩)]

/-- A recipe's values apply (R389). -/
def recipeApply (slot kind inst : Nat) (d : Dev) : Dev :=
  match recipeFor d slot kind inst with
  | none => d
  | some rs =>
    let crc := field (recipeBytes d slot) 28 4
    let d := forEach rs (fun r d => setParam r.1 r.2 d) d
    if kind = 4 then
      if h : inst < 2 then watMod ⟨inst, h⟩ (fun w => { w with recipe := slot, recipeCrc := crc }) d else d
    else if kind = 3 then d
    else if h : (if kind = 1 then inst else inst + 4) < 6 then
      dryMod ⟨_, h⟩ (fun x => { x with recipe := slot, recipeCrc := crc }) d
    else d

/-! ## Commands at the step (R396) -/

/-- Completes a command with the tick of the step. -/
def doneTick (c : SvcCmd) (d : Dev) : Dev := completeId c.id 0 0 (tickBytes d) d

/-- Refuses a command at the step. -/
def noStep (c : SvcCmd) (r : Refuse) (d : Dev) : Dev := completeId c.id r.status r.detail [] d

/-- `SVC_ABORT` of a drying instance (R370, R374): burner, fan and chains in one step. -/
def dryAbort (i : Fin 6) (d : Dev) : Dev :=
  let d := burnersOff i d
  let d := if i.val < 4 then pinPut (pget d kSvcBinFanPin i) 0 d else rollStop i d
  let d := chainKill (dryFill d i) (chainKill (dryOut d i) d)
  dryEnd i (if i.val < 4 then 6 else 0) 1 true d

/-- `SVC_NEXT` of a drying instance (R370, R374). -/
def dryNextCmd (i : Fin 6) (c : SvcCmd) (d : Dev) : Dev :=
  let p := (dryOf d i).phase
  if byteAt c.payload 0 != p then noStep c (refused 0x65) d
  else if i.val < 4 then
    if 2 ≤ p ∧ p ≤ 5 then doneTick c (binNext i 1 d) else noStep c (refused 0x65) d
  else if p = 3 then doneTick c (colTo i 4 1 d)
  else noStep c (refused 0x65) d

/-- `SVC_FAULT_CLEAR` of a drying instance (R364, R365, R387): its FAULT, its burners' and its chains'. -/
def dryFaultClear (i : Fin 6) (d : Dev) : Dev :=
  let d := dryMod i (fun x => { x with fault := false, ms := if x.fault && x.phase = 1 then 0 else x.ms }) d
  let d := forEach (dryBurners d i) (fun b d => brnMod b (fun x =>
    { x with fault := false, st := if x.st = 4 then 0 else x.st }) d) d
  chainClear (dryFill d i) (chainClear (dryOut d i) d)

/-- A command of a drying instance at its step. A start is judged with the values of its recipe, which take effect only where it is
not refused (R85, R389). -/
def dryCmd (i : Fin 6) (c : SvcCmd) (d : Dev) : Dev :=
  let k := dryKind i
  let n := dryNo i
  let running := dryRuns i (dryOf d i)
  match c.op with
  | 0x1601 =>
    let slot := byteAt c.payload 0
    if running then noStep c (refused 0x64) d
    else
      let bad := if slot = 0xFF then none else recipeRefusal d slot k n false
      match bad with
      | some r => noStep c r d
      | none =>
        let e := dryMod i (fun x => { x with recipe := 0xFF, recipeCrc := 0 }) d
        let e := if slot = 0xFF then e else recipeApply slot k n e
        match dryRefusal e i with
        | some r => noStep c r d
        | none => doneTick c (dryBegin i (some c.commander) 1 1 e)
  | 0x1602 => doneTick c (dryStop i d)
  | 0x1603 => doneTick c (if running then dryAbort i d else d)
  | 0x1604 => dryNextCmd i c d
  | 0x1607 => doneTick c (dryFaultClear i d)
  | 0x1608 =>
    match recipeRefusal d (byteAt c.payload 0) k n running with
    | some r => noStep c r d
    | none => doneTick c (recipeApply (byteAt c.payload 0) k n d)
  | 0x160C =>
    match (dryOf d i).lot with
    | none => noStep c (refused 0) d
    | some l => if lotsFull d then noStep c (refused 0) d else completeId c.id 0 0 (le 4 l.no) (dryLotClose i false d)
  | _ => noStep c ⟨stRange, 0⟩ d

/-- A WAT instance's lot closes. -/
def watLotClose (i : Fin 2) (d : Dev) : Dev :=
  match (watOf d i).lot with
  | none => d
  | some l =>
    if lotsFull d then watMod i (fun w => { w with closing := true }) d
    else closeLot l 0 false false (watMod i (fun w => { w with closing := false, lot := none }) d)

/-- A WAT instance goes to IDLE (R380, R390). -/
def watEnd (i : Fin 2) (cause : Nat) (d : Dev) : Dev :=
  let d := blockClose i d
  let d := watMod i (fun w => { w with phase := 0, susp := false, held := false, acc := 0, ms := 0, cdr := none }) d
  let d := svcEv 0x6001 4 i (le 1 4 ++ le 1 i ++ le 1 0 ++ le 1 1 ++ le 1 cause) d
  watResume i (setClaims (ownerCode 4 i) 0 (watLotClose i d))

/-- The refusal of a start of a WAT instance (R359, R380, R382). -/
def watRefusal (d : Dev) (i : Fin 2) : Option Refuse :=
  let w := watOf d i
  let objs := watObjects d i
  firstRefusal [
    (w.phase != 0 || w.dose.isSome, refused 0x64),
    (pget d kSvcWatInj i == 0 || pget d kSvcWatFlowSrc i == 0xFFFF || 3 < pget d kSvcWatDx i, refused 0x63),
    ((bitsOf 16 (pget d kSvcWatInj i)).any (fun v => !isPulseMode (pget d kVlvMode v)) ||
      !modeIs d (pget d kSvcWatMeterPin i) 3, refused 0x61),
    (claimClash d (ownerCode 4 i) objs, refused 0x60),
    (objFailed d objs, refused 0x94),
    (w.block.isNone && !blocksFit d (blockUl d i), ⟨stQuota, 0⟩)]

/-- The refusal of `SVC_WATER_DOSE` (R382, R396). -/
def doseRefusal (d : Dev) (i : Fin 2) (ml : Nat) : Option Refuse :=
  let w := watOf d i
  let room := match w.block with
    | some b => b.size - b.ul
    | none => 0
  let need := ceilDiv (ml * 1000 - room) (max (blockUl d i) 1) * blockUl d i
  firstRefusal [
    (w.phase != 0 || w.dose.isSome, refused 0x64),
    (pget d kSvcWatInj i == 0, refused 0x63),
    ((bitsOf 16 (pget d kSvcWatInj i)).any (fun v => !isPulseMode (pget d kVlvMode v)), refused 0x61),
    (need != 0 && !blocksFit d need, ⟨stQuota, 0⟩)]

/-- A command of a WAT instance at its step, a start judged with its recipe as a drying instance's is. -/
def watCmd (i : Fin 2) (c : SvcCmd) (d : Dev) : Dev :=
  let w := watOf d i
  match c.op with
  | 0x1601 =>
    let slot := byteAt c.payload 0
    let bad := if slot = 0xFF then none else recipeRefusal d slot 4 i (w.phase != 0)
    match (if w.phase != 0 then some (refused 0x64) else bad) with
    | some r => noStep c r d
    | none =>
      let e := watMod i (fun w => { w with recipe := 0xFF, recipeCrc := 0 }) d
      let e := if slot = 0xFF then e else recipeApply slot 4 i e
      match watRefusal e i with
      | some r => noStep c r d
      | none =>
        let d := setClaims (ownerCode 4 i) (maskOf (watObjects e i)) e
        let d := watMod i (fun w =>
          { w with phase := 1, susp := false, held := false, acc := 0, ms := 0, cdr := some c.commander, out := [],
                   fails := [] }) d
        let d := svcEv 0x6001 4 i (le 1 4 ++ le 1 i ++ le 1 1 ++ le 1 0 ++ le 1 1) d
        doneTick c (watResume i d)
  | 0x1602 => doneTick c (if w.phase = 0 then d else watEnd i 1 d)
  | 0x1603 => doneTick c (if w.phase = 0 then d else watEnd i 1 d)
  | 0x1604 => noStep c (refused 0x65) d
  | 0x1607 => doneTick c (watMod i (fun w => { w with out := [], fails := [] }) d)
  | 0x1608 =>
    match recipeRefusal d (byteAt c.payload 0) 4 i (w.phase != 0) with
    | some r => noStep c r d
    | none => doneTick c (recipeApply (byteAt c.payload 0) 4 i d)
  | 0x1609 =>
    let ml := field c.payload 0 4
    match doseRefusal d i ml with
    | some r => noStep c r d
    | none =>
      begin_ c.id (watMod i (fun w =>
        { w with dose := some { cmd := c.id, left := (ml * 1000 : Nat), charged := 0 }, acc := 0, out := [], fails := [] }) d)
  | 0x160B =>
    if w.lot.isSome && lotsFull d then noStep c (refused 0) d
    else
      let d := watLotClose i d
      let r := openLot 4 i 0 0 w.recipe w.recipeCrc 0 d
      completeId c.id 0 0 (le 4 r.1.no) (watMod i (fun w => { w with lot := some r.1, closing := false }) r.2)
  | 0x160C =>
    match w.lot with
    | none => noStep c (refused 0) d
    | some l => if lotsFull d then noStep c (refused 0) d else completeId c.id 0 0 (le 4 l.no) (watLotClose i d)
  | _ => noStep c ⟨stRange, 0⟩ d

/-- A command of an aeration bin (R389, R396): `SVC_RECIPE_LOAD`, with aeration that is off as the IDLE of R389. -/
def aerCmd (b : Fin 12) (c : SvcCmd) (d : Dev) : Dev :=
  if c.op = 0x1608 then
    match recipeRefusal d (byteAt c.payload 0) 3 b (pget d kSvcAerEnable b != 0) with
    | some r => noStep c r d
    | none => doneTick c (recipeApply (byteAt c.payload 0) 3 b d)
  else noStep c ⟨stRange, 0⟩ d

/-- `SVC_FAULT_CLEAR` of a conveyor or a burner; no other command of the step acts on them. -/
def otherCmd (c : SvcCmd) (d : Dev) : Dev :=
  if c.op = 0x1607 ∧ c.kind = 5 then doneTick c (chainClear (pget d kSvcCnvChain c.inst) d)
  else if h : c.inst < 4 then
    if c.op = 0x1607 ∧ c.kind = 6 then
      doneTick c (brnMod ⟨c.inst, h⟩ (fun x => { x with fault := false, st := if x.st = 4 then 0 else x.st }) d)
    else noStep c ⟨stRange, 0⟩ d
  else noStep c ⟨stRange, 0⟩ d

/-- The commands taken for an instance since the previous step, in the order in which they were taken (R358). -/
def cmdsFor (kind inst : Nat) (f : SvcCmd → Dev → Dev) (d : Dev) : Dev :=
  let mine := d.svc.cmds.filter fun c => c.kind = kind && c.inst = inst
  forEach mine (fun c d => match liveCmd d c.id with
    | some x => if x.phase = .done then d else f c d
    | none => d)
    { d with svc := { d.svc with cmds := d.svc.cmds.filter fun c => !(c.kind = kind && c.inst = inst) } }

/-! ## The service step (R358) -/

/-- A WAT instance's commander falls silent (R393). -/
def watSilence (i : Fin 2) (d : Dev) : Dev :=
  let w := watOf d i
  if w.phase = 0 || !cdrSilent d w.cdr then watMod i (fun w => { w with held := false }) d
  else match pget d kSvcHostSilenceAct 0 with
    | 1 => watMod i (fun w => { w with held := true }) d
    | 2 => watEnd i 1 d
    | _ => watMod i (fun w => { w with held := false }) d

/-- A service step takes place once, at a TICK edge whose number is a multiple of 100 (R358). -/
def stepDue (d : Dev) : Bool := d.time.running && d.time.tick % 100 == 0 && d.svc.lastStep != some d.time.tick

/-- A service step: each instance in ascending kind and number acts on its commands, takes at most one transition and
writes its outputs (R358). -/
def serviceStep (d : Dev) : Dev :=
  let d := { d with svc := { d.svc with
    lastStep := some d.time.tick, steps := d.svc.steps + 1, valsOld := d.svc.vals } }
  let d := boundary (fun _ d => d) (fun w => w.bnd == .svcStep) d
  let d := pulseEndsTake (dayStep (ambSample d))
  let d := forEach (List.finRange 6) (fun i d =>
    dryStep i (dryOf d i).phase (cmdsFor (dryKind i) (dryNo i) (dryCmd i) d)) d
  let d := loopValues d
  let d := forEach (List.finRange 12) (fun b d => aerStep b (cmdsFor 3 b (aerCmd b) d)) d
  let d := forEach (List.finRange 2) (fun i d =>
    let d := cmdsFor 4 i (watCmd i) d
    let d := if (watOf d i).closing then watLotClose i d else d
    watStep i (watSilence i d)) d
  let d := cnvStep (forEach (List.finRange 16) (fun n d => cmdsFor 5 n otherCmd d) d)
  forEach (List.finRange 4) (fun b d => brnStep b (cmdsFor 6 b otherCmd d)) d

/-- Every running instance writes its resume record (R394). -/
def resumeRecords (d : Dev) : Dev :=
  let d := forEach (List.finRange 6) (fun i d => if dryRuns i (dryOf d i) then dryResume i d else d) d
  forEach (List.finRange 2) (fun i d => if (watOf d i).phase != 0 then watResume i d else d) d

/-! ## Suspension (R391) -/

/-- EV_SVC_SUSPEND. -/
def suspEv (kind inst what : Nat) (d : Dev) : Dev := svcEv 0x6002 kind inst (le 1 kind ++ le 1 inst ++ le 1 what) d

/-- A stop of the objects of a mask (R120) concerns an instance that names one of them; a stop of all of them concerns every
instance (R391, R130). -/
def stopMeets (m : Nat) (objs : List Nat) : Bool := m == 2 ^ 80 - 1 || objs.any fun k => k < 80 && bitOf m k

/-- A Snowplough stop or step F4: every running instance sets SUSPENDED, burners go to OFF, conveyors stop, the water
accumulators are cleared and open blocks close (R391). -/
def svcSuspend (m : Nat) (d : Dev) : Dev :=
  let d := forEach (List.finRange 6) (fun i d =>
    let x := dryOf d i
    if !dryRuns i x || x.susp || !stopMeets m (dryObjects d i) then d
    else
      let d := suspEv (dryKind i) (dryNo i) 0 (dryMod i (fun x => { x with susp := true }) d)
      let d := burnersOff i d
      forEach (chainLine d (dryFill d i) ++ chainLine d (dryOut d i)) convOff d) d
  let d := forEach (List.finRange 12) (fun b d =>
    if pget d kSvcAerEnable b = 0 || (aerOf d b).susp || !stopMeets m (obPin (pget d kSvcAerFanPin b)) then d
    else
      let was := (aerOf d b).fan
      let d := suspEv 3 b 0 (aerMod b (fun x =>
        { x with susp := true, want := false, suitSince := none, failSince := none }) d)
      if was then aerFan b false d else d) d
  forEach ((List.finRange 2).filter fun i => stopMeets m (watObjects d i)) (fun i d =>
    let d := blockClose i (watMod i (fun w => { w with acc := 0 }) d)
    if ((watOf d i).phase = 0 && (watOf d i).dose.isNone) || (watOf d i).susp then d
    else suspEv 4 i 0 (watMod i (fun w => { w with susp := true }) d)) d

/-- Some pin or valve channel of a list of objects is in its safe state. -/
def objsSafe (d : Dev) (objs : List Nat) : Bool :=
  objs.any fun o => if o < 64 then (vAt d.fio.pin o Pin.reset).safe else o < 80 && (vAt d.vlv.ch (o - 64) VlvCh.reset).safe

/-- After a RELEASE and its APPLY: SUSPENDED clears for every instance none of whose objects is in its safe state; air that
suits a bin starts its `SVC_AER_ON_MIN` anew (R391). -/
def svcUnsuspend (d : Dev) : Dev :=
  let d := forEach (List.finRange 6) (fun i d =>
    if (dryOf d i).susp && !objsSafe d (dryObjects d i) then
      suspEv (dryKind i) (dryNo i) 1 (dryMod i (fun x => { x with susp := false }) d)
    else d) d
  let d := forEach (List.finRange 12) (fun b d =>
    if (aerOf d b).susp && !objsSafe d (obPin (pget d kSvcAerFanPin b)) then
      suspEv 3 b 1 (aerMod b (fun x => { x with susp := false, want := false, suitSince := none, failSince := none }) d)
    else d) d
  forEach (List.finRange 2) (fun i d =>
    if (watOf d i).susp && !objsSafe d (watObjects d i) then suspEv 4 i 1 (watMod i (fun w => { w with susp := false }) d)
    else d) d

/-! ## Resets and boot (R394) -/

/-- The services after a power loss (`loss`) or another control-die reset: what data flash holds stays; open blocks are charged in full
(R381, R394, R564). -/
def svcAfterReset (loss : Bool) (o : SvcSt) : SvcSt :=
  let blocks := o.wat.toList.foldl (fun a w => a + match w.block with
    | some b => b.size
    | none => 0) 0
  { SvcSt.reset with
    ledger := { o.ledger with used := o.ledger.used + blocks, total := o.ledger.total + blocks, lastTick := 0,
                              flags := o.ledger.flags ||| (16 * b2n loss) }
    lotNext := o.lotNext
    closed := o.closed
    resume := o.resume }

/-- Lots left open are closed at boot and marked interrupted (R394). -/
def closeLeft (d : Dev) : Dev :=
  let left := d.svc.resume.filterMap (·.lot)
  let waiting := d.svc.closed
  let d := { d with svc := { d.svc with
    closed := []
    resume := d.svc.resume.map fun r => { r with lot := none } } }
  forEach (waiting.filter (fun l => !(left.any fun k => k.no = l.no)) ++ left) (fun l d =>
    closeLot { l with flags := l.flags ||| 2, closeBib := none } (l.energyBase + l.energy) false true d) d

/-- The phase an instance resumes in (R394). -/
def resumePhase (kind phase : Nat) : Nat := if (phase = 2 ∨ phase = 3) then 2 else if kind = 0 then 0 else phase

/-- A drying instance resumes at boot with autostart (R394): claims, a new lot, EV_SVC_RESUMED_BOOT. -/
def dryResumeBoot (i : Fin 6) (r : Resume) (d : Dev) : Dev :=
  let d := dryMod i (fun x => { x with recipe := r.recipe }) d
  if !dryRuns i { Dry.reset with phase := r.phase } || (dryRefusal d i).isSome then d
  else
    let p := resumePhase (dryKind i) r.phase
    let d := dryBegin i none p 4 d
    let d := dryLotOpen i d
    let d := dryMod i (fun x => { x with dryMs := if i.val < 4 then r.dryMs else 0 }) d
    svcEv 0x6011 (dryKind i) (dryNo i) (le 1 (dryKind i) ++ le 1 (dryNo i) ++ le 1 p) d

/-- The services at boot (R394): lots left open are closed; with `SVC_RESUME_ON_BOOT` and autostart the drying services
resume. -/
def svcBoot (autostart : Bool) (d : Dev) : Dev :=
  let rs := d.svc.resume
  let d := closeLeft d
  if autostart && pget d kSvcResumeOnBoot 0 = 1 then
    forEach (List.finRange 6) (fun i d =>
      match rs.find? fun r => r.inst = ownerCode (dryKind i) (dryNo i) with
      | some r => dryResumeBoot i r d
      | none => d) d
  else d

/-! ## Reads and checks -/

/-- The number of instances of a kind (R357). -/
def kindCount (kind : Nat) : Nat := [0, 4, 2, 12, 2, 16, 4].getD kind 0

/-- `SVC_STATE` of any instance (R361): phase, SUSPENDED, FAULT, HELD; of a burner its state, of a conveyor 0 stopped,
1 starting, 2 proven (log entry 18). -/
def svcState (d : Dev) (kind inst : Nat) : Nat :=
  match kind with
  | 1 => dryState (vAt d.svc.dry inst Dry.reset)
  | 2 => dryState (vAt d.svc.dry (inst + 4) Dry.reset)
  | 3 => if h : inst < 12 then aerState d ⟨inst, h⟩ else 0
  | 4 => watState (vAt d.svc.wat inst Water.reset)
  | 5 =>
    let c := vAt d.svc.cnv inst Conv.reset
    (if c.proven then 2 else if c.on then 1 else 0) + 512 * b2n c.fault
  | _ =>
    let b := vAt d.svc.brn inst Burner.reset
    b.st + 512 * b2n b.fault

/-- READ parameters of the services (R395). -/
def svcRead (d : Dev) (addr : Nat) : List Word :=
  let key := keyOf addr
  if key = kSvcLotNext then [w32 d.svc.lotNext]
  else if key = kSvcLedgerUsedMl then [w32 (ledgerUsed d / 1000)]
  else if key = kSvcBinState then [w32 (svcState d 1 (instOf addr))]
  else if key = kSvcColState then [w32 (svcState d 2 (instOf addr))]
  else [w32 (svcState d 3 (instOf addr))]

/-- The instance of a STAGED object parameter is neither IDLE nor DONE (R359). -/
def svcBusy (d : Dev) (addr : Nat) : Bool :=
  let key := keyOf addr
  let n := instOf addr
  match svcKindOf key with
  | 1 => if h : n < 6 then n < 4 && dryRuns ⟨n, h⟩ (dryOf d ⟨n, h⟩) else false
  | 2 => (vAt d.svc.dry (n + 4) Dry.reset).phase != 0
  | 3 => if 0x6380 ≤ key then (List.range 12).any fun b => pget d kSvcAerEnable b != 0 else pget d kSvcAerEnable n != 0
  | 4 => (vAt d.svc.wat n Water.reset).phase != 0
  | 5 => (vAt d.svc.cnv n Conv.reset).on ||
      (List.finRange 6).any fun i =>
        dryRuns i (dryOf d i) && (dryFill d i == pget d kSvcCnvChain n || dryOut d i == pget d kSvcCnvChain n)
  | 6 => (vAt d.svc.brn n Burner.reset).owner.isSome
  | _ => false

/-- The refusals of this chapter for a parameter write, beyond class and range (R388, R391, R395). -/
def svcCheck (d : Dev) (addr : Nat) (ws : List Word) : Option Refuse :=
  let key := keyOf addr
  if unsetKey key then
    firstRefusal [(ws.headD 0 == 0 && (vAt d.svc.dry (instOf addr + 4) Dry.reset).phase != 0, ⟨stRange, 0⟩)]
  else if key = kSvcRecipe then
    firstRefusal [
      (3 ≤ d.pwr.lStep, ⟨stShed, 0⟩),
      ((recipeRecords d (bytesOf ws)).isNone && field (bytesOf ws) 0 4 != 0, ⟨stIntegrity, 0⟩)]
  else none

/-- Every service value a descriptor names exists (R360). -/
def descValues (b : List Byte) : Bool :=
  (List.range (dP b)).all (fun j => wSrc (dIn b j) != 6 || svcNumOk (wObj (dIn b j))) &&
    (List.range (dM b)).all (fun o => wSrc (dOut b o) != 4 || svcNumOk (wObj (dOut b o))) &&
      (List.range (dQ b)).all (fun j => wSrc (dRef b j) != 2 || svcNumOk (wObj (dRef b j)))

/-! ## Command rows -/

/-- Kind and instance of a command's TARGET (R396). -/
def svcKind (c : Cmd) : Nat := c.target / 256 % 256
def svcInst (c : Cmd) : Nat := c.target % 256

/-- A command of group 0x16 that acts at the next service step (R358). -/
def svcQueue (c : Cmd) (d : Dev) : Dev :=
  if svcInst c < kindCount (svcKind c) then
    waitOn c.id { d with svc := { d.svc with cmds := d.svc.cmds ++
      [{ id := c.id, op := c.opcode, kind := svcKind c, inst := svcInst c, payload := c.payload,
         commander := c.commander }] } }
  else refuse c ⟨stRange, 0⟩ d

/-- Phase time in s and lot of an instance. -/
def svcTimes (d : Dev) (kind inst : Nat) : Nat × Nat :=
  let lotNo : Option Lot → Nat := fun l => match l with
    | some l => l.no
    | none => 0
  match kind with
  | 1 => let x := vAt d.svc.dry inst Dry.reset; (x.ms / 1000, lotNo x.lot)
  | 2 => let x := vAt d.svc.dry (inst + 4) Dry.reset; (x.ms / 1000, lotNo x.lot)
  | 4 => let w := vAt d.svc.wat inst Water.reset; (w.ms / 1000, lotNo w.lot)
  | 5 => ((vAt d.svc.cnv inst Conv.reset).ms / 1000, 0)
  | 6 => ((vAt d.svc.brn inst Burner.reset).ms / 1000, 0)
  | _ => (0, 0)

/-- `SVC_READ` (R396). The data by kind has no layout in the spec: it is a free value (log entry 4). -/
def cmdSvcRead (c : Cmd) (d : Dev) : Dev :=
  let k := svcKind c
  let n := svcInst c
  let sel := byteAt c.payload 0
  if kindCount k ≤ n ∨ 1 < sel then refuse c ⟨stRange, 0⟩ d
  else
    let rest := le 4 (Config.freeWord d.free).toNat ++ le 4 (Config.freeWord (d.free + 1)).toNat
    let d := takeFree (takeFree d)
    if sel = 0 then
      let t := svcTimes d k n
      complete c 0 0 (le 4 (svcState d k n) ++ le 4 t.1 ++ le 4 t.2 ++ rest) d
    else match d.svc.resume.find? fun r => r.inst = ownerCode k n with
      | some r => complete c 0 0 (le 4 r.state ++ le 4 (r.ms / 1000) ++ le 4 (match r.lot with
          | some l => l.no
          | none => 0) ++ rest) d
      | none => complete c 0 0 (le 4 0 ++ le 4 0 ++ le 4 0 ++ rest) d

/-- `SVC_LEDGER_READ` (R383): a flash command, which completes when its flash operation does (R87). -/
def cmdLedgerRead (c : Cmd) (d : Dev) : Dev :=
  let back := field c.payload 0 2
  let part := byteAt c.payload 2
  if 1 < part then refuse c ⟨stRange, 0⟩ d
  else match d.svc.ledger.records[back]? with
    | none => refuse c ⟨stRange, 0⟩ d
    | some r =>
      let bytes := if part = 0 then r.take 20 else r.drop 20
      queueFlash c 0 0 bytes none d

def execWaterBlockJournalled (i : Fin 2) (s : State) := quiet (blockJournalled i) s
def execAerEvaluation (s : State) := quiet aerEvaluation s
def execResumeRecord (s : State) := quiet resumeRecords s
def execSvcStart (c : CmdId) (s : State) := quiet (withCmd 0x1601 c svcQueue) s
def execSvcStop (c : CmdId) (s : State) := quiet (withCmd 0x1602 c svcQueue) s
def execSvcAbort (c : CmdId) (s : State) := quiet (withCmd 0x1603 c svcQueue) s
def execSvcNext (c : CmdId) (s : State) := quiet (withCmd 0x1604 c svcQueue) s
def execSvcRead (c : CmdId) (s : State) := quiet (withCmd 0x1605 c cmdSvcRead) s
def execSvcFaultClear (c : CmdId) (s : State) := quiet (withCmd 0x1607 c svcQueue) s
def execSvcRecipeLoad (c : CmdId) (s : State) := quiet (withCmd 0x1608 c svcQueue) s
def execSvcWaterDose (c : CmdId) (s : State) := quiet (withCmd 0x1609 c svcQueue) s
def execSvcLedgerRead (c : CmdId) (s : State) := quiet (withCmd 0x160A c (flashTurn cmdLedgerRead)) s
def execSvcLotOpen (c : CmdId) (s : State) := quiet (withCmd 0x160B c svcQueue) s
def execSvcLotClose (c : CmdId) (s : State) := quiet (withCmd 0x160C c svcQueue) s

end Sys2Proof.Machine
end

