-- ==== Sys2Proof/Machine/Bus.lean ====
section
/-!
DEFINITION. Machine/Bus.lean: the message bus (10): frames and filters, transmission, fault confinement, rate detection,
the Piste matrix and its time masters, the roster, the remote mailbox, and the bus commands.
-/
namespace Sys2Proof.Machine

/-! ## Channels -/

/-- Changes a channel. -/
def busMod (ch : Fin 2) (f : BusCh → BusCh) (d : Dev) : Dev := { d with bus := { d.bus with ch := vMod d.bus.ch ch f } }

/-- A channel. -/
def busCh (d : Dev) (ch : Fin 2) : BusCh := d.bus.ch.get ch

/-- Changes the time service of a channel. -/
def ttMod (ch : Fin 2) (f : TtSt → TtSt) (d : Dev) : Dev := busMod ch (fun c => { c with tt := f c.tt }) d

/-- `BUS_MODE` in force (R401). -/
def busMode (d : Dev) (ch : Fin 2) : Nat := pget d kBusMode ch

/-- The controllers and the transceivers run: D4 and D7 are ON, and the device is not in limp mode (R486, R497). -/
def busRuns (d : Dev) : Bool := domOn d 4 && domOn d 7 && !d.host.limp

/-- Counts one in a place of `BUS_STATS`. -/
def busStat (ch : Fin 2) (k : Fin 8) (d : Dev) : Dev :=
  busMod ch (fun c => { c with stats := vMod c.stats k fun n => (n + 1) % 2 ^ 32 }) d

/-- PATH of a bus channel, and of a roster role (R96; log entry 19). -/
def busPath (ch : Fin 2) : Nat := chanPath 7 0xFF ch
def rolePath (r : Nat) : Nat := mkPath 7 3 (0xFFFF00 + r)

/-- Raises a bus event of a channel on port 4 (R438). -/
def busRaise (code : Nat) (ch : Fin 2) (data : List Byte) (d : Dev) : Dev := raise 4 code (busPath ch) (le 1 ch ++ data) d

/-- An unsigned count that saturates at 255. -/
def sat8 (n : Nat) : Nat := if 255 < n then 255 else n

/-- Counters in the events 0x7001 to 0x7003. -/
def busErrData (c : BusCh) : List Byte := le 1 (sat8 c.tec) ++ le 1 (sat8 c.rec_)

/-- `BUS_STATE` (R436). -/
def busState (c : BusCh) : Nat :=
  sat8 c.tec + sat8 c.rec_ * 256 + (if c.down then 3 else c.flt) * 65536
    + b2n (96 ≤ c.tec || 96 ≤ c.rec_) * 2 ^ 18 + b2n c.noAck * 2 ^ 19 + c.tt.state * 2 ^ 20 + sat8 c.offs * 2 ^ 24

/-- The last bib admitted (R40). -/
def lastBib (d : Dev) : Nat := d.gate.bib.toNat

/-- DT in fs at a start-of-frame sample point some PCLK periods ago (R400). -/
def sofFs (d : Dev) (ago : Nat) : Int := d.time.dtFs - (ago : Int) * 12500000

/-- The same in ns, as 64 bits. -/
def sofNs (d : Dev) (ago : Nat) : Nat := toBits 64 (sofFs d ago / 1000000)

/-- POS of R408. -/
def busPos (d : Dev) (ch : Fin 2) : Nat :=
  let t := (busCh d ch).tt
  if busMode d ch = 3 then t.cycle % 64 * 256 + t.col % 32 else 0xFFFF

/-- ID of R408. -/
def idWord (id : Nat) (xtd fdf brs : Bool) : Nat :=
  id % 2 ^ 29 + b2n xtd * 2 ^ 29 + b2n fdf * 2 ^ 30 + b2n brs * 2 ^ 31

/-- The identifier of a frame; a base identifier has 11 bits (R405). -/
def fid (id : Nat) (xtd : Bool) : Nat := if xtd then id % 2 ^ 29 else id % 2 ^ 11

/-- Data bytes of a DLC (R398): up to 8 in a classical frame, up to 64 in an FD frame. -/
def dlcBytes (fdf : Bool) (dlc : Nat) : Nat :=
  if fdf then [0, 1, 2, 3, 4, 5, 6, 7, 8, 12, 16, 20, 24, 32, 48, 64].getD dlc 0
  else if dlc < 8 then dlc else 8

/-- The arbitration field as a number; the lower wins (R411). -/
def arbKey (m : TxMsg) : Nat :=
  if m.xtd then fld m.id 18 11 * 2 ^ 21 + 3 * 2 ^ 19 + m.id % 2 ^ 18 * 2 + b2n m.rtr
  else m.id % 2 ^ 11 * 2 ^ 21 + b2n m.rtr * 2 ^ 20

/-! ## Bit timing (R399) and frame lengths (R413) -/

/-- Bit timing of a rate in kbit/s and a sample point in 0.1 % (R399): the smallest prescaler that gives at most 80 quanta
per bit of PCLK at 80 MHz, the quanta of a bit, and the quantum of the sample point, the earlier of two equally near. The
quanta after it are phase segment 2 and the synchronisation jump width. -/
def bitTiming (kbps sp : Nat) : Nat × Nat × Nat :=
  let clocks := 80000 / kbps
  let pre := ceilDiv clocks 80
  let quanta := clocks / pre
  (pre, quanta, (2 * quanta * sp + 999) / 2000)

/-- Bit timing of a channel's arbitration phase and of its data phase. -/
def nomTiming (d : Dev) (ch : Fin 2) : Nat × Nat × Nat := bitTiming (pget d kBusNomKbps ch) (pget d kBusNomSp ch)
def dataTiming (d : Dev) (ch : Fin 2) : Nat × Nat × Nat := bitTiming (pget d kBusDataKbps ch) (pget d kBusDataSp ch)

/-- Worst-case length of a frame in ns. The spec gives no figure for an FD frame, whose data phase lasts from one sample point
to another: a constant of Config of both bit timings (log entry 3). -/
def frameNs (d : Dev) (ch : Fin 2) (xtd fdf brs : Bool) (dlc : Nat) : Nat :=
  let nom := pget d kBusNomKbps ch
  if fdf then Config.fdFrameNs xtd brs dlc (nomTiming d ch) (dataTiming d ch)
  else
    let n := dlcBytes false dlc
    let bits := if xtd then 67 + 8 * n + (53 + 8 * n) / 4 else 47 + 8 * n + (33 + 8 * n) / 4
    bits * 1000000 / nom

/-! ## The Piste matrix (R419-R421) -/

/-- Bytes of `BUS_PISTE` as it stands. -/
def piste (d : Dev) (ch : Fin 2) : List Byte := pbytes d kBusPiste ch

/-- CYCLE_US, CYCLES and COLUMNS. -/
def cycleUs (p : List Byte) : Nat := field p 0 4
def pisteCycles (p : List Byte) : Nat := byteAt p 4
def pisteColumns (p : List Byte) : Nat := byteAt p 5

/-- The time mark of a column in µs. -/
def timeMark (p : List Byte) (c : Nat) : Nat := field p (16 + 4 * c) 4

/-- A trigger of the matrix: column, type, base cycle, repeat and scheduled object. -/
structure Trigger where
  col : Nat
  kind : Nat
  base : Nat
  rep : Nat
  smo : Nat

/-- The triggers of a matrix. -/
def triggers (p : List Byte) : List Trigger :=
  (List.range (min 64 (byteAt p 8 + 256 * byteAt p 9))).map fun t =>
    let b := byteAt p (145 + 4 * t)
    { col := byteAt p (144 + 4 * t), kind := b / 64, base := b % 64, rep := byteAt p (146 + 4 * t),
      smo := byteAt p (147 + 4 * t) }

/-- The trigger that covers a cell. -/
def cellOf (p : List Byte) (col cycle : Nat) : Option Trigger :=
  (triggers p).find? fun t => t.col == col && t.rep != 0 && cycle % t.rep == t.base

/-- The window of a column's cell in ns: to the next mark or the cycle's end. -/
def windowNs (p : List Byte) (c : Nat) : Nat :=
  let e := if c + 1 < pisteColumns p then timeMark p (c + 1) else cycleUs p
  (e - timeMark p c) * 1000

/-- Two triggers cover one cell: same column and meeting base cycles. -/
def cellsMeet (a b : Trigger) : Bool :=
  a.col == b.col && (let m := min a.rep b.rep; m != 0 && a.base % m == b.base % m)

/-- No two elements of a list are in a relation. -/
def pairsFree {α : Type} (r : α → α → Bool) : List α → Bool
  | [] => true
  | x :: xs => !(xs.any (r x)) && pairsFree r xs

/-- Bytes of a scheduled object as last written: a value that still waits for its transmission counts. -/
def smoBytes (d : Dev) (ch : Fin 2) (k : Nat) : List Byte :=
  let addr := addrOf kBusSmo (32 * ch + k)
  match d.cmd.waits.reverse.find? fun w => w.addr = addr with
  | some w => bytesOf w.words
  | none => pbytes d kBusSmo (32 * ch + k)

/-- The message of a scheduled object's bytes (R420). -/
def smoMsg (b : List Byte) : TxMsg :=
  let id := field b 0 4
  let fdf := bitOf id 30
  let dlc := byteAt b 4 % 16
  { id := fid id (bitOf id 29), xtd := bitOf id 29, fdf := fdf, brs := bitOf id 31, rtr := bitOf (byteAt b 5) 1,
    dlc := dlc, data := (b.drop 8).take (dlcBytes fdf dlc) }

/-- Worst-case length of a message. -/
def msgNs (d : Dev) (ch : Fin 2) (m : TxMsg) : Nat := frameNs d ch m.xtd m.fdf m.brs m.dlc

/-- TX_EN in ns. -/
def txEnNs (d : Dev) (ch : Fin 2) (p : List Byte) : Nat := byteAt p 6 * 1000000 / pget d kBusNomKbps ch

/-- A matrix is valid: every range of R419 and none of its refusals. -/
def pisteOk (d : Dev) (ch : Fin 2) (p : List Byte) : Bool :=
  let us := cycleUs p
  let cyc := pisteCycles p
  let cols := pisteColumns p
  let ts := triggers p
  let info := byteAt p 7
  500 ≤ us && us ≤ 1000000 && 1000000 % us == 0 &&
  [1, 2, 4, 8, 16, 32, 64].any (fun n => n == cyc) &&
  1 ≤ cols && cols ≤ 32 && 1 ≤ byteAt p 6 && byteAt p 6 ≤ 16 &&
  (info < 32 || info == 255) && field p 8 2 ≤ 64 && field p 10 6 == 0 &&
  ((List.range cols).all fun c => timeMark p c < us && (c == 0 || timeMark p (c - 1) < timeMark p c)) &&
  ts.all (fun t =>
    t.col < cols && (t.kind == 1 || t.kind == 2) && [1, 2, 4, 8, 16, 32, 64].any (fun n => n == t.rep) &&
    t.rep ≤ cyc && t.base < t.rep && (if t.kind == 1 then decide (t.smo < 32) else t.smo == 0)) &&
  pairsFree cellsMeet ts &&
  frameNs d ch false false false 8 ≤ timeMark p 0 * 1000 &&
  (info == 255 || (info < cols && (cellOf p info 0).isNone)) &&
  ts.all (fun t => t.kind != 1 ||
    txEnNs d ch p + msgNs d ch (smoMsg (smoBytes d ch t.smo)) ≤ windowNs p t.col)

/-! ## Frames of the device's own (R413) -/

/-- A classical base frame. -/
def classical (id : Nat) (data : List Byte) : TxMsg :=
  { id := id % 2 ^ 11, xtd := false, fdf := false, brs := false, rtr := false, dlc := data.length, data := data }

/-- The DLC that holds a number of bytes in an FD frame. -/
def fdDlc (n : Nat) : Nat :=
  if n ≤ 8 then n
  else if n ≤ 12 then 9 else if n ≤ 16 then 10 else if n ≤ 20 then 11 else if n ≤ 24 then 12
  else if n ≤ 32 then 13 else if n ≤ 48 then 14 else 15

/-- An FD base frame, sent with the bit-rate switch (log entry 20). -/
def fdFrame (id : Nat) (data : List Byte) : TxMsg :=
  { id := id % 2 ^ 11, xtd := false, fdf := true, brs := true, rtr := false, dlc := fdDlc data.length, data := data }

/-- Hands a frame of the device's own to a channel; the first 16 hold the internal buffers and the rest waits. -/
def sendInner (ch : Fin 2) (user : Nat) (m : TxMsg) (d : Dev) : Dev :=
  busMod ch (fun c => { c with inner := c.inner ++ [{ user := user, msg := m, head := false }] }) d

/-! ## Transmit entries (R409-R412, R416) -/

/-- The transmit ring of a channel (R71). -/
def txRing (ch : Fin 2) : Nat := 12 + 2 * ch

/-- Entries taken and not yet completed (R410). -/
def outstanding (c : BusCh) : List TxEntry := c.txq.filter fun e => !e.done

/-- Bytes 96-127 of a transmit entry (R409). -/
def txResult (d : Dev) (ch : Fin 2) (e : TxEntry) (status detail dt : Nat) : List Byte :=
  le 1 status ++ le 1 detail ++ le 2 e.attempts ++ le 8 dt ++ le 4 (lastBib d) ++ le 2 (timeWord d)
    ++ le 2 (busPos d ch) ++ List.replicate 12 0

/-- Completes an entry: its STATUS is written, and `Q_AUX` moves past every entry of the ring that is complete together
with all before it (R410). -/
def txComplete (ch : Fin 2) (e : TxEntry) (status detail dt : Nat) (d : Dev) : Dev :=
  let q := txRing ch
  let d := emit (.part q e.idx 96 (txResult d ch e status detail dt)) d
  let all := (busCh d ch).txq.map fun x => if x.idx = e.idx then { x with done := true } else x
  let front := all.takeWhile fun x => x.done
  let d := busMod ch (fun c => { c with txq := all.drop front.length }) d
  irqCheck q (ringMod q (fun r => { r with aux := (r.aux + front.length) % 65536 }) d)

/-- Completes every outstanding one-shot entry with ST_BUSOFF and a detail (R402, R403, R416). -/
def failOneShots (ch : Fin 2) (detail : Nat) (d : Dev) : Dev :=
  forEach ((outstanding (busCh d ch)).filter fun e => e.oneShot) (fun e d => txComplete ch e 0x12 detail e.dt d) d

/-- A transmit entry's host bytes break R409. -/
def txBad (d : Dev) (ch : Fin 2) (b : List Byte) : Bool :=
  let id := field b 0 4
  let fdf := bitOf id 30
  15 < byteAt b 4 || 3 < byteAt b 5 || field b 8 8 != 0 || field b 80 16 != 0 ||
    (bitOf id 31 && !fdf) || (bitOf (byteAt b 5) 1 && fdf) || (fdf && pget d kBusDataKbps ch == 0) ||
    (8 < byteAt b 4 && !fdf)

/-- The entry of the host's bytes at a ring index. -/
def txEntry (idx : Nat) (b : List Byte) : TxEntry :=
  let id := field b 0 4
  let fdf := bitOf id 30
  let dlc := byteAt b 4 % 16
  { idx := idx
    msg := { id := fid id (bitOf id 29), xtd := bitOf id 29, fdf := fdf, brs := bitOf id 31,
             rtr := bitOf (byteAt b 5) 1, dlc := dlc, data := (b.drop 16).take (dlcBytes fdf dlc) }
    oneShot := bitOf (byteAt b 5) 0, attempts := 0, dt := 0, head := false, skip := false, done := false }

/-- Takes a transmit entry whose host bytes are `b` (R409, R410, R416): a bad one completes with ST_RANGE, and a one-shot
entry taken in bus-off or without transceiver power completes at once. -/
def txTake (ch : Fin 2) (b : List Byte) (d : Dev) : Dev :=
  let q := txRing ch
  let r := ringOf d q
  let c := busCh d ch
  if r.en && r.head != r.tail && (outstanding c).length < 64 && (busMode d ch == 1 || busMode d ch == 3) then
    let e := txEntry r.head b
    let d := ringMod q (fun r => { r with head := (r.head + 1) % 65536 }) d
    let d := busMod ch (fun c => { c with txq := c.txq ++ [e] }) d
    if txBad d ch b then txComplete ch e 0x03 0 0 d
    else if c.down && e.oneShot then txComplete ch e 0x12 2 0 d
    else if c.flt == 2 && e.oneShot then txComplete ch e 0x12 0 0 d
    else d
  else d

/-! ## Error counters (R414-R418) -/

/-- The state that the counters give. -/
def errState (tec rec_ : Nat) : Nat := if 255 < tec then 2 else if 127 < tec || 127 < rec_ then 1 else 0

/-- Moves the counters and raises what that crosses: the warning, error passive and the return to active (R414). -/
def moveCounters (ch : Fin 2) (tec rec_ : Nat) (d : Dev) : Dev :=
  let c := busCh d ch
  let n := { c with tec := tec, rec_ := rec_, flt := errState tec rec_ }
  let data := busErrData n
  let d := busMod ch (fun _ => n) d
  let d := when ((c.tec < 96 && 96 ≤ tec) || (c.rec_ < 96 && 96 ≤ rec_)) (busRaise 0x7001 ch data) d
  let d := when (c.flt == 0 && 1 ≤ n.flt) (busRaise 0x7002 ch data) d
  when (c.flt == 1 && n.flt == 0) (busRaise 0x7003 ch data) d

/-- The counters after a good reception (ISO 11898-1, R414): down by 1; from above 127 to a value from 119 to 127 that
the standard leaves to the node (log entry 4). -/
def goodRx (ch : Fin 2) (d : Dev) : Dev :=
  let c := busCh d ch
  if 127 < c.rec_ then
    let v := 119 + (Config.freeWord d.free).toNat % 9
    moveCounters ch c.tec v (takeFree d)
  else moveCounters ch c.tec (c.rec_ - 1) d

/-- Entering bus-off (R415, R416): the aborted frame is marked as the head, one-shot entries fail and the rest is kept.
Cells are served again only from the next valid reference (R427). -/
def busOff (ch : Fin 2) (headId : Nat) (d : Dev) : Dev :=
  let shots := ((outstanding (busCh d ch)).filter fun e => e.oneShot).length
  let kept := ((outstanding (busCh d ch)).filter fun e => !e.oneShot).length
  let d := busStat ch 7 d
  let d := busMod ch (fun c => { c with offs := c.offs + 1 }) d
  let d := ttMod ch (fun t => { t with serve := false, excl := none, cell := 0 }) d
  let d := failOneShots ch 0 d
  raise 4 0x7004 (busPath ch) (le 1 ch ++ le 1 kept ++ le 1 shots ++ le 1 0 ++ le 4 headId) d

/-! ## What is on offer (R411, R413, R416, R421) -/

/-- What a transmission attempt carries. -/
inductive Offer where
  | entry (e : TxEntry)
  | inner (k : Nat) (m : Inner)
  | excl (smo : Nat) (m : TxMsg)

/-- The message of an offer. -/
def Offer.msg : Offer → TxMsg
  | .entry e => e.msg
  | .inner _ m => m.msg
  | .excl _ m => m

/-- The better of two offers by arbitration field; the first where they are equal. -/
def better (a b : Offer) : Offer := if arbKey b.msg < arbKey a.msg then b else a

/-- The best offer of a list. -/
def best : List Offer → Option Offer
  | [] => none
  | o :: os => some (os.foldl better o)

/-- A frame whose start-of-frame sample point lay `ago` PCLK periods back fits in the window of the cell in progress, with
its worst-case length (R421). -/
def arbFits (d : Dev) (ch : Fin 2) (ago : Nat) (m : TxMsg) : Bool :=
  let t := (busCh d ch).tt
  let p := piste d ch
  let e := if t.col + 1 < pisteColumns p then timeMark p (t.col + 1) else cycleUs p
  match t.lastRef with
  | none => false
  | some r => decide (sofFs d ago + ((msgNs d ch m * 1000000 : Nat) : Int) ≤ r + ((e * 1000000000 : Nat) : Int))

/-- The offers that may go: in TT mode ring messages, roster and mailbox frames only in ARB cells, where they fit, and the
time information only in its cell; a ring message that has failed in the cell waits for the next (R421, R425). -/
def offers (d : Dev) (ch : Fin 2) (ago : Nat) : List Offer :=
  let c := busCh d ch
  let tt := busMode d ch == 3
  let arb : TxMsg → Bool := fun m => !tt || (c.tt.serve && c.tt.cell == 2 && arbFits d ch ago m)
  let ring := ((outstanding c).filter fun e => arb e.msg && !(tt && e.skip)).map Offer.entry
  let own := ((c.inner.take 16).zipIdx.filter fun p => if p.1.user == 2 then tt && c.tt.cell == 3 else arb p.1.msg).map
    fun p => Offer.inner p.2 p.1
  ring ++ own

/-- The head left by bus-off (R416). -/
def headOf : List Offer → Option Offer
  | [] => none
  | o :: os =>
    match o with
    | .entry e => if e.head then some o else headOf os
    | .inner _ m => if m.head then some o else headOf os
    | .excl _ _ => headOf os

/-- The frame the controller offers for an attempt whose start-of-frame lay `ago` PCLK periods back (R411, R416, R421). -/
def offered (d : Dev) (ch : Fin 2) (ago : Nat) : Option Offer :=
  let c := busCh d ch
  if !busRuns d || c.down || c.flt == 2 || c.rate.isSome || !(busMode d ch == 1 || busMode d ch == 3) then none
  else
    match c.tt.excl with
    | some k => some (.excl k (smoMsg (pbytes d kBusSmo (32 * ch + k))))
    | none =>
      let os := offers d ch ago
      match headOf os with
      | some o => some o
      | none => best os

/-- Counts a start of transmission and keeps its DT (R409). -/
def countStart (ch : Fin 2) (o : Offer) (dt : Nat) (d : Dev) : Dev :=
  match o with
  | .entry e =>
    busMod ch (fun c =>
      { c with txq := c.txq.map fun x =>
          if x.idx = e.idx then { x with attempts := satAdd x.attempts 1 65535, dt := dt } else x }) d
  | _ => d

/-- Marks the frame of an offer as the head, or no longer as the head. -/
def markHead (ch : Fin 2) (o : Offer) (b : Bool) (d : Dev) : Dev :=
  match o with
  | .entry e => busMod ch (fun c => { c with txq := c.txq.map fun x => { x with head := b && x.idx == e.idx } }) d
  | .inner k _ =>
    busMod ch (fun c =>
      { c with inner := c.inner.zipIdx.map fun p => { p.1 with head := b && p.2 == k } }) d
  | .excl _ _ => d

/-- An EXCL cell whose frame was not sent (R422). -/
def cellMissed (ch : Fin 2) (d : Dev) : Dev :=
  let t := (busCh d ch).tt
  busStat ch 6 (ttMod ch (fun t' => { t' with missed := t.missed ||| 2 ^ t.col, excl := none, cell := 0 }) d)

/-- An EXCL frame that still waits to start, or is on the bus, is not sent any more in its cell (R421, R422). -/
def exclMissed (ch : Fin 2) (d : Dev) : Dev := if (busCh d ch).tt.excl.isSome then cellMissed ch d else d

/-- An entry as its channel holds it now. -/
def entryNow (d : Dev) (ch : Fin 2) (e : TxEntry) : TxEntry :=
  ((busCh d ch).txq.find? fun x => x.idx = e.idx).getD e

/-- The attempt succeeded: the entry completes, the buffer frees, the cell is served. -/
def offerSent (ch : Fin 2) (o : Offer) (dt : Nat) (d : Dev) : Dev :=
  let d := busStat ch 1 (busMod ch (fun c => { c with sent := some o.msg }) d)
  match o with
  | .entry e => txComplete ch (entryNow d ch e) 0 0 dt d
  | .inner k _ => busMod ch (fun c => { c with inner := c.inner.eraseIdx k }) d
  | .excl _ _ => ttMod ch (fun t => { t with excl := none, cell := 0 }) d

/-- The attempt failed: a one-shot entry completes with the status, any other waits, in TT mode for the next ARB cell; an
EXCL frame has missed its cell (R412, R421). -/
def offerFailed (ch : Fin 2) (o : Offer) (status detail dt : Nat) (d : Dev) : Dev :=
  match o with
  | .entry e =>
    if e.oneShot then txComplete ch (entryNow d ch e) status detail dt d
    else busMod ch (fun c => { c with txq := c.txq.map fun x => if x.idx = e.idx then { x with skip := true } else x }) d
  | .inner _ _ => d
  | .excl _ _ => cellMissed ch d

/-- Acknowledgement: the transmit counter falls and NO_ACK ends (R414, R418). -/
def acked (ch : Fin 2) (d : Dev) : Dev :=
  let c := busCh d ch
  let d := moveCounters ch (c.tec - 1) c.rec_ d
  let d := busMod ch (fun c => { c with noAck := false, acks := 0 }) d
  when c.noAck (busRaise 0x7007 ch (List.replicate 3 0 ++ le 4 c.acks)) d

/-- The counters of a transmitter at an error (R414, R417): up by 8, but not for an error ISO 11898-1 exempts, nor for an
acknowledgement error of a passive node without a dominant bit in its passive error flag; and NO_ACK at the 16th
acknowledgement error in a row (R418). -/
def txError (ch : Fin 2) (e : BusError) (id : Nat) (d : Dev) : Dev :=
  let c := busCh d ch
  let ack := e.kind == 4
  let quietAck := ack && c.flt == 1 && !e.dominant
  let d := busStat ch 2 d
  let d := if e.exempt || quietAck then d else moveCounters ch (c.tec + 8) c.rec_ d
  if ack then
    let d := busMod ch (fun c => { c with acks := c.acks + 1, noAck := c.noAck || c.acks + 1 == 16 }) d
    when (c.acks + 1 == 16) (busRaise 0x7006 ch (List.replicate 3 0 ++ le 4 id)) d
  else d

/-- The counters of a receiver at an error: up by 1, or by 8 with a dominant bit after its error flag (R414). -/
def rxError (ch : Fin 2) (e : BusError) (d : Dev) : Dev :=
  let c := busCh d ch
  let d := busStat ch 2 d
  if e.exempt then d else moveCounters ch c.tec (c.rec_ + (if e.dominant then 8 else 1)) d

/-- A transmission attempt met an error (R412, R414-R418). -/
def attemptError (ch : Fin 2) (o : Offer) (e : BusError) (dt : Nat) (d : Dev) : Dev :=
  let d := txError ch e o.msg.id d
  if (busCh d ch).flt == 2 then
    let d := match o with
      | .excl _ _ => cellMissed ch d
      | _ => markHead ch o true d
    busOff ch o.msg.id d
  else offerFailed ch o 0x11 (e.kind + 1) dt d

/-- A transmission attempt ends (R412). Where the device offers nothing, no attempt can end. -/
def txDone (ch : Fin 2) (out : TxOutcome) (ago : Nat) (d : Dev) : Dev :=
  match offered d ch ago with
  | none => d
  | some o =>
    let dt := sofNs d ago
    let d := countStart ch o dt d
    match out with
    | .sent => offerSent ch o dt (acked ch (markHead ch o false d))
    | .arbLost => offerFailed ch o 0x10 0 dt d
    | .error e => attemptError ch o e dt d

/-! ## Rate detection (R404) -/

/-- Pair `k` of `BUS_RATE_LIST`. -/
def ratePair (d : Dev) (ch : Fin 2) (k : Nat) : Nat × Nat :=
  let b := pbytes d kBusRateList ch
  (field b (4 * k) 2, field b (4 * k + 2) 2)

/-- The pair after `k`; the list ends at an arbitration rate of 0 or at its eighth pair. -/
def nextPair (d : Dev) (ch : Fin 2) (k : Nat) : Nat :=
  if 8 ≤ k + 1 then 0 else if (ratePair d ch (k + 1)).1 = 0 then 0 else k + 1

/-- The dwell on the candidate pair ends and the next pair is tried. -/
def dwellEnd (ch : Fin 2) (d : Dev) : Dev :=
  match (busCh d ch).rate with
  | none => d
  | some r => busMod ch (fun c => { c with rate := some { r with pair := nextPair d ch r.pair, good := 0, brs := false } }) d

/-- The pair is declared. -/
def rateDeclared (ch : Fin 2) (r : RateDetect) (d : Dev) : Dev :=
  let p := ratePair d ch r.pair
  let d := busMod ch (fun c => { c with rate := none }) d
  let d := if r.apply then
      setParam (addrOf kBusDataKbps ch) [w32 p.2] (setParam (addrOf kBusNomKbps ch) [w32 p.1] d)
    else d
  let d := busRaise 0x700C ch (le 1 0 ++ le 2 p.1 ++ le 2 p.2 ++ le 1 (b2n r.brs)) d
  completeId r.cmd 0 0 (le 2 p.1 ++ le 2 p.2 ++ le 1 (b2n r.brs) ++ List.replicate 3 0 ++ le 4 (d.time.tick - r.start)) d

/-- An error-free frame seen in detection: three in a row declare the pair. -/
def rateFrame (ch : Fin 2) (r : RateDetect) (f : BusFrame) (d : Dev) : Dev :=
  let r := { r with good := r.good + 1, brs := r.brs || (f.fdf && f.brs) }
  if r.good = 3 then rateDeclared ch r d else busMod ch (fun c => { c with rate := some r }) d

/-! ## The roster (R429-R433) -/

/-- A role. -/
def roleOf (d : Dev) (r : Nat) : RoleSt := vAt d.bus.roles r RoleSt.reset

/-- Changes a role. -/
def roleMod (r : Nat) (f : RoleSt → RoleSt) (d : Dev) : Dev := { d with bus := { d.bus with roles := vModN d.bus.roles r f } }

/-- `BUS_ROLE` of a role. -/
def roleCfg (d : Dev) (r : Nat) : List Byte := pbytes d kBusRole r

/-- P and N of a role. -/
def rolePeriod (d : Dev) (r : Nat) : Nat := field (roleCfg d r) 6 2
def roleLimit (d : Dev) (r : Nat) : Nat := byteAt (roleCfg d r) 8

/-- A role's nodes obey COMMAND. -/
def roleObeys (d : Dev) (r : Nat) : Bool := bitOf (byteAt (roleCfg d r) 10) 0

/-- A channel is one of the role's. -/
def roleOn (d : Dev) (r : Nat) (ch : Fin 2) : Bool := bitOf (byteAt (roleCfg d r) 1) ch

/-- The epoch of a role: the primary pair, else the shadow (R431, R46). -/
def roleEpoch (d : Dev) (r : Nat) : Nat :=
  let x := roleOf d r
  if pairValid x.epPrim then x.epPrim.1.toNat else if pairValid x.epShad then x.epShad.1.toNat else 0

/-- Raises the epoch by 1. -/
def epochUp (r : Nat) (d : Dev) : Dev :=
  let p := mkPair (w32 (roleEpoch d r + 1))
  roleMod r (fun x => { x with epPrim := p, epShad := p }) d

/-- What a node last said. -/
def nodeOf (d : Dev) (n : Nat) : Option NodeSt := (d.bus.nodes.find? fun p => p.1 = n).map (·.2)

/-- A node has the ROSTER bit. -/
def nodeObeys (d : Dev) (n : Nat) : Bool :=
  match nodeOf d n with
  | some x => x.obeys
  | none => false

/-- The channels a COMMAND for a role goes out on: the one the node was last heard on, where the role names it, else each
the role names (log entry 20). -/
def commandChans (d : Dev) (r n : Nat) : List (Fin 2) :=
  let named := ([0, 1] : List (Fin 2)).filter fun ch => roleOn d r ch
  match nodeOf d n with
  | some x => if named.any fun ch => ch.val = x.ch then named.filter fun ch => ch.val = x.ch else named
  | none => named

/-- Sends COMMAND to a node (R429): 1 ASSIGN, 2 STANDBY. -/
def sendCommand (op r n : Nat) (d : Dev) : Dev :=
  let per := if op = 1 then rolePeriod d r else 0
  let data := le 1 op ++ le 1 r ++ le 1 (roleEpoch d r) ++ le 1 0 ++ le 2 per ++ le 2 0
  let id := pget d kBusRstBase 0 + 0x100 + n
  forEach (commandChans d r n) (fun ch d =>
    let fd := bitOf (byteAt (roleCfg d r) 1) 2 && pget d kBusDataKbps ch != 0
    sendInner ch 0 (if fd then fdFrame id data else classical id data) d) d

/-- A spare's last heartbeat showed standby no more than 2P ago. -/
def spareFit (d : Dev) (r n : Nat) : Bool :=
  match nodeOf d n with
  | some x => x.state == 1 && d.time.tick - x.tick ≤ 2 * rolePeriod d r
  | none => false

/-- Gives the role to the first fit spare of a list, or leaves it VACANT (R432). -/
def tryAssign (r : Nat) (spares : List Nat) (d : Dev) : Dev :=
  match spares.find? (spareFit d r) with
  | some n => sendCommand 1 r n (roleMod r (fun x => { x with state := 2, cand := n }) d)
  | none =>
    let d := roleMod r (fun x => { x with state := 1, cand := 0 }) d
    raise 4 0x7012 (rolePath r) (le 1 r ++ le 1 0 ++ le 1 (roleEpoch d r)) d

/-- The holder is dead (R432). -/
def roleDead (r : Nat) (d : Dev) : Dev :=
  let n := (roleOf d r).holder
  let d := epochUp r d
  let d := raise 4 0x7010 (rolePath r) (le 1 r ++ le 1 n ++ le 1 (roleEpoch d r)) d
  let d := roleMod r (fun x => { x with holder := 0, former := n, misses := 0 }) d
  let d := svcRoleDead r d
  tryAssign r (roleOf d r).spares d

/-- A missed heartbeat (R432). -/
def rosterMiss (r : Nat) (d : Dev) : Dev :=
  if (roleOf d r).state == 3 && pget d kBusRstEnable 0 != 0 then
    let d := roleMod r (fun x => { x with misses := x.misses + 1 }) d
    if roleLimit d r ≤ (roleOf d r).misses then roleDead r d else d
  else d

/-- The chosen spare has not confirmed within 2P (R432). -/
def assignTimeout (r : Nat) (d : Dev) : Dev :=
  let x := roleOf d r
  if x.state == 2 && pget d kBusRstEnable 0 != 0 then
    let d := sendCommand 2 r x.cand (epochUp r d)
    let rest := (x.spares.dropWhile fun n => n != x.cand).drop 1
    tryAssign r (if x.spares.any fun n => n = x.cand then rest else x.spares) d
  else d

/-- The candidate is the holder (R432). -/
def rolePromote (r n : Nat) (d : Dev) : Dev :=
  let former := (roleOf d r).former
  let d := roleMod r (fun x =>
    { x with
      state := 3
      holder := n
      cand := 0
      misses := 0
      hbDt := dtNs d
      spares := x.spares.filter fun m => m != n
      stale := x.stale.filter fun s => s.node != n }) d
  raise 4 0x7011 (rolePath r) (le 1 r ++ le 1 n ++ le 1 (roleEpoch d r) ++ le 1 former) d

/-- A node that is not the holder names a role (R433): one event an episode and STANDBY to a node with the ROSTER bit. -/
def roleStale (r n epoch : Nat) (isData : Bool) (d : Dev) : Dev :=
  if (roleOf d r).stale.any fun s => s.node = n && s.sending then d
  else
    let d := roleMod r (fun x =>
      { x with stale := (x.stale.filter fun s => s.node != n) ++ [{ node := n, sending := true, standbys := 0 }] }) d
    let d := raise 4 0x7013 (rolePath r)
      (le 1 r ++ le 1 n ++ le 1 epoch ++ le 1 (roleEpoch d r) ++ le 1 (b2n isData)) d
    if nodeObeys d n then sendCommand 2 r n d else d

/-- Once per P the device repeats STANDBY to a node that still names the role (R433). -/
def standbyRepeat (r n : Nat) (d : Dev) : Dev :=
  if (roleOf d r).stale.any (fun s => s.node = n && s.sending) && nodeObeys d n then sendCommand 2 r n d else d

/-- A heartbeat's effect on one role (R432, R433). -/
def roleHeartbeat (ch : Fin 2) (n : Nat) (b : List Byte) (r : Nat) (d : Dev) : Dev :=
  let x := roleOf d r
  if x.state == 0 || !roleOn d r ch then d
  else
    let st := byteAt b 2
    let names := byteAt b 0 == r
    let obeys := bitOf (byteAt b 4) 7
    let current := byteAt b 1 == roleEpoch d r % 256
    if x.state == 3 && x.holder == n then
      if names then roleMod r (fun x => { x with misses := 0, hbDt := dtNs d }) d else d
    else if x.state == 2 && x.cand == n && (!obeys || (names && current)) then
      if !obeys || st == 2 then rolePromote r n d else d
    else if names then roleStale r n (byteAt b 1) false d
    else
      let d :=
        if byteAt b 0 == 0xFF && x.stale.any (fun s => s.node = n) then
          let k := if st == 1 then ((x.stale.find? fun s => s.node = n).map (·.standbys)).getD 0 + 1 else 0
          if k = 10 then
            let room := x.spares.length < 3 && !(x.spares.any fun m => m = n)
            let d := roleMod r (fun x =>
              { x with
                stale := x.stale.filter fun s => s.node != n
                spares := if room then x.spares ++ [n] else x.spares }) d
            when room (raise 4 0x7014 (rolePath r) (le 1 r ++ le 1 n)) d
          else
            roleMod r (fun x =>
              { x with stale := x.stale.map fun s =>
                  if s.node = n then { s with sending := false, standbys := k } else s }) d
        else d
      if x.state == 1 && st == 1 && ((roleOf d r).spares.any fun m => m = n) then
        tryAssign r (roleOf d r).spares d
      else d

/-- A remote commander gave a sign of life (R100, R435). -/
def rmbAlive (k : Nat) (d : Dev) : Dev :=
  let was := d.host.rmbSilent.any fun j => j = k
  let d := { d with host := { d.host with
      rmbSilent := d.host.rmbSilent.filter fun j => j != k
      rmbHeard := if d.host.rmbHeard.any fun j => j = k then d.host.rmbHeard else d.host.rmbHeard ++ [k] } }
  when was (raise 6 0xC002 (subPath 0xC) (le 1 (1 + k / 8))) d

/-- The commanders whose role a node holds on a channel. -/
def commandersOf (d : Dev) (ch : Fin 2) (n : Nat) : List Nat :=
  (List.range 8).filterMap fun c =>
    let r := pget d kBusRmbRole c
    if r < 96 && (roleOf d r).state == 3 && (roleOf d r).holder == n then some (8 * ch + c) else none

/-- A HEARTBEAT arrives (R429, R432, R433). -/
def heartbeat (ch : Fin 2) (n : Nat) (b : List Byte) (d : Dev) : Dev :=
  let rec_ : NodeSt := { tick := d.time.tick, role := byteAt b 0, epoch := byteAt b 1, state := byteAt b 2,
                         obeys := bitOf (byteAt b 4) 7, ch := ch }
  let d := { d with bus := { d.bus with nodes := alSet d.bus.nodes n rec_ } }
  let d := forEach (List.range 96) (roleHeartbeat ch n b) d
  forEach ((commandersOf d ch n).filter fun k => pget d kBusRmbRole (k % 8) == byteAt b 0) rmbAlive d

/-- The readings of a cable's DATA (R429): sensor and value in 0.01 °C, none for a failed one. -/
def cableVals (b : List Byte) : List (Nat × Option Int) :=
  (List.range (byteAt b 3)).map fun i =>
    let v := field b (4 + 2 * i) 2
    (byteAt b 2 + i, if v == 0x8000 then none else some (sext 16 v))

/-- What the roster does with a frame. -/
inductive RosterUse where
  | layout
  | done
  | ring
  deriving DecidableEq

/-- A cable's DATA has its layout (R429). -/
def cableLayout (f : BusFrame) : Bool :=
  let k := byteAt f.data 3
  4 ≤ f.data.length && byteAt f.data 2 < 32 && k ≤ (if f.fdf then 30 else 2) && 4 + 2 * k ≤ f.data.length

/-- A DATA frame arrives (R431, R433): accepted from the holder under the current epoch only. -/
def rosterData (ch : Fin 2) (n : Nat) (f : BusFrame) (d : Dev) : RosterUse × Dev :=
  let r := byteAt f.data 0
  if f.data.length < 2 || 96 ≤ r then (.layout, d)
  else
    let x := roleOf d r
    if x.state == 0 || !roleOn d r ch then (.done, busStat ch 5 d)
    else if x.state == 3 && x.holder == n then
      if roleObeys d r && byteAt f.data 1 != roleEpoch d r % 256 then (.done, busStat ch 5 d)
      else if byteAt (roleCfg d r) 0 == 1 then
        if cableLayout f then
          let vals := (cableVals f.data).filter fun v => v.1 < byteAt (roleCfg d r) 9
          (.done, svcCable r vals d)
        else (.layout, d)
      else (.ring, d)
    else (.done, roleStale r n (byteAt f.data 1) true (busStat ch 5 d))

/-- A frame routed to the roster (R407, R429). -/
def rosterFrame (ch : Fin 2) (f : BusFrame) (d : Dev) : RosterUse × Dev :=
  let base := pget d kBusRstBase 0
  let id := fid f.id.toNat f.xtd
  if !bitOf (pget d kBusRstEnable 0) ch || f.xtd || f.rtr || id < base then (.layout, d)
  else
    let o := id - base
    if 1 ≤ o && o < 0x80 then
      if f.data.length == 8 && (byteAt f.data 0 < 96 || byteAt f.data 0 == 0xFF) && byteAt f.data 2 ≤ 3 then
        (.done, heartbeat ch o f.data d)
      else (.layout, d)
    else if 0x81 ≤ o && o < 0x100 then rosterData ch (o - 0x80) f d
    else (.layout, d)

/-- The device's own HEARTBEAT (R429): role 0xFF, kind 3; shown as active, without the ROSTER bit (log entry 20). -/
def ownHeartbeat (ch : Fin 2) (d : Dev) : Dev :=
  if bitOf (pget d kBusRstEnable 0) ch then
    let id := pget d kBusRstBase 0 + pget d kBusNodeId ch
    let s := (busCh d ch).hbSeq
    let d := busMod ch (fun c => { c with hbSeq := (s + 1) % 256 }) d
    sendInner ch 0 (classical id (le 1 0xFF ++ le 1 0 ++ le 1 2 ++ le 1 s ++ le 1 3 ++ le 3 0)) d
  else d

/-- The role a node holds, 0xFF none (R408). -/
def holderRole (d : Dev) (n : Nat) : Nat :=
  ((List.range 96).find? fun r => (roleOf d r).state == 3 && (roleOf d r).holder == n).getD 0xFF

/-! ## The remote mailbox (R434, R435) -/

/-- The mailbox is served on a channel: by `HST_RMB_ENABLE`, or in remote boot mode (R434, R97). -/
def rmbOn (d : Dev) (ch : Fin 2) : Bool := d.host.bootMode == 2 || bitOf (pget d kHstRmbEnable 0) ch

/-- EV_BUS_RMB_ERROR. -/
def rmbError (ch : Fin 2) (c cause : Nat) (d : Dev) : Dev := busRaise 0x7015 ch (le 1 c ++ le 1 cause) d

/-- A whole request enters its remote lane (R101, R434): that of Q1 only while `HST_RMB_GRANT` bit 0 is set as it arrives. A request
for lane 0, or for lane 1 without the grant, waits with those of Q2 and is refused when taken, the former after
EV_BUS_RMB_ERROR cause 3 (log entry 21). The key is 8 × channel + commander, with 16 added for an FD request. -/
def rmbRequest (ch : Fin 2) (c : Nat) (fd : Bool) (b : List Byte) (d : Dev) : Dev :=
  let lane := fld (byteAt b 1) 2 2
  let d := rmbAlive (8 * ch + c) d
  let d := when (lane == 0) (rmbError ch c 3) d
  let q := if lane == 0 || (lane == 1 && !bitOf (pget d kHstRmbGrant 0) 0) then 2 else lane
  { d with cmd := { d.cmd with
      remoteLane := vModN d.cmd.remoteLane q fun l => l ++ [(8 * ch + c + 16 * b2n fd, b)] } }

/-- Changes the request in progress of a commander. -/
def rmbSet (k : Nat) (x : Option RmbSt) (d : Dev) : Dev := { d with bus := { d.bus with rmb := vModN d.bus.rmb k fun _ => x } }

/-- A segment of a classical request (R435). -/
def rmbSegment (ch : Fin 2) (c : Nat) (b : List Byte) (d : Dev) : Dev :=
  let k := 8 * ch + c
  let seg := byteAt b 0 / 16
  let cnt := byteAt b 0 % 16
  let cur := vAt d.bus.rmb k none
  let first := some { next := 1, count := cnt, bytes := b.drop 1, skip := false : RmbSt }
  match cur with
  | none => if seg = 0 then rmbSet k first d
            else rmbSet k (some { next := 0, count := cnt, bytes := [], skip := true }) (rmbError ch c 0 d)
  | some x =>
    if x.skip then
      if seg = 0 then rmbSet k first d
      else if cnt = x.count then d
      else rmbSet k (some { x with count := cnt }) (rmbError ch c 0 d)
    else if seg = x.next && cnt = x.count then
      let bytes := x.bytes ++ b.drop 1
      if seg = 9 then
        let d := rmbSet k none d
        if crc16 (bytes.take 64) == byteAt bytes 64 * 256 + byteAt bytes 65 then
          rmbRequest ch c false (bytes.take 64) d
        else rmbError ch c 1 d
      else rmbSet k (some { x with next := seg + 1, bytes := bytes }) d
    else
      let d := rmbError ch c 0 d
      if seg = 0 then rmbSet k first d
      else rmbSet k (some { next := 0, count := cnt, bytes := [], skip := true }) d

/-- A frame routed to the mailbox; false where it has not the mailbox's layout (R407). -/
def rmbFrame (ch : Fin 2) (f : BusFrame) (d : Dev) : Bool × Dev :=
  let base := pget d kBusRmbBase 0
  let id := fid f.id.toNat f.xtd
  if !rmbOn d ch || f.xtd || f.rtr || id < base || base + 8 ≤ id then (false, d)
  else if f.fdf && f.data.length == 64 then (true, rmbRequest ch (id - base) true f.data d)
  else if !f.fdf && f.data.length == 8 then (true, rmbSegment ch (id - base) f.data d)
  else (false, d)

/-- More than 100 ms between segments (R435). -/
def rmbTimeout (ch : Fin 2) (c : Nat) (d : Dev) : Dev :=
  match vAt d.bus.rmb (8 * ch + c) none with
  | none => d
  | some x => if x.skip then d else rmbError ch c 2 (rmbSet (8 * ch + c) none d)

/-- The segments of a classical response (R435). -/
def rmbSegments (cnt : Nat) (b : List Byte) : List (List Byte) :=
  let whole := padTo 35 (b ++ beBytes 2 (crc16 b))
  (List.range 5).map fun s => le 1 (s * 16 + cnt % 16) ++ (whole.drop (7 * s)).take 7

/-- Sends a response: the 32-byte completion entry to its commander (R435). -/
def rmbRespond (ch : Fin 2) (c : Nat) (fd : Bool) (b : List Byte) (d : Dev) : Dev :=
  let id := pget d kBusRmbBase 0 + 0x10 + c
  if fd then sendInner ch 1 (fdFrame id b) d
  else
    let k := 8 * ch + c
    let cnt := vAt d.bus.rmbOut k 0
    let d := { d with bus := { d.bus with rmbOut := vModN d.bus.rmbOut k fun n => (n + 1) % 16 } }
    forEach (rmbSegments cnt b) (fun s d => sendInner ch 1 (classical id s) d) d

/-! ## Time service (R422-R428) -/

/-- The device is a potential time master of a channel (R423). -/
def canMaster (d : Dev) (ch : Fin 2) : Bool :=
  pget d kBusTmPrio ch ≤ 7 && pget d kBusTmMinTq ch ≤ d.gns.tq

/-- EV_BUS_SYNC on a change of role (R427). -/
def ttRole (ch : Fin 2) (role prio : Nat) (d : Dev) : Dev :=
  let was := (busCh d ch).tt.role
  let d := ttMod ch (fun t => { t with role := role, prio := prio, state := if role = 1 then 3 else 2 }) d
  when (was != role) (busRaise 0x700A ch (le 1 prio ++ le 1 role)) d

/-- A reference starts a basic cycle: a matrix cycle that ends reports its missed cells once (R422), and the cells are
served from here (R427). -/
def newCycle (ch : Fin 2) (cycle : Nat) (mark : Int) (d : Dev) : Dev :=
  let t := (busCh d ch).tt
  let wraps := cycle ≤ t.cycle
  let d := when (wraps && t.missed != 0) (busRaise 0x7008 ch (le 1 t.matrix ++ le 2 0 ++ le 4 t.missed)) d
  ttMod ch (fun t =>
    { t with
      cycle := cycle
      matrix := if wraps then (t.matrix + 1) % 256 else t.matrix
      missed := if wraps then 0 else t.missed
      col := 0
      cell := 0
      excl := none
      serve := true
      take := false
      lastRef := some mark }) d

/-- Applies the values of a channel that wait for a basic cycle (R423, R436). -/
def atBasicCycle (ch : Fin 2) (d : Dev) : Dev := boundary (fun _ d => d) (fun w => w.bnd == .basicCycle ch) d

/-- The layout of a reference message (R424): a classical frame of 8 bytes on one of the eight identifiers. -/
def isReference (d : Dev) (ch : Fin 2) (f : BusFrame) : Bool :=
  let id := fid f.id.toNat f.xtd
  let base := pget d kBusRefId ch
  !f.xtd && !f.fdf && !f.rtr && f.data.length == 8 && base ≤ id && id < base + 8 &&
    !bitOf (byteAt f.data 0) 6 && byteAt f.data 1 % 32 == 0

/-- The layout of a time-information message (R425). -/
def isTimeInfo (d : Dev) (ch : Fin 2) (f : BusFrame) : Bool :=
  !f.xtd && !f.fdf && !f.rtr && f.data.length == 8 && fid f.id.toNat f.xtd == pget d kBusTimeInfoId ch

/-- A valid reference (R427, R428). -/
def reference (ch : Fin 2) (f : BusFrame) (d : Dev) : Dev :=
  if busMode d ch != 3 then d
  else
    let p := fid f.id.toNat f.xtd - pget d kBusRefId ch
    let own := pget d kBusTmPrio ch
    let t := (busCh d ch).tt
    if t.state == 3 && own ≤ p then d
    else
      let d := atBasicCycle ch d
      let mark := sofFs d f.sofAgo
      let theirs := field f.data 2 6
      let diff := sext 48 (toBits 48 ((theirs : Int) - mark / 1000000))
      let d := newCycle ch (byteAt f.data 0 % 64) mark d
      let d := ttMod ch (fun t =>
        { t with
          ofs := clampI (-2 ^ 31) (2 ^ 31 - 1) diff
          ofsTq := byteAt f.data 1 / 64
          take := canMaster d ch && own < p }) d
      ttRole ch (if canMaster d ch then 2 else 0) p d

/-- A time-information message: the device disciplines nothing from the bus (R428), so nothing in it changes. -/
def timeInfo (_ : Fin 2) (_ : BusFrame) (d : Dev) : Dev := d

/-- The device may send the reference of an instant: it is master, or takes over, or lost the reference (R427). -/
def mayRefer (d : Dev) (ch : Fin 2) : Bool :=
  let c := busCh d ch
  busMode d ch == 3 && !c.down && c.flt != 2 && canMaster d ch && (c.tt.state == 3 || c.tt.take || c.tt.state == 1)

/-- A DT step falls before the next reference (R426). -/
def gapDue (d : Dev) (dt next : Int) : Bool :=
  match d.gns.due with
  | some (at_, _) => dt ≤ at_ && at_ < next
  | none => false

/-- The reference of an aligned DT instant, `k` basic cycles from DT 0 (R424, R426). -/
def referenceSend (ch : Fin 2) (k : Nat) (d : Dev) : Dev :=
  if mayRefer d ch then
    let d := atBasicCycle ch d
    let p := piste d ch
    let us := cycleUs p
    let prio := pget d kBusTmPrio ch
    let dt : Int := (k : Int) * (us : Int) * 1000000000
    let cycle := k % pisteCycles p
    let gap := gapDue d dt (dt + (us : Int) * 1000000000)
    let data := le 1 (cycle + b2n gap * 128) ++ le 1 (d.gns.tq * 64 + b2n (busCh d ch).tt.disc * 32) ++ le 6 (k * us * 1000)
    let m := classical (pget d kBusRefId ch + prio) data
    let d := busStat ch 1 (busMod ch (fun c => { c with sent := some m }) d)
    let d := acked ch d
    let d := newCycle ch cycle dt d
    let d := ttMod ch (fun t => { t with disc := false }) d
    ttRole ch 1 prio d
  else d

/-- The time-information message (R425). -/
def timeInfoMsg (d : Dev) (ch : Fin 2) : TxMsg :=
  classical (pget d kBusTimeInfoId ch)
    (le 2 (dtNs d / 2 ^ 48) ++ le 2 (timeWord d) ++ le 2 (toBits 16 (d.gns.utcOfs.getD 0)) ++ le 1 d.gns.steps
      ++ le 1 (pget d kBusNodeId ch))

/-- A column's time mark (R421, R422, R425): the EXCL object's frame starts with what was last written to it (R420). -/
def ttMark (ch : Fin 2) (col : Nat) (d : Dev) : Dev :=
  let p := piste d ch
  let c := busCh d ch
  if busMode d ch != 3 || c.tt.state == 0 || pisteColumns p ≤ col then d
  else
    let d := exclMissed ch d
    let d := ttMod ch (fun t => { t with col := col, cell := 0, excl := none }) d
    let up := c.tt.serve && !c.down && c.flt != 2 && 2 ≤ c.tt.state
    match cellOf p col c.tt.cycle with
    | some t =>
      if t.kind == 1 then
        if up then
          let d := boundary (fun _ d => d) (fun w => w.addr = addrOf kBusSmo (32 * ch + t.smo)) d
          ttMod ch (fun x => { x with excl := some t.smo, cell := 1 }) d
        else cellMissed ch d
      else if up then
        ttMod ch (fun x => { x with cell := 2 }) (busMod ch (fun c => { c with txq := c.txq.map fun x => { x with skip := false } }) d)
      else d
    | none =>
      if up && c.tt.state == 3 && c.tt.cycle == 0 && byteAt p 7 == col then
        let d := busMod ch (fun c => { c with inner := c.inner.filter (·.user != 2) }) d
        ttMod ch (fun x => { x with cell := 3 }) (sendInner ch 2 (timeInfoMsg d ch) d)
      else d

/-- An EXCL frame that has not started within TX_EN bit times (R421). -/
def txEnExpired (ch : Fin 2) (d : Dev) : Dev := exclMissed ch d

/-- No valid reference for two basic cycles (R427). -/
def refLost (ch : Fin 2) (d : Dev) : Dev :=
  if busMode d ch == 3 && 2 ≤ (busCh d ch).tt.state then
    let d := exclMissed ch d
    let d := ttMod ch (fun t => { t with state := 1, role := 3, serve := false, cell := 0, take := canMaster d ch }) d
    busRaise 0x7009 ch [] d
  else d

/-- DT steps from `old` to `new` (fs) on a channel whose master the device is (R426). -/
def busDtStep (old new : Int) (ch : Fin 2) (d : Dev) : Dev :=
  let t := (busCh d ch).tt
  if t.state = 3 then
    let cyc : Int := (cycleUs (piste d ch) : Int) * 1000000000
    let gone := old - t.lastRef.getD old
    let left := if cyc = 0 then 0 else (-new) % cyc
    let d := ttMod ch (fun t => { t with disc := true, lastRef := t.lastRef.map (· + (new - old)) }) d
    busRaise 0x700B ch (List.replicate 3 0 ++ le 4 (toBits 32 ((gone + left - cyc) / 1000000000))) d
  else ttMod ch (fun t => { t with disc := true, lastRef := t.lastRef.map (· + (new - old)) }) d

/-! ## Frames received (R405-R408) -/

/-- Filter element `e` of a channel. -/
def filterEl (d : Dev) (ch : Fin 2) (e : Nat) : List Byte := pbytes d kBusFilt (128 * ch + e)

/-- An element matches an identifier (R405). -/
def filterMatch (b : List Byte) (id : Nat) (xtd : Bool) : Bool :=
  let w := field b 0 4
  let n := if xtd then 2 ^ 29 else 2 ^ 11
  let i1 := field b 4 4 % n
  let i2 := field b 8 4 % n
  bitOf w 29 == xtd &&
    (match fld w 30 2 with
     | 1 => i1 ≤ id && id ≤ i2
     | 2 => id == i1 || id == i2
     | 3 => (id ^^^ i1) &&& i2 == 0
     | _ => false)

/-- Element and route of a frame: the first enabled element that matches, else `BUS_NOMATCH` (R406). -/
def routeOf (d : Dev) (ch : Fin 2) (f : BusFrame) : Nat × Nat :=
  let id := fid f.id.toNat f.xtd
  match (List.range 128).find? fun e => filterMatch (filterEl d ch e) id f.xtd with
  | some e => (e, fld (field (filterEl d ch e) 0 4) 26 3)
  | none => (0xFF, if pget d kBusNomatch ch = 1 then 0 else 4)

/-- A receive ring entry (R408). -/
def rxEntry (d : Dev) (ch : Fin 2) (el role : Nat) (f : BusFrame) : List Byte :=
  le 4 (idWord (fid f.id.toNat f.xtd) f.xtd f.fdf f.brs) ++ le 1 (f.dlc + b2n f.esi * 16 + b2n f.rtr * 32) ++ le 1 el
    ++ le 1 role ++ le 1 0 ++ le 8 (sofNs d f.sofAgo) ++ le 4 (lastBib d) ++ le 2 (timeWord d) ++ le 2 (busPos d ch)
    ++ List.replicate 8 0 ++ padTo 64 f.data ++ List.replicate 32 0

/-- The role of a frame's sender, where it uses the roster's identifiers of its node. -/
def senderRole (d : Dev) (ch : Fin 2) (f : BusFrame) : Nat :=
  let base := pget d kBusRstBase 0
  let id := fid f.id.toNat f.xtd
  let n := (id - base) % 0x80
  if bitOf (pget d kBusRstEnable 0) ch && !f.xtd && base ≤ id && id < base + 0x100 && n != 0 then holderRole d n else 0xFF

/-- A frame written to the channel's receive ring. -/
def toRing (ch : Fin 2) (el : Nat) (f : BusFrame) (d : Dev) : Dev :=
  emit (.push (13 + 2 * ch) (rxEntry d ch el (senderRole d ch f) f)) d

/-- A user's frame without that user's layout is dropped and counted (R407). -/
def layoutDrop (ch : Fin 2) (d : Dev) : Dev := busStat ch 4 d

/-- A frame routed to its user. -/
def routeFrame (ch : Fin 2) (f : BusFrame) (d : Dev) : Dev :=
  let (el, route) := routeOf d ch f
  match route with
  | 0 => toRing ch el f d
  | 1 =>
    match rosterFrame ch f d with
    | (.layout, _) => layoutDrop ch d
    | (.done, d') => d'
    | (.ring, d') => toRing ch el f d'
  | 2 =>
    match rmbFrame ch f d with
    | (false, _) => layoutDrop ch d
    | (true, d') => d'
  | 3 =>
    if isReference d ch f then reference ch f d
    else if isTimeInfo d ch f then timeInfo ch f d
    else layoutDrop ch d
  | _ => busStat ch 3 d

/-- The channel hears frames: it runs, is powered and not bus-off, and is not OFF unless it detects rates. -/
def busHears (d : Dev) (ch : Fin 2) : Bool :=
  let c := busCh d ch
  busRuns d && !c.down && c.flt != 2 && (busMode d ch != 0 || c.rate.isSome)

/-- A frame has ended on a channel without error (R404, R406, R408, R414). -/
def frameIn (ch : Fin 2) (f : BusFrame) (d : Dev) : Dev :=
  if busHears d ch then
    match (busCh d ch).rate with
    | some r => rateFrame ch r f d
    | none => routeFrame ch f (goodRx ch (busStat ch 0 d))
  else d

/-- An error on a channel (R404, R414). As transmitter, the attempt on offer ends with it. -/
def busErrorIn (ch : Fin 2) (transmitting : Bool) (e : BusError) (ago : Nat) (d : Dev) : Dev :=
  if transmitting then txDone ch (.error e) ago d
  else if busHears d ch then
    if (busCh d ch).rate.isSome then dwellEnd ch (busStat ch 2 d) else rxError ch e d
  else d

/-! ## Power, recovery and modes (R401-R403, R415) -/

/-- The transceiver loses power (R403). -/
def xcvrDown (ch : Fin 2) (d : Dev) : Dev :=
  if (busCh d ch).down then d
  else
    let d := busMod ch (fun c => { c with down := true }) d
    let d := ttMod ch (fun t => { t with serve := false, cell := 0 }) (exclMissed ch d)
    busRaise 0x700D ch (le 1 0) (failOneShots ch 2 d)

/-- Its power returns: the counters are as they were. -/
def xcvrUp (ch : Fin 2) (d : Dev) : Dev :=
  if (busCh d ch).down then busRaise 0x700D ch (le 1 1) (busMod ch (fun c => { c with down := false }) d) else d

/-- 128 runs of 11 recessive bits after bus-off (R415); `us` is the time bus-off. -/
def busRecovered (ch : Fin 2) (us : Nat) (d : Dev) : Dev :=
  let c := busCh d ch
  if c.flt == 2 && !c.down then
    busRaise 0x7005 ch (List.replicate 3 0 ++ le 4 us) (busMod ch (fun c => { c with tec := 0, rec_ := 0, flt := 0 }) d)
  else d

/-- A new mode applies (R401, R402). -/
def busModeHook (ch : Fin 2) (d : Dev) : Dev :=
  let m := busMode d ch
  let d := if m = 3 then ttMod ch (fun t => if t.state = 0 then { TtSt.reset with state := 1 } else t) d
    else ttMod ch (fun _ => TtSt.reset) d
  if m = 1 ∨ m = 3 then d else failOneShots ch 1 d

/-- A role as its configuration starts it (R430): the epoch stays. -/
def roleHook (r : Nat) (d : Dev) : Dev :=
  let b := roleCfg d r
  let used := byteAt b 0 != 0
  roleMod r (fun x =>
    { RoleSt.reset with
      epPrim := x.epPrim
      epShad := x.epShad
      state := if used then 3 else 0
      holder := if used then byteAt b 2 else 0
      spares := if used then [byteAt b 3, byteAt b 4, byteAt b 5].filter fun n => n != 0 else [] }) d

/-- What the bus does when one of its parameters changes. -/
def busHook (addr : Nat) (d : Dev) : Dev :=
  if keyOf addr = kBusMode then
    if h : instOf addr < 2 then busModeHook ⟨instOf addr, h⟩ d else d
  else if keyOf addr = kBusRole then roleHook (instOf addr) d
  else d

/-- Values of a channel that apply at a bus idle: its mode alone, or everything else of its own and of the roster. -/
def busIdleWait (ch : Fin 2) (mode : Bool) (w : Wait) : Bool :=
  match w.bnd with
  | .busIdle c => (c = ch || keyOf w.addr == kBusRstEnable || keyOf w.addr == kBusRstHbMs) &&
      (keyOf w.addr == kBusMode) == mode && keyOf w.addr != kBusSmo
  | _ => false

/-! ## Parameters -/

/-- READ parameters of the bus (R436). -/
def busRead (d : Dev) (addr : Nat) : List Word :=
  let n := instOf addr
  let key := keyOf addr
  let c := vAt d.bus.ch n BusCh.reset
  if key = kBusState then [w32 (busState c)]
  else if key = kBusStats then c.stats.toList.map w32
  else if key = kBusTimeOfs then [iw c.tt.ofs]
  else if key = kBusRoleState then
    let x := roleOf d n
    [w32 (x.holder + roleEpoch d n % 256 * 256 + x.state * 65536 + x.misses % 16 * 2 ^ 19)]
  else [0]

/-- The bytes a BLOB write brings are a valid role (R430). -/
def roleOk (b : List Byte) : Bool :=
  byteAt b 0 == 0 && b.all (fun x => x == 0) ||
  (byteAt b 0 ≤ 4 && byteAt b 1 ≤ 7 && byteAt b 1 % 4 != 0 && 1 ≤ byteAt b 2 && byteAt b 2 ≤ 127 &&
    byteAt b 3 ≤ 127 && byteAt b 4 ≤ 127 && byteAt b 5 ≤ 127 && 10 ≤ field b 6 2 && field b 6 2 ≤ 60000 &&
    1 ≤ byteAt b 8 && byteAt b 8 ≤ 15 && 1 ≤ byteAt b 9 && byteAt b 9 ≤ 32 && byteAt b 10 ≤ 1 && field b 11 5 == 0)

/-- A filter element's bytes are valid (R405). -/
def filtOk (b : List Byte) : Bool :=
  let w := field b 0 4
  fld w 26 3 ≤ 4 && w % 2 ^ 26 == 0 && field b 4 4 < 2 ^ 29 && field b 8 4 < 2 ^ 29

/-- A scheduled object's bytes are valid and its frame fits every window that names it (R420). -/
def smoOk (d : Dev) (ch : Fin 2) (k : Nat) (b : List Byte) : Bool :=
  let m := smoMsg b
  let p := piste d ch
  byteAt b 4 < 16 && (byteAt b 5 == 0 || byteAt b 5 == 2) && field b 6 2 == 0 && !(m.brs && !m.fdf) &&
    !(m.rtr && m.fdf) && !(8 < m.dlc && !m.fdf) && !(m.fdf && pget d kBusDataKbps ch == 0) &&
    (triggers p).all fun t => t.kind != 1 || t.smo != k || msgNs d ch m ≤ windowNs p t.col

/-- Checks of a bus parameter write beyond range and class (R401, R405, R419, R420, R430). -/
def busCheck (d : Dev) (addr : Nat) (ws : List Word) : Option Refuse :=
  let key := keyOf addr
  let n := instOf addr
  let b := bytesOf ws
  let chOf (k : Nat) : Fin 2 := if k = 0 then 0 else 1
  let bad : Bool :=
    if key = kBusMode then (ws.headD 0).toNat == 3 && !pisteOk d (chOf n) (piste d (chOf n))
    else if key = kBusFilt then !filtOk b
    else if key = kBusPiste then !pisteOk d (chOf n) b
    else if key = kBusSmo then !smoOk d (chOf (n / 32)) (n % 32) b
    else if key = kBusRole then !roleOk b
    else false
  if bad then some ⟨stRange, 0⟩ else none

/-- The block of a STAGED bus parameter runs (R401, R430, R436). -/
def busBusy (d : Dev) (addr : Nat) : Bool :=
  let key := keyOf addr
  if key = kBusRstBase ∨ key = kBusRmbBase ∨ key = kBusRole then
    pget d kBusRstEnable 0 != 0 || pget d kHstRmbEnable 0 != 0
  else if key = kBusRmbRole then pget d kBusMode 0 != 0 || pget d kBusMode 1 != 0
  else pget d kBusMode (instOf addr) != 0

/-! ## Commands (R437) -/

/-- The channel of TARGET [7:0]; others are refused with ST_RANGE. -/
def busCmd (f : Cmd → Fin 2 → Dev → Dev) (c : Cmd) (d : Dev) : Dev :=
  if h : c.target % 256 < 2 then f c ⟨c.target % 256, h⟩ d else refuse c ⟨stRange, 0⟩ d

def cmdRateDetect (c : Cmd) (ch : Fin 2) (d : Dev) : Dev :=
  if busMode d ch != 0 || (busCh d ch).rate.isSome then refuse c ⟨stBusyRunning, 0⟩ d
  else
    let r : RateDetect := { cmd := c.id, dwellMs := field c.payload 4 2, apply := byteAt c.payload 6 != 0, pair := 0,
                            good := 0, brs := false, start := d.time.tick }
    begin_ c.id (busMod ch (fun x => { x with rate := some r }) d)

/-- The timeout of rate detection expires (R404). -/
def rateTimeout (ch : Fin 2) (d : Dev) : Dev :=
  match (busCh d ch).rate with
  | none => d
  | some r => completeId r.cmd stTimeout 0 [] (busMod ch (fun c => { c with rate := none }) d)

def cmdBusRead (c : Cmd) (ch : Fin 2) (d : Dev) : Dev :=
  let x := busCh d ch
  answer [] (le 4 (busState x) ++ le 4 (x.stats.get 0) ++ le 4 (x.stats.get 1) ++ tickBytes d) c d

def cmdTxFlush (c : Cmd) (ch : Fin 2) (d : Dev) : Dev :=
  let out := outstanding (busCh d ch)
  let d := forEach out (fun e d => txComplete ch e stAborted 0 e.dt d) d
  complete c 0 0 (le 2 out.length) d

def cmdFrameUs (c : Cmd) (ch : Fin 2) (d : Dev) : Dev :=
  let p := c.payload
  let fdf := byteAt p 1 == 1
  answer [(1 < byteAt p 0 || 1 < byteAt p 1 || 1 < byteAt p 2 || 15 < byteAt p 3 || (8 < byteAt p 3 && !fdf), ⟨stRange, 0⟩)]
    (le 4 (frameNs d ch (byteAt p 0 == 1) fdf (byteAt p 2 == 1) (byteAt p 3))) c d

def cmdRoleAssign (c : Cmd) (d : Dev) : Dev :=
  let r := c.target % 256
  let n := byteAt c.payload 0
  if 96 ≤ r || n = 0 || 127 < n then refuse c ⟨stRange, 0⟩ d
  else if (roleOf d r).state == 0 then refuse c (refused 0x70) d
  else
    let old := (roleOf d r).holder
    let prev := (roleOf d r).cand
    let d := epochUp r d
    let d := forEach ([old, prev].filter fun m => m != 0 && m != n) (fun m d => sendCommand 2 r m d) d
    let d := roleMod r (fun x =>
      { x with state := 2, cand := n, holder := 0, former := if old = 0 then x.former else old, misses := 0 }) d
    let d := sendCommand 1 r n d
    complete c 0 0 (le 4 (roleEpoch d r)) d

def cmdRoleRead (c : Cmd) (d : Dev) : Dev :=
  let r := c.target % 256
  let x := roleOf d r
  answer [(96 ≤ r, ⟨stRange, 0⟩)]
    (bytesOf (busRead d (addrOf kBusRoleState r)) ++ le 4 (roleEpoch d r) ++ padTo 3 (x.spares.map fun n => BitVec.ofNat 8 n)
      ++ le 1 0 ++ le 8 x.hbDt) c d

/-! ## The commands -/

def execRosterMiss (r : Fin 96) (s : State) := quiet (rosterMiss r) s
def execAssignTimeout (r : Fin 96) (s : State) := quiet (assignTimeout r) s
def execStandbyRepeat (r : Fin 96) (node : Fin 128) (s : State) := quiet (standbyRepeat r node) s
def execOwnHeartbeat (ch : Fin 2) (s : State) := quiet (ownHeartbeat ch) s
def execRmbSegmentTimeout (ch : Fin 2) (c : Fin 8) (s : State) := quiet (rmbTimeout ch c) s
def execReferenceSend (ch : Fin 2) (k : Nat) (s : State) := quiet (referenceSend ch k) s
def execTtTimeMark (ch : Fin 2) (col : Fin 32) (s : State) := quiet (ttMark ch col) s
def execTxEnableExpired (ch : Fin 2) (s : State) := quiet (txEnExpired ch) s
def execReferenceLost (ch : Fin 2) (s : State) := quiet (refLost ch) s

/-- BUS_TX_TAKE reads the entry's host bytes at the ring's head (R409, R410). -/
def execBusTxTake (ch : Fin 2) (s : State) : Host.Outcome State Fault Refusal :=
  let r := ringOf s.dev (txRing ch)
  loud (txTake ch (memRead s.mem (r.slotAt (txRing ch) r.head) 96)) s

def execBusTxDone (ch : Fin 2) (out : TxOutcome) (ago : Nat) (s : State) := loud (txDone ch out ago) s
def execBusErrorDetected (ch : Fin 2) (transmitting : Bool) (e : BusError) (ago : Nat) (s : State) :=
  loud (busErrorIn ch transmitting e ago) s
def execBusRecovered (ch : Fin 2) (us : Nat) (s : State) := quiet (busRecovered ch us) s
def execTransceiverDown (ch : Fin 2) (s : State) := loud (xcvrDown ch) s
def execTransceiverUp (ch : Fin 2) (s : State) := quiet (xcvrUp ch) s
def execBusModeApply (ch : Fin 2) (s : State) := loud (boundary busHook (busIdleWait ch true)) s

/-- A TM_PRIO that waits for a basic cycle applies here while no matrix runs (R436; log entry 22). -/
def busIdleParams (ch : Fin 2) (d : Dev) : Dev :=
  boundary busHook (fun w => busIdleWait ch false w || (busMode d ch != 3 && w.bnd == .basicCycle ch)) d

def execBusIdleParamApply (ch : Fin 2) (s : State) := loud (busIdleParams ch) s
def execRateDwellEnd (ch : Fin 2) (s : State) := quiet (dwellEnd ch) s
def execRateDetectTimeout (ch : Fin 2) (s : State) := quiet (rateTimeout ch) s
def execBusRateDetect (c : CmdId) (s : State) := quiet (withCmd 0x1701 c (busCmd cmdRateDetect)) s
def execBusRead (c : CmdId) (s : State) := quiet (withCmd 0x1702 c (busCmd cmdBusRead)) s
def execBusTxFlush (c : CmdId) (s : State) := loud (withCmd 0x1703 c (busCmd cmdTxFlush)) s
def execBusFrameUs (c : CmdId) (s : State) := quiet (withCmd 0x1704 c (busCmd cmdFrameUs)) s
def execBusRoleAssign (c : CmdId) (s : State) := quiet (withCmd 0x1705 c cmdRoleAssign) s
def execBusRoleRead (c : CmdId) (s : State) := quiet (withCmd 0x1706 c cmdRoleRead) s

end Sys2Proof.Machine
end

