-- ==== Sys2Proof/WellFormed.lean ====
section
/-!
DEFINITION. WellFormed.lean: the commands whose operands a sender can bring. The meanings are total, so that they answer for
the others too; a statement may ask for well-formed operands where the spec bounds them.
-/
namespace Sys2Proof

/-- A remote command has one of the 32 tags of its channel (R101). -/
def CmdId.wf : CmdId → Bool
  | .host _ => true
  | .remote _ tag => tag.toNat ≤ 31

/-- The first byte of a transaction: its highest bit says write (R57). -/
def headByte (mosi : List Byte) : Nat := (mosi.headD 0).toNat

/-- A window has as many MCLK periods as one of the decimation ratios (R141). -/
def AfeSample.wf (x : AfeSample) : Bool :=
  [800000, 400000, 160000, 80000, 40000, 16000, 8000, 4000, 2000, 1000].contains x.bits.length

/-- A frame carries the bytes its DLC says, a remote frame none, and only FD frames switch rate (R398, R408). -/
def BusFrame.wf (f : BusFrame) : Bool :=
  (if f.rtr then f.data.isEmpty && !f.fdf else f.data.length == Machine.dlcBytes f.fdf f.dlc) && (f.fdf || !f.brs && !f.esi) &&
    (f.xtd || f.id.toNat < 2048)

/-- Lengths in bits of a signal's navigation units (R448). -/
def navBits (signal : Fin 256) : List Nat :=
  match signal.val with
  | 0x10 => [30]
  | 0x11 => [300]
  | 0x20 => [240]
  | 0x21 => [244]
  | 0x30 => [600, 264]
  | 0x31 => [288]
  | _ => []

/-- One measurement at most per channel and band (R453). -/
def measOnce (meas : List GnsMeas) : Bool := decide (meas.map fun m => (m.ch, m.band)).Nodup

/-- The operands are ones the spec admits. -/
def WellFormed (i : Instr) : Bool :=
  match i with
  | .registerWrite mosi => 128 ≤ headByte mosi
  | .hstBootCtrlReset _ => true
  | .hstBootCtrlLoader _ => true
  | .hstIntStatusWrite _ => true
  | .hstIntForceWrite _ => true
  | .hstLinkErrsRead => true
  | .hstDtLoRead => true
  | .hstTickLoRead => true
  | .qSizeWrite _ _ => true
  | .qCtrlWrite _ _ => true
  | .qDoorbellWrite _ _ => true
  | .ringWindowWrite addr words => 0x8000 ≤ addr.toNat && addr.toNat < 0xC000 && 1 ≤ words.length && words.length ≤ 64
  | .queueAgeIrq _ => true
  | .nop c => c.wf
  | .devInfo c => c.wf
  | .run c => c.wf
  | .stop c => c.wf
  | .safeNow c => c.wf
  | .resetReq c => c.wf
  | .paramRead c => c.wf
  | .paramWrite c => c.wf
  | .paramWritePaired c => c.wf
  | .paramWriteBlob c => c.wf
  | .paramInfo c => c.wf
  | .cfgBegin c => c.wf
  | .cfgCommit c => c.wf
  | .cfgAbort c => c.wf
  | .cmdAbort c => c.wf
  | .imgOpen c => c.wf
  | .imgData c => c.wf
  | .imgClose c => c.wf
  | .imgApply c => c.wf
  | .imgInfo c => c.wf
  | .imgErase c => c.wf
  | .fwOpen c => c.wf
  | .fwData c => c.wf
  | .fwClose c => c.wf
  | .fwSwitch c => c.wf
  | .evtFetch c => c.wf
  | .commandTimeout c => c.wf
  | .batchDiscard _ => true
  | .blobAssemblyDiscard _ _ => true
  | .hostSilence => true
  | .remoteCommanderSilence _ _ => true
  | .startGateAdmit => true
  | .tickEdge => true
  | .setClose => true
  | .liftRotDownlink _ _ => true
  | .liftApply _ _ => true
  | .liftSafe _ => true
  | .liftRelease _ => true
  | .liftKeepaliveDownlink => true
  | .liftKeepaliveUplink => true
  | .liftRotUplink _ _ _ => true
  | .liftSafeReport _ => true
  | .liftUrg _ _ => true
  | .liftEvt _ _ => true
  | .liftFrameDiscard _ _ _ _ => true
  | .liftLockLoss _ => true
  | .liftSilence => true
  | .snowploughStop _ => true
  | .liftErrorSecond => true
  | .conversionEnd _ smp => smp.wf
  | .polaritySwap _ => true
  | .spareSlotEnd _ _ => true
  | .modulatorStuck _ => true
  | .spareCalibrationEnd _ => true
  | .blankingEdge _ _ => true
  | .blankingStuck _ => true
  | .excitationComplianceBreak _ => true
  | .afeStale _ => true
  | .guardFault _ => true
  | .afeRead c => c.wf
  | .afeLeadNow c => c.wf
  | .dlxSweepStart _ => true
  | .sweepPointEnd _ _ => true
  | .dxsReferenceCheck _ => true
  | .dxsCalibrationEnd _ => true
  | .dlxStale _ => true
  | .dlxRead c => c.wf
  | .dlxPointRead c => c.wf
  | .dlxProbeCal c => c.wf
  | .dlxRefCapture c => c.wf
  | .dlxRefSet c => c.wf
  | .dlxFit c => c.wf
  | .dlxCalRead c => c.wf
  | .filterTick _ smps => !smps.isEmpty && smps.length ≤ 1000
  | .freqGate _ => true
  | .currentLimit _ => true
  | .currentLimitEnd _ => true
  | .pinThermalShutoff _ => true
  | .pinThermalRestart _ => true
  | .openLoad _ => true
  | .overLoad _ => true
  | .shortToSupply _ => true
  | .reverseBlocking _ => true
  | .bankLow _ => true
  | .fioRead c => c.wf
  | .fioClear c => c.wf
  | .fioCntClear c => c.wf
  | .fioBankRead c => c.wf
  | .vlvDelayEnd _ => true
  | .deferReject _ => true
  | .peakReached _ _ => true
  | .peakEnd _ _ => true
  | .holdEnd _ => true
  | .decayEnd _ _ => true
  | .vlvTrip _ _ => true
  | .vlvThermalShutoff _ _ => true
  | .vlvThermalRestart _ _ => true
  | .openCoil _ => true
  | .regulatorFault _ => true
  | .dutyBin _ => true
  | .f2WaitExpired _ => true
  | .vlvPulse c => c.wf
  | .vlvRead c => c.wf
  | .vlvClear c => c.wf
  | .ctlGate _ => true
  | .ctlComputeDone _ _ _ => true
  | .ctlDeadline _ => true
  | .coastExpired _ => true
  | .startSeedTimeout _ => true
  | .engineFault _ => true
  | .carveHandover _ => true
  | .ctlCoefWrite c => c.wf
  | .ctlSetWrite c => c.wf
  | .ctlSetSeal c => c.wf
  | .ctlSrcSelect c => c.wf
  | .ctlResume c => c.wf
  | .ctlStateWrite c => c.wf
  | .ctlRead c => c.wf
  | .ctlClearFlags c => c.wf
  | .ctlAdmitCheck c => c.wf
  | .ctlSetRead c => c.wf
  | .serviceStep => true
  | .waterBlockJournalled _ => true
  | .aerEvaluation => true
  | .resumeRecord => true
  | .autoRelease => true
  | .svcStart c => c.wf
  | .svcStop c => c.wf
  | .svcAbort c => c.wf
  | .svcNext c => c.wf
  | .svcRead c => c.wf
  | .svcRelease c => c.wf
  | .svcFaultClear c => c.wf
  | .svcRecipeLoad c => c.wf
  | .svcWaterDose c => c.wf
  | .svcLedgerRead c => c.wf
  | .svcLotOpen c => c.wf
  | .svcLotClose c => c.wf
  | .busFrameReceived _ f => f.wf
  | .rosterHeartbeat _ f => f.wf
  | .rosterData _ f => f.wf
  | .rosterMiss _ => true
  | .assignTimeout _ => true
  | .standbyRepeat _ _ => true
  | .ownHeartbeat _ => true
  | .rmbRequestSegment _ f => f.wf
  | .rmbSegmentTimeout _ _ => true
  | .busReferenceReceived _ f => f.wf
  | .timeInfoReceived _ f => f.wf
  | .referenceSend _ _ => true
  | .ttTimeMark _ _ => true
  | .txEnableExpired _ => true
  | .referenceLost _ => true
  | .busTxTake _ => true
  | .busTxDone _ _ _ => true
  | .busErrorDetected _ _ _ _ => true
  | .busRecovered _ _ => true
  | .transceiverDown _ => true
  | .transceiverUp _ => true
  | .busModeApply _ => true
  | .busIdleParamApply _ => true
  | .rateDwellEnd _ => true
  | .rateDetectTimeout _ => true
  | .busRateDetect c => c.wf
  | .busRead c => c.wf
  | .busTxFlush c => c.wf
  | .busFrameUs c => c.wf
  | .busRoleAssign c => c.wf
  | .busRoleRead c => c.wf
  | .gnssEpoch _ meas _ => measOnce meas
  | .navUnitComplete u => (navBits u.signal).contains u.bits && u.bits ≤ 8 * u.data.length
  | .solutionTimeout => true
  | .dtStep => true
  | .holdoverUpdate => true
  | .leapSecond _ _ => true
  | .timePulse _ => true
  | .sampleCountCheck _ _ => true
  | .gsclkGap _ => true
  | .agcCheck _ codes => 0 < codes.toList.sum
  | .bandDrop _ _ => true
  | .snapCaptureStart => true
  | .snapCaptureEnd l1 l5 _ => l1.length ≤ 1024000 && l5.length ≤ 1024000
  | .snapProcessDone _ => true
  | .gnsRead c => c.wf
  | .gnsTimeSet c => c.wf
  | .gnsSurveyRestart c => c.wf
  | .gnsSnap c => c.wf
  | .gnsSnapRelease c => c.wf
  | .gnsChRead c => c.wf
  | .powerOn _ => true
  | .powerOnReset => true
  | .nrstRelease _ => true
  | .startUp _ _ _ _ _ => true
  | .liftStartTimeout => true
  | .fieldDieStartUp _ => true
  | .fieldWatchdogReset => true
  | .wakeAttemptFail _ _ => true
  | .domainReturnTimeout _ _ => true
  | .coreBrownoutLowPower _ late => !late.getLsbD 0
  | .coreBrownoutFull => true
  | .chaletContentLoss => true
  | .regulatorReady => true
  | .sleepReq c => c.wf
  | .sleepEntry => true
  | .padRelease c => c.wf
  | .pwrRead c => c.wf
  | .wake _ late => !late.getLsbD 0
  | .fieldStepBegin _ => true
  | .fieldStepEnd _ => true
  | .f3ClassShed _ => true
  | .f3ClassRelease _ => true
  | .logicStepBegin _ => true
  | .logicStepEnd _ => true
  | .vfldHigh _ => true
  | .housekeepingRound _ => true
  | .thermalCapStep => true
  | .lockstepMismatch _ _ => true
  | .supervisorHeartbeatMiss => true
  | .patrolStall => true
  | .eccUncorrectable _ _ _ => true
  | .quarantineDone _ _ => true
  | .groomingPass => true
  | .groomingCommit _ => true
  | .controlDieShutdown _ _ => true
  | .fieldDieShutdown => true
  | .fieldLatchClear => true
  | .flashOperationDone => true
  | .hltRead c => c.wf
  | .hltGroomNow c => c.wf
  | .hltLogRead c => c.wf
  | .hltDemandClear c => c.wf
  | .lotRecordSigned => true
  | .idAttest c => c.wf
  | .idRead c => c.wf
  | .idEnrol c => c.wf
  | .idRecordFetch c => c.wf
  | .idNonce c => c.wf
  | .readTransaction mosi => headByte mosi < 128
  | .openLoadEnd _ => true
  | .overLoadEnd _ => true
  | .shortToSupplyEnd _ => true
  | .reverseBlockingEnd _ => true
  | .openCoilEnd _ => true
  | .flashRefreshDue _ _ => true
  | .signalAcquisition _ _ _ _ => true

end Sys2Proof
end

