-- ==== Sys2Proof/Decode.lean ====
section
/-!
DEFINITION. Decode.lean: the commands a table word spells. No row of spec/opcode_table.json gives bits, so no word spells
one: the commands reach the block as transactions of its links, as wires and as time, and `Instr` names them.
-/
namespace Sys2Proof

/-- The command whose row the table gives these bits: none, for any word. -/
def decodeTableWord (_nbits _w : Nat) : Option Instr := none

end Sys2Proof
end

