-- ==== Sys2Proof/Machine/Gnss.lean ====
section
/-!
DEFINITION. Machine/Gnss.lean: satellite timing and device time (11): time quality, steering and steps, holdover, position,
sample interface, tracking channels, records, time pulse, snapshot captures and their commands.
-/
namespace Sys2Proof.Machine

/-- Changes the state of satellite timing. -/
def gnsMod (f : GnsSt → GnsSt) (d : Dev) : Dev := { d with gns := f d.gns }

/-- Changes a tracking channel. -/
def gchMod (n : Fin 32) (f : GnsCh → GnsCh) (d : Dev) : Dev := gnsMod (fun g => { g with chans := vMod g.chans n f }) d

/-- Changes the snapshot buffer's registers. -/
def snapMod (f : SnapSt → SnapSt) (d : Dev) : Dev := gnsMod (fun g => { g with snap := f g.snap }) d

/-- Raises an event of the baseband on port 3 (R480). -/
def gnsRaise (code : Nat) (data : List Byte) (d : Dev) : Dev := raise 3 code (subPath 8) data d

/-- `GNS_UNC_NS` (R443). -/
def uncNs (d : Dev) : Nat :=
  match d.gns.unc with
  | none => 0xFFFFFFFF
  | some u => if u < 0xFFFFFFFE then u else 0xFFFFFFFE

/-- Domain D3 runs and `GNS_ENABLE` lets GTE and GAE track (R475, R477). -/
def gnsTracks (d : Dev) : Bool := pget d kGnsEnable 0 == 1 && !d.gns.hold && domOn d 3

/-- GREFO runs; otherwise it is low (R445). -/
def grefoRuns (d : Dev) : Bool := pget d kGnsEnable 0 != 0

/-- The sample interface runs (R475). -/
def gnsSamples (d : Dev) : Bool :=
  domOn d 3 && (pget d kGnsEnable 0 == 1 || (pget d kGnsEnable 0 == 2 && d.gns.snap.st == 1))

/-- Temperature of the sensor `GNS_HO_SENSOR` names, in 0.01 degrees (R465). -/
def hoTemp (d : Dev) : Int :=
  (vAt d.hlt.sensors (pget d kGnsHoSensor 0) { value := 0, rounds := 0, failed := false, warn := false, ofs := 0, history := [] }).value

/-- Channels in use. -/
def gnsUsed (d : Dev) : List (Fin 32 × GnsCh) := (vIdx d.gns.chans).filter fun p => p.2.used

/-- A position is held (R459): a survey's mean or an entered one. -/
def posHeld (d : Dev) : Bool := pget d kGnsPosMode 0 == 2 || (pget d kGnsPosMode 0 == 1 && d.gns.held.isSome)

/-- `GNS_STATE` (R478). -/
def gnsState (d : Dev) : Nat :=
  let g := d.gns
  g.tq + b2n g.slewing * 4 + b2n (posHeld d) * 8 + b2n g.trained * 16 + b2n g.hold * 32 + b2n g.cap * 64
    + b2n (g.lost.get 0) * 128 + b2n (g.lost.get 1) * 256 + (gnsUsed d).length * 65536 + sat8 g.sats * 2 ^ 24

/-- `MIR_TQ` (R444). -/
def mirTq (d : Dev) : Nat :=
  timeWord d * 65536 + b2n d.gns.slewing * 2 ^ 15 + b2n (posHeld d) * 2 ^ 14
    + (if 63 < d.gns.sats then 63 else d.gns.sats) * 256 + d.gns.steps % 256

/-! ## Time quality (R442, R464) -/

/-- Moves the time quality and raises EV_GNS_TQ. -/
def tqMove (new : Nat) (d : Dev) : Dev :=
  let old := d.gns.tq
  if old = new then d
  else
    let d := gnsMod (fun g => { g with tq := new }) d
    gnsRaise 0x8001 (le 1 new ++ le 1 old ++ le 2 0 ++ le 4 (uncNs d)) d

/-- The steering value of the holdover model, `t` ms after the last valid solution (R465, R466). -/
def modelSteer (d : Dev) (t : Nat) : Int :=
  let g := d.gns
  g.y0 + divRound (g.a * (t : Int)) 1000000000 + divRound (g.c * (hoTemp d - g.theta0)) 100

/-- Sets the steering value, which the DT of the coming tick edges follows (R439). -/
def setSteer (y : Int) (d : Dev) : Dev := { d with time := { d.time with steer := y } }

/-- Enters TQ1 (R464, R466). -/
def toHoldover (d : Dev) : Dev :=
  if 2 ≤ d.gns.tq then
    let d := gnsMod (fun g => { g with theta0 := hoTemp d, acc := 0, accMs := 0, good := 0, slewing := false }) d
    tqMove 1 (setSteer (modelSteer d (d.time.tick - d.gns.lastValid)) d)
  else d

/-- The uncertainty `t` ms after the last valid solution, in ns (R466). -/
def holdoverUnc (g : GnsSt) (t : Nat) : Nat := ceilDiv (g.u0 + g.acc + g.dBound * t * t / 2000000) 1000000000

/-- Once per second in TQ1 (R466). -/
def holdoverUpdate (d : Dev) : Dev :=
  if d.gns.tq = 1 then
    let t := d.time.tick - d.gns.lastValid
    let dTheta := (hoTemp d - d.gns.theta0).natAbs
    let d := gnsMod (fun g =>
      { g with
        acc := g.acc + (g.sigmaY * 100 + g.sigmaTheta * dTheta) * 10 * (t - g.accMs)
        accMs := t }) d
    let d := gnsMod (fun g => { g with unc := some (holdoverUnc g t) }) d
    setSteer (modelSteer d t) d
  else d

/-- No valid solution, or only single-band ones, for 3 s (R464). -/
def solutionTimeout (d : Dev) : Dev :=
  if 3000 ≤ d.time.tick - d.gns.lastValid then toHoldover d
  else if d.gns.tq = 3 ∧ 3000 ≤ d.time.tick - d.gns.lastDual then tqMove 2 d
  else d

/-- Limp mode (R440, R464): TQ0, uncertainty unknown, no steering. -/
def gnsLimp (d : Dev) : Dev :=
  setSteer 0 (tqMove 0 (gnsMod (fun g => { g with unc := none, setMs := none, slewing := false, good := 0 }) d))

/-- A tick of lock history (R465) and of the uncertainty a given time carries in TQ0 (R442). -/
def gnsTick (d : Dev) : Dev :=
  let d := match d.gns.setMs with
    | some m => if d.gns.tq ≠ 0 then d
      else gnsMod (fun g => { g with setMs := some (m + 1), unc := some (g.dueUnc * 1000 + ceilDiv (m + 1) 2) }) d
    | none => d
  if 2 ≤ d.gns.tq then
    let d := gnsMod (fun g => { g with lockMs := g.lockMs + 1 }) d
    if d.gns.lockMs = 86400000 then
      let d := gnsMod (fun g => { g with trained := true }) d
      gnsRaise 0x800A (le 4 0 ++ le 4 d.gns.sigmaY) d
    else d
  else d

/-- A Grooming pass updates a and D from the lock history by a rule the spec does not give: free values (R465, R533). -/
def gnsGroom (d : Dev) : Dev :=
  if d.gns.lockMs = 0 then d
  else
    let a := (Config.freeWord d.free).toInt
    let dB := (Config.freeWord (d.free + 1)).toNat
    let d := gnsMod (fun g => { g with a := a, dBound := dB }) (takeFree (takeFree d))
    gnsRaise 0x800A (le 1 1 ++ le 3 0 ++ le 4 d.gns.sigmaY) d

/-! ## Steps (R462, R469) -/

/-- fs in a second. -/
def fsPerS : Int := 1000000000000000

/-- The first whole second of DT after a moment and at least 10 s after the previous step (R462). -/
def stepSecond (d : Dev) (from_ : Int) : Int :=
  let s := (from_ / fsPerS + 1) * fsPerS
  match d.gns.lastStep with
  | none => s
  | some p =>
    let earliest := p + 10 * fsPerS
    if earliest ≤ s then s else ((earliest + fsPerS - 1) / fsPerS) * fsPerS

/-- Ends the command of a scheduled `GNS_TIME_SET` that another step replaces (log entry 23). -/
def dropDue (d : Dev) : Dev :=
  let d := match d.gns.dueCmd with
    | some c => completeId c stAborted 0 [] d
    | none => d
  gnsMod (fun g => { g with due := none, dueCmd := none }) d

/-- DT steps at its scheduled second (R462): the tick spacing stays, the coming edges move with DT (R24). -/
def dtStep (d : Dev) : Dev :=
  match d.gns.due with
  | none => d
  | some (s, chg) =>
    if s < d.time.nextDt then
      let old := if d.time.dtFs < s then s else d.time.dtFs
      let new := old + chg
      let cmd := d.gns.dueCmd
      let given := d.gns.dueCause == 1
      let d := { d with time := { d.time with dtFs := new, nextDt := d.time.nextDt + chg } }
      let d := gnsMod (fun g =>
        { g with
          due := none
          dueCmd := none
          steps := g.steps + 1
          lastStep := some new
          slewing := false
          lastPulse := g.lastPulse.map (· + chg)
          pulseEnd := g.pulseEnd + chg
          setMs := if given then some 0 else g.setMs
          unc := if given then some (g.dueUnc * 1000) else g.unc }) d
      let d := gnsRaise 0x8002 (le 8 (toBits 64 (chg / 1000000)) ++ le 1 (b2n given) ++ le 1 d.gns.steps) d
      let d := busDtStep old new 1 (busDtStep old new 0 d)
      match cmd with
      | some c => completeId c 0 0 (tickBytes d) d
      | none => d
    else d

/-! ## Position (R459) -/

/-- The position in use. -/
def posSet (p : Vector Word 3) (sigma mode : Nat) (d : Dev) : Dev :=
  gnsMod (fun g => { g with pos := p, posSigma := sigma, posMode := mode }) d

/-- The entered position. -/
def posFix (d : Dev) : Dev :=
  let b := pbytes d kGnsPosFix 0
  posSet (Vector.ofFn fun i => w32 (field b (4 * i) 4)) (field b 12 4) 2 d

/-- Restarts the survey. -/
def surveyRestart (d : Dev) : Dev := gnsMod (fun g => { g with survey := none, held := none }) d

/-- Position after a valid solution. -/
def posUpdate (x : GnsSol) (d : Dev) : Dev :=
  let words (p : Vector Int 3) : Vector Word 3 := Vector.ofFn fun i => iw (p.get i)
  match pget d kGnsPosMode 0 with
  | 2 => posFix d
  | 1 =>
    match d.gns.held with
    | some (p, s) => posSet (words p) s 1 d
    | none =>
      let v := d.gns.survey.getD { start := d.time.tick, sum := Vector.replicate 3 0, n := 0 }
      let sum : Vector Int 3 := Vector.ofFn fun i => v.sum.get i + x.pos.get i
      let n := v.n + 1
      if pget d kGnsSurveyMin 0 * 60000 ≤ d.time.tick - v.start && x.surveySigma ≤ pget d kGnsSurveyCm 0 then
        let mean : Vector Int 3 := Vector.ofFn fun i => divRound (sum.get i) n
        let d := gnsMod (fun g => { g with survey := none, held := some (mean, x.surveySigma) }) d
        let d := gnsRaise 0x8008 (mean.toList.flatMap fun m => le 4 (toBits 32 m)) d
        posSet (words mean) x.surveySigma 1 d
      else
        let s : Survey := { start := v.start, sum := sum, n := n }
        posSet (words x.pos) x.surveySigma 0 (gnsMod (fun g => { g with survey := some s }) d)
  | _ => posSet (words x.pos) x.surveySigma 0 d

/-! ## Solutions (R457-R464) -/

/-- 2 for a dual-band solution, 1 for a single-band one. -/
def solKind (d : Dev) (x : GnsSol) : Nat := if 4 ≤ x.dual && pget d kGnsBands 0 == 3 then 2 else 1

/-- A solution is valid (R458): its satellites, its unknowns, at most three exclusions and the residual test. -/
def solValid (d : Dev) (x : GnsSol) : Bool :=
  x.passes && x.excluded.length ≤ 3 && 4 ≤ x.sats &&
    x.systems + (if posHeld d then 0 else 3) + 2 ≤ x.sats

/-- 3 sigma_t + GNS_DELAY_UNC_NS in 0.01 ns. -/
def solBound (d : Dev) (x : GnsSol) : Nat := 3 * x.sigmaT + 100 * pget d kGnsDelayUncNs 0

/-- The steering correction of R461 in 10^-12. -/
def steerCorr (d : Dev) (x : GnsSol) : Int :=
  let lim : Int := pget d kGnsSlewNsS 0 * 1000
  clampI (-lim) lim (divRound (-x.e * 100) (pget d kGnsLoopS 0))

/-- Schedules, keeps off or drops the step of a solution (R462); e is extrapolated with the correction's rate. -/
def stepPlan (x : GnsSol) (at_ : Int) (d : Dev) : Dev :=
  let d := dropDue d
  if 500000 < x.e.natAbs then
    let s := stepSecond d at_
    let e := x.e * 100000 + steerCorr d x * (s - at_) / 1000000000000
    gnsMod (fun g => { g with due := some (s, -e), dueCause := 0 }) d
  else d

/-- A valid solution's effect on DT (R461-R465). -/
def solApply (x : GnsSol) (at_ : Int) (d : Dev) : Dev :=
  let kind := solKind d x
  let g := d.gns
  if g.tq == 1 && g.good < 5 then d
  else
    let u := solBound d x + x.e.natAbs * 10
    let fresh := g.tq < 2
    let d := gnsMod (fun g =>
      { g with
        unc := some (ceilDiv u 100)
        u0 := u * 10000000
        acc := 0
        accMs := 0
        setMs := none
        slewing := (g.slewing || fresh) && solBound d x ≤ x.e.natAbs * 10
        y0 := x.fitY0
        a := if g.trained then g.a else x.fitA
        c := x.fitC
        sigmaY := if g.trained then x.fitSigmaY else 50000
        sigmaTheta := if g.trained then x.fitSigmaTheta else 20000 }) d
    let d := tqMove (if fresh then kind + 1 else if kind = 2 then 3 else d.gns.tq) d
    stepPlan x at_ (setSteer (x.freq + steerCorr d x) d)

/-- A valid solution: what it leaves besides DT; TAI - UTC is that of the system in `GNS_TIME_REF` (R441). -/
def solTake (x : GnsSol) (d : Dev) : Dev :=
  let d := gnsMod (fun g =>
    { g with
      solved := true
      sats := x.sats
      good := g.good + 1
      lastValid := d.time.tick
      lastDual := if solKind d x = 2 then d.time.tick else g.lastDual
      utcOfs := match vAt x.utc (pget d kGnsTimeRef 0) none with | some o => some o | none => g.utcOfs }) d
  posUpdate x d

/-! ## Records on Q10 (R453-R456, R473) -/

/-- A Q10 entry: header, payload and trailer (R453). -/
def q10 (d : Dev) (kind ch sys sv sig steps epoch time : Nat) (payload : List Byte) : List Byte :=
  le 1 kind ++ le 1 ch ++ le 1 sys ++ le 1 sv ++ le 1 sig ++ le 1 steps ++ le 2 0 ++ le 8 epoch ++ padTo 40 payload
    ++ le 4 (lastBib d) ++ le 2 time ++ le 2 0

/-- Writes a record where `GNS_OUT` has its bit. -/
def q10Put (bit : Nat) (b : List Byte) (d : Dev) : Dev := if bitOf (pget d kGnsOut 0) bit then emit (.push 10 b) d else d

/-- The multipath correction in force (R451), in cm. -/
def mpCorr (d : Dev) (m : GnsMeas) : Int := if pget d kGnsMpEnable 0 = 1 then m.mpErr else 0

/-- The multipath indicator in force. -/
def mpInd (d : Dev) (m : GnsMeas) : Nat := if pget d kGnsMpEnable 0 = 1 then m.mpInd else 0

/-- The multipath estimator excludes a band (R451). -/
def mpExcluded (d : Dev) (m : GnsMeas) : Bool := pget d kGnsMpExcl 0 ≤ mpInd d m

/-- A band serves in the solution: neither exclusion keeps it out (R451, R458). -/
def inSol (d : Dev) (m : GnsMeas) : Bool := m.inSolution && !mpExcluded d m && !m.residual

/-! ## Lock (R452) -/

/-- One ms of a band's loops: code lock after 100 ms within 0.1 chip, carrier lock after 100 ms above 0.8. Carrier lock lost and
regained is a cycle slip, from which the lock time runs anew; it counts the ms in carrier lock (log entry 140). -/
def lockStep (x : GnsLock) (s : Int × Nat) : GnsLock :=
  let carrier := if 800 < s.2 then x.carrier + 1 else 0
  let has : Bool := 100 ≤ carrier
  { code := if s.1.natAbs ≤ 100 then x.code + 1 else 0
    carrier := carrier
    lost := !has && (x.lost || 100 ≤ x.carrier)
    slip := x.slip || has && x.lost
    ms := if has then (if x.lost then 0 else x.ms + 1) else x.ms
    weak := x.weak }

/-- A band's lock at an epoch: the ms since the last one, and a jump of more than a quarter cycle, which is a slip too. -/
def lockEpoch (x : GnsLock) (loops : List (Int × Nat)) (jump : Int) : GnsLock :=
  let y := loops.foldl lockStep { x with slip := false }
  if 250 < jump.natAbs then { y with slip := true, ms := 0 } else y

/-- A band that is followed no more has no lock. -/
def lockDrop (x : GnsLock) : GnsLock := { x with code := 0, carrier := 0, lost := x.lost || 100 ≤ x.carrier }

/-- A band has code lock. -/
def codeLocked (x : GnsLock) : Bool := 100 ≤ x.code

/-- The lock time of a channel's band, in s. -/
def lockSec (c : GnsCh) (b : Fin 2) : Nat := (c.lock.get b).ms / 1000

/-- The bands of a channel with code lock, as a mask. -/
def codeMask (c : GnsCh) : Nat := b2n (codeLocked (c.lock.get 0)) + 2 * b2n (codeLocked (c.lock.get 1))

/-- A band of a channel loses lock. -/
def bandUnlock (b : Fin 2) (c : GnsCh) : GnsCh :=
  { c with
    lock := vMod c.lock b lockDrop
    locked := if bitOf c.locked b then c.locked - 2 ^ b.val else c.locked }

/-- The measurement payload (R454). -/
def measPayload (d : Dev) (m : GnsMeas) : List Byte :=
  let c := d.gns.chans.get m.ch
  let lk := c.lock.get m.band
  le 8 (toBits 64 (m.range - divRound (mpCorr d m * 1024) 100)) ++ le 8 (toBits 64 m.phase) ++ le 4 (toBits 32 m.doppler)
    ++ le 2 m.cn0 ++ le 2 (min (lockSec c m.band) 65535) ++ le 2 m.rangeSigma ++ le 2 m.phaseSigma ++ le 2 (toBits 16 (mpCorr d m))
    ++ le 1 (mpInd d m)
    ++ le 1 (1 + b2n (100 ≤ lk.carrier) * 2 + b2n m.halfCycle * 4 + b2n lk.slip * 8 + b2n (inSol d m) * 16
        + b2n (mpExcluded d m) * 32 + b2n m.residual * 64)

/-- The solution payload (R456). -/
def solPayload (d : Dev) (sol : Option GnsSol) : List Byte :=
  let pos := bytesOf d.gns.pos.toList
  match sol with
  | none => le 8 0 ++ pos ++ le 9 0 ++ le 1 d.gns.posMode
  | some x =>
    le 4 (toBits 32 (clampI (-2 ^ 31) (2 ^ 31 - 1) x.e)) ++ le 4 (toBits 32 x.freq) ++ pos ++ le 1 x.sats ++ le 1 x.dual
      ++ le 2 x.tdop ++ le 4 x.sigmaT ++ le 1 (solKind d x) ++ le 1 d.gns.posMode

/-! ## Measurement epochs (R453, R457-R464) -/

/-- Releases a channel. -/
def chRelease (n : Fin 32) (d : Dev) : Dev := gchMod n (fun _ => GnsCh.reset) d

/-- Releases every channel. -/
def chReleaseAll (d : Dev) : Dev := gnsMod (fun g => { g with chans := Vector.replicate 32 GnsCh.reset, sats := 0 }) d

/-- A channel goes before another under the cap (R476): dual-band in the solution, then the higher L1 C/N0. -/
def capBefore (a b : Fin 32 × GnsCh) : Bool :=
  if a.2.dualIn != b.2.dualIn then a.2.dualIn
  else if a.2.cn0.get 0 != b.2.cn0.get 0 then b.2.cn0.get 0 < a.2.cn0.get 0
  else a.1 < b.1

/-- At the cap, the channels behind the first 16 are released (R476). -/
def capRelease (d : Dev) : Dev :=
  let us := gnsUsed d
  if d.gns.cap then
    forEach (us.filter fun c => 16 ≤ (us.filter fun o => capBefore o c).length) (fun c d => chRelease c.1 d) d
  else d

/-- The lock of every band at an epoch: what its loops did, or no lock where the epoch has no measurement of it; and for how long
its C/N0 has stayed below `GNS_CN0_MIN`, as that of a band without a measurement does (R449; log entry 169). -/
def lockTake (per cn0Min : Nat) (ms : List GnsMeas) (n : Fin 32) (c : GnsCh) : GnsCh :=
  let one (b : Fin 2) : GnsLock :=
    let x := c.lock.get b
    match ms.find? fun m => m.ch == n && m.band == b with
    | some m => { lockEpoch x m.loops m.jump with weak := if m.cn0 < cn0Min then x.weak + per else 0 }
    | none => lockDrop { x with slip := false, weak := x.weak + per }
  let c := { c with lock := Vector.ofFn one, dualIn := false }
  { c with locked := codeMask c }

/-- The measurement of a band with code lock enters its channel; the band's first crossing of `GNS_MP_EXCL` is an event (R451). -/
def measTake (m : GnsMeas) (d : Dev) : Dev :=
  let excl := mpExcluded d m
  let was := bitOf (d.gns.chans.get m.ch).mpOver m.band
  let d := gchMod m.ch (fun c =>
    { c with
      cn0 := c.cn0.set m.band m.cn0
      doppler := c.doppler.set m.band m.doppler
      mp := c.mp.set m.band (mpInd d m)
      mpOver := if excl then c.mpOver ||| 2 ^ m.band.val else c.mpOver - (if was then 2 ^ m.band.val else 0)
      dualIn := inSol d m && (c.dualIn || m.band == 0) }) d
  when (excl && !was) (gnsRaise 0x8006 (le 1 m.ch ++ le 1 m.band ++ le 1 (mpInd d m))) d

/-- Measurements of channels that follow their band. -/
def measValid (d : Dev) (ms : List GnsMeas) : List GnsMeas :=
  ms.filter fun m =>
    let c := d.gns.chans.get m.ch
    c.used && bitOf c.bands m.band && !d.gns.lost.get m.band

/-- What the baseband does when one of its parameters changes. -/
def gnsHook (addr : Nat) (d : Dev) : Dev :=
  let key := keyOf addr
  if key = kGnsEnable then
    if pget d kGnsEnable 0 = 1 then d else toHoldover (chReleaseAll d)
  else if key = kGnsPosMode then
    let d := surveyRestart d
    if pget d kGnsPosMode 0 = 2 then posFix d else d
  else if key = kGnsPosFix then (if pget d kGnsPosMode 0 = 2 then posFix d else d)
  else d

/-- `GNS_ANT_DELAY` subtracted from every pseudorange of a solution: the ranges' common delay leaves the receiver's clock term
alone, so e falls by it (R460). The ionosphere-free combination of R457 keeps a delay common to both bands. -/
def antDelay (d : Dev) (x : GnsSol) : GnsSol := { x with e := x.e - pgetI d kGnsAntDelay 0 }

/-- The time of a solution is that of the system in `GNS_TIME_REF`, brought to TAI (R457). -/
def timeRef (d : Dev) (x : GnsSol) : GnsSol := { x with e := x.e + vAt x.sysOfs (pget d kGnsTimeRef 0) 0 }

/-- A measurement epoch, `k` epoch periods from DT 0 (R453, R457). -/
def gnssEpoch (k : Nat) (meas : List GnsMeas) (sol : Option GnsSol) (d : Dev) : Dev :=
  let epoch := k * pget d kGnsMeasMs 0 * 1000000
  let d := boundary gnsHook (fun w => w.bnd == .gnsEpoch) d
  if gnsTracks d then
    let d := capRelease d
    let ms := measValid d meas
    let steps := d.gns.steps
    let time := timeWord d
    let d := gnsMod (fun g =>
      { g with chans := Vector.ofFn fun n =>
          lockTake (pget d kGnsMeasMs 0) (pget d kGnsCn0Min 0) ms n (g.chans.get n) }) d
    let ms := ms.filter fun m => bitOf (d.gns.chans.get m.ch).locked m.band
    let d := forEach ms measTake d
    let sol := sol.map fun x => antDelay d (timeRef d x)
    let d := match sol with
      | none => d
      | some x => forEach (x.excluded.take 3) (fun e =>
          gnsRaise 0x8007 (le 1 e.system ++ le 1 e.sv ++ le 2 e.residual)) d
    let valid : Option GnsSol := match sol with
      | some x => if solValid d x then some x else none
      | none => none
    let d := match valid with
      | some x => solApply x ((epoch : Int) * 1000000) (solTake x d)
      | none => gnsMod (fun g => { g with good := 0, sats := 0 }) d
    let d := forEach ms (fun m d =>
      let c := d.gns.chans.get m.ch
      q10Put 0 (q10 d 1 m.ch c.system c.sv m.signal steps epoch time (measPayload d m)) d) d
    q10Put 2 (q10 d 3 0xFF 0xFF 0 0 steps epoch time (solPayload d valid)) d
  else d

/-- The fragments of a navigation unit: 36 bytes each (R455). -/
def navFragments (u : NavUnit) : List (List Byte) :=
  let n := ceilDiv u.bits 288
  (List.range n).map fun i =>
    le 2 u.bits ++ le 1 (i * 16 + n % 16) ++ le 1 (b2n !u.passed) ++ padTo 36 ((u.data.drop (36 * i)).take 36)

/-- A navigation unit completes (R455). -/
def navUnit (u : NavUnit) (d : Dev) : Dev :=
  let c := d.gns.chans.get u.ch
  if gnsTracks d && c.used then
    forEach (navFragments u) (fun p d =>
      q10Put 1 (q10 d 2 u.ch c.system c.sv u.signal d.gns.steps u.dt (timeWord d) p) d) d
  else d

/-! ## Channels and samples (R446-R449) -/

/-- The most channels in use (R449, R476). -/
def chLimit (d : Dev) : Nat := if d.gns.cap then min 16 (pget d kGnsMaxCh 0) else pget d kGnsMaxCh 0

/-- GAE completes the acquisition of a satellite that transmits on the bands of a mask (R449). -/
def acquire (sys : Fin 3) (sv : Fin 64) (elev : Option Nat) (bands : Fin 4) (d : Dev) : Dev :=
  let follow := bands.val &&& pget d kGnsBands 0
  let high := match elev with
    | some e => pget d kGnsElevMask 0 ≤ e
    | none => true
  let known := (gnsUsed d).any fun p => p.2.system == sys.val && p.2.sv == sv.val
  let place : Option (Fin 32) := (List.finRange 32).find? fun n => !(d.gns.chans.get n).used
  match place with
  | none => d
  | some n =>
    if gnsTracks d && bitOf (pget d kGnsSystems 0) sys && sv != 0 && high && !known && follow != 0 &&
        (gnsUsed d).length < chLimit d then
      gchMod n (fun _ => { GnsCh.reset with used := true, system := sys, sv := sv, elev := elev, bands := follow }) d
    else d

/-- A band has stayed below `GNS_CN0_MIN` for 10 s (R449). -/
def bandDrop (n : Fin 32) (b : Fin 2) (d : Dev) : Dev :=
  let c := d.gns.chans.get n
  if c.used && bitOf c.bands b && 10000 ≤ (c.lock.get b).weak then
    let left := c.bands - 2 ^ b.val
    if left = 0 then chRelease n d
    else gchMod n (fun c => { bandUnlock b c with bands := left }) d
  else d

/-- Which bands a capture takes (R470). -/
def snapBand (s : SnapSt) (b : Fin 2) : Bool := s.bands == 0 || s.bands == b.val + 1

/-- A descriptor written to Q11, or kept until it has room (R472). -/
def snapDesc (d : Dev) (state filled found : Nat) : List Byte :=
  let s := d.gns.snap
  le 2 s.number ++ le 1 s.bands ++ le 1 state ++ le 4 filled ++ le 8 s.first ++ le 2 s.time ++ le 2 s.len ++ le 4 (lastBib d)
    ++ le 1 found ++ le 1 s.m1 ++ le 1 s.m5 ++ le 1 s.steps ++ le 4 0

/-- Writes the descriptor that waits, while Q11 has room: then the buffer takes its next state (R472). -/
def snapFlush (d : Dev) : Dev :=
  match d.gns.snap.desc with
  | none => d
  | some (b, next) =>
    let r := ringOf d 11
    if r.en && r.free = 0 then d
    else
      let b := b.take 20 ++ le 4 (lastBib d) ++ b.drop 24
      let next := if next = 3 && d.gns.hold then 2 else next
      let d := snapMod (fun s => { s with desc := none, st := next }) (emit (.push 11 b) d)
      gnsRaise 0x8009 (le 2 d.gns.snap.number ++ le 1 (byteAt b 3)) d

/-- Writes a descriptor. -/
def snapPut (b : List Byte) (next : Nat) (d : Dev) : Dev := snapFlush (snapMod (fun s => { s with desc := some (b, next) }) d)

/-- A capture whose samples are lost is abandoned (R472). -/
def snapAbandon (d : Dev) : Dev :=
  let cmd := d.gns.snap.cmd
  let d := snapMod (fun s => { s with cmd := none }) d
  let d := match cmd with
    | some c => completeId c stAborted 0 [] d
    | none => d
  snapPut (snapDesc d 3 0 0) 0 d

/-- A band's samples are lost (R446): every channel loses lock on it. -/
def bandLost (b : Fin 2) (d : Dev) : Dev :=
  if d.gns.lost.get b then gnsMod (fun g => { g with goodCounts := g.goodCounts.set b 0 }) d
  else
    let d := gnsMod (fun g =>
      { g with
        lost := g.lost.set b true
        goodCounts := g.goodCounts.set b 0
        chans := g.chans.map (bandUnlock b) }) d
    let d := gnsRaise 0x8004 (le 1 b ++ le 1 0) d
    if d.gns.snap.st == 1 && d.gns.snap.desc.isNone && snapBand d.gns.snap b then snapAbandon d else d

/-- The GSCLK count of 1 ms (R446). -/
def sampleCount (b : Fin 2) (n : Nat) (d : Dev) : Dev :=
  if !gnsSamples d then d
  else if n < 39996 || 40004 < n then bandLost b d
  else if d.gns.lost.get b then
    let k := d.gns.goodCounts.get b + 1
    if k = 10 then
      gnsRaise 0x8004 (le 1 b ++ le 1 1)
        (gnsMod (fun g => { g with lost := g.lost.set b false, goodCounts := g.goodCounts.set b 0 }) d)
    else gnsMod (fun g => { g with goodCounts := g.goodCounts.set b k }) d
  else d

/-- No GSCLK edge for 1 µs (R446). -/
def gsclkGap (b : Fin 2) (d : Dev) : Dev := if gnsSamples d then bandLost b d else d

/-- A code stands for magnitude 3 under `GNS_IF_FMT` (R445). -/
def codeIs3 (fmt code : Nat) : Bool := if fmt = 0 then code % 2 == 1 else code == 2

/-- The fraction of magnitude 3 among samples counted by their codes, in whole percent, I and Q alike (R447; log entry 170). -/
def magPct (fmt : Nat) (codes : Vector Nat 4) : Nat :=
  (vIdx codes).foldl (fun a p => a + if codeIs3 fmt p.1 then p.2 else 0) 0 * 100 / codes.toList.sum

/-- The fraction of samples of magnitude 3 over 100 ms (R447). -/
def agcCheck (b : Fin 2) (codes : Vector Nat 4) (d : Dev) : Dev :=
  if gnsSamples d then
    let pct := magPct (pget d kGnsIfFmt 0) codes
    let out := pct < 15 || 50 < pct
    let was := d.gns.agcOut.get b
    let d := gnsMod (fun g => { g with agcOut := g.agcOut.set b out }) d
    when (out && !was) (gnsRaise 0x8005 (le 1 b ++ le 1 pct)) d
  else d

/-- A leap second: the offset changes at the broadcast instant (R441). -/
def leapSecond (ofs : Int) (dt : Nat) (d : Dev) : Dev :=
  gnsRaise 0x8003 (le 4 (toBits 32 ofs) ++ le 8 dt) (gnsMod (fun g => { g with utcOfs := some ofs }) d)

/-! ## Time pulse (R468, R469) -/

/-- The pulse at a DT instant, `k` pulse periods from DT 0 (R468, R469). -/
def timePulse (k : Nat) (d : Dev) : Dev :=
  let hz := pget d kGnsPulseHz 0
  if hz = 0 then d
  else
    let per : Int := fsPerS / hz
    let at_ : Int := (k : Int) * per + pgetI d kGnsPulseOfs 0 * 100000
    let atStep := match d.gns.due with
      | some (s, _) => s = at_
      | none => false
    let near := match d.gns.lastPulse with
      | some p => decide (at_ - p < per / 2)
      | none => false
    if atStep || near then d
    else
      let d := boundary gnsHook (fun w => w.bnd == .pulse) d
      if d.gns.tq < pget d kGnsPulseMinTq 0 then d
      else gnsMod (fun g =>
        { g with
          pulses := g.pulses + 1
          lastPulse := some at_
          pulseEnd := at_ + pget d kGnsPulseWidthUs 0 * 1000000000
          pulseLow := pget d kGnsPulsePol 0 == 1 }) d

/-- The level of TPLS (R468): active from a pulse's leading edge to its trailing edge, inactive otherwise and while the pad is
held (R502). -/
def tplsHigh (d : Dev) : Bool :=
  match (if vAt d.pwr.pads 3 false then none else d.gns.lastPulse) with
  | some p => (p ≤ d.time.dtFs && d.time.dtFs < d.gns.pulseEnd) != d.gns.pulseLow
  | none => pget d kGnsPulsePol 0 == 1

/-! ## Snapshots (R470-R474) -/

/-- A capture begins with the first sample at or after a TICK edge, or at the given DT (R470). -/
def snapStart (d : Dev) : Dev :=
  let s := d.gns.snap
  if s.st == 1 && !s.begun && gnsSamples d then
    let first := match s.at_ with
      | some t => t
      | none => tickDtNs d
    let d := match s.cmd with
      | some id => begin_ id d
      | none => d
    snapMod (fun s => { s with begun := true, first := first, time := timeWord d, steps := d.gns.steps }) d
  else d

/-- Bytes a capture fills (R471). -/
def snapBytes (s : SnapSt) : Nat := s.len * (if s.bands = 0 then 4000 else 2000)

/-- Two samples of one band to a byte (R471). -/
def samplePairs : List (BitVec 4) → List Byte
  | a :: b :: rest => (a ++ b) :: samplePairs rest
  | [a] => [a ++ (0 : BitVec 4)]
  | [] => []

/-- The samples a capture takes of a band: 4,000 in 0.1 ms (R445, R470). -/
def snapTaken (s : SnapSt) (l : List (BitVec 4)) : List (BitVec 4) := l.take (4000 * s.len)

/-- The bytes of a capture (R471). -/
def snapData (s : SnapSt) (l1 l5 : List (BitVec 4)) : List Byte :=
  if s.bands = 0 then List.zipWith (fun a b => a ++ b) (snapTaken s l1) (snapTaken s l5)
  else samplePairs (snapTaken s (if s.bands = 1 then l1 else l5))

/-- How often each code of R445 comes among samples. -/
def codeCounts (l : List (BitVec 4)) : Vector Nat 4 :=
  Vector.ofFn fun k => l.foldl (fun n x => n + b2n (x.toNat / 4 == k.val) + b2n (x.toNat % 4 == k.val)) 0

/-- A capture ends (R470, R472). -/
def snapEnd (l1 l5 : List (BitVec 4)) (lead : Nat) (d : Dev) : Dev :=
  let fmt := pget d kGnsIfFmt 0
  let d := snapMod (fun s =>
    { s with
      first := s.first + lead
      m1 := magPct fmt (codeCounts (snapTaken s l1))
      m5 := magPct fmt (codeCounts (snapTaken s l5)) }) d
  let s := d.gns.snap
  let go := s.process && !d.gns.hold
  let d := snapMod (fun s => { s with cmd := none }) d
  let d := match s.cmd with
    | some c => completeId c 0 0 (le 2 s.number ++ le 2 0 ++ le 8 s.first) d
    | none => d
  snapPut (snapDesc d 1 (snapBytes s) 0) (if go then 3 else 2) d

/-- A capture is under way. -/
def snapRuns (d : Dev) : Bool := d.gns.snap.st == 1 && d.gns.snap.begun && d.gns.snap.desc.isNone

/-- GAE finishes a capture (R472, R473). -/
def snapDone (found : List SnapSat) (d : Dev) : Dev :=
  let s := d.gns.snap
  if s.st == 3 && s.desc.isNone then
    let d := forEach found (fun x d =>
      q10Put 3 (q10 d 4 0xFF x.system x.sv x.signal s.steps s.first s.time
        (le 4 x.codePhase ++ le 4 (toBits 32 x.doppler) ++ le 2 x.cn0 ++ le 2 s.number)) d) d
    snapPut (snapDesc d 2 (snapBytes s) found.length) 2 d
  else d

/-- D3 goes OFF: the buffer is EMPTY (R474), a capture's command ends, tracking ends. -/
def gnsOff (d : Dev) : Dev :=
  let d := match d.gns.snap.cmd with
    | some c => completeId c stAborted 0 [] d
    | none => d
  toHoldover (chReleaseAll (snapMod (fun s => { s with st := 0, begun := false, cmd := none, desc := none }) d))

/-- Step L1 begins: snapshot-hold (R477). -/
def gnsHold (d : Dev) : Dev :=
  let d := gnsMod (fun g => { g with hold := true }) (toHoldover (chReleaseAll d))
  if d.gns.snap.st = 3 then snapMod (fun s => { s with st := 2 }) d else d

/-- Step L1 ends. -/
def gnsUnhold (d : Dev) : Dev := gnsMod (fun g => { g with hold := false }) d

/-- The thermal cap at 16 channels (R476). -/
def gnsCap (b : Bool) (d : Dev) : Dev := gnsMod (fun g => { g with cap := b }) d

/-! ## Parameters -/

/-- `GNS_CH_STATE` of a channel. -/
def chState (c : GnsCh) : Nat :=
  let hi := if c.mp.get 0 < c.mp.get 1 then c.mp.get 1 else c.mp.get 0
  c.sv + c.system * 256 + c.locked * 1024 + hi * 4096 + sat8 (c.cn0.get 0 / 100) * 65536 + sat8 (c.cn0.get 1 / 100) * 2 ^ 24

/-- READ parameters of the baseband (R478). -/
def gnsRead (d : Dev) (addr : Nat) : List Word :=
  let key := keyOf addr
  let g := d.gns
  if key = kGnsState then [w32 (gnsState d)]
  else if key = kGnsUncNs then [w32 (uncNs d)]
  else if key = kGnsUtcOfs then [iw (g.utcOfs.getD 0)]
  else if key = kGnsHoModel then [iw g.y0, w32 g.dBound, w32 g.sigmaY, w32 g.sigmaTheta]
  else if key = kGnsSnapState then [w32 (g.snap.st + g.snap.number * 65536)]
  else if key = kGnsStepCount then [w32 g.steps]
  else if key = kGnsPos then g.pos.toList ++ [w32 g.posSigma]
  else if key = kGnsChState then [w32 (chState (vAt g.chans (instOf addr) GnsCh.reset))]
  else [0]

/-- Checks of a write beyond range and class (R450, R468, R478). -/
def gnsCheck (d : Dev) (addr : Nat) (ws : List Word) : Option Refuse :=
  let key := keyOf addr
  let v := (ws.headD 0).toNat
  let hz := if key = kGnsPulseHz then v else pget d kGnsPulseHz 0
  let wid := if key = kGnsPulseWidthUs then v else pget d kGnsPulseWidthUs 0
  let bad : Bool :=
    if key = kGnsBands then v == 0
    else if key = kGnsCorrSpacing then
      let n := v % 256
      let el := v / 256 % 256
      let very := v / 65536 % 256
      let l5 := instOf addr == 1
      2 ^ 24 ≤ v || very < 75 || 150 < very || el < 25 || 100 < el || (if l5 then n < 25 || 50 < n else n < 5 || 25 < n) ||
        el ≤ n || very ≤ el
    else if key = kGnsPulseHz ∨ key = kGnsPulseWidthUs then hz != 0 && 1000000 ≤ 2 * wid * hz
    else false
  if bad then some ⟨stRange, 0⟩ else none

/-- STAGED parameters are accepted only while `GNS_ENABLE` is 0. -/
def gnsBusy (d : Dev) : Bool := pget d kGnsEnable 0 != 0

/-! ## Commands (R479) -/

def cmdGnsRead (c : Cmd) (d : Dev) : Dev :=
  answer [] (le 8 (dtNs d) ++ le 2 (timeWord d) ++ le 1 (sat8 d.gns.sats) ++ le 1 d.gns.steps ++ le 4 (gnsState d)
    ++ le 4 (uncNs d)) c d

def cmdTimeSet (c : Cmd) (d : Dev) : Dev :=
  let given := field c.payload 0 8
  let unc := field c.payload 8 4
  if d.gns.tq ≠ 0 then refuse c (refused 0x80) d
  else if unc < 1 || 1000000000 < unc then refuse c ⟨stRange, 0⟩ d
  else
    let d := dropDue d
    let s := stepSecond d d.time.dtFs
    let chg : Int := (given : Int) * 1000000 - d.time.dtFs
    waitOn c.id (gnsMod (fun g => { g with due := some (s, chg), dueCause := 1, dueCmd := some c.id, dueUnc := unc }) d)

def cmdSurveyRestart (c : Cmd) (d : Dev) : Dev := complete c 0 0 [] (surveyRestart d)

def cmdSnap (c : Cmd) (d : Dev) : Dev :=
  let p := c.payload
  let bands := byteAt p 0
  let len := field p 2 2
  let top := if bands = 0 then 128 else 256
  let en := pget d kGnsBands 0
  let need := if bands = 0 then 3 else bands
  let missing := need &&& en != need || pget d kGnsEnable 0 == 0 ||
    (bands != 2 && d.gns.lost.get 0) || (bands != 1 && d.gns.lost.get 1)
  match firstRefusal [
      (2 < bands || 1 < byteAt p 1 || len < 10 || top < len || 1 < byteAt p 4, ⟨stRange, 0⟩),
      (d.gns.snap.st != 0, refused 0x81),
      (missing, refused 0x82),
      (byteAt p 1 == 1 && d.gns.hold, refused 0x83)] with
  | some r => refuse c r d
  | none =>
    waitOn c.id (snapMod (fun s =>
      { s with
        st := 1
        number := (s.number + 1) % 65536
        bands := bands
        process := byteAt p 1 == 1
        len := len
        at_ := if byteAt p 4 = 1 then some (field p 8 8) else none
        begun := false
        m1 := 0
        m5 := 0
        cmd := some c.id }) d)

def cmdSnapRelease (c : Cmd) (d : Dev) : Dev :=
  if d.gns.snap.st == 1 || d.gns.snap.st == 3 then refuse c (refused 0x84) d
  else complete c 0 0 [] (snapMod (fun s => { s with st := 0 }) d)

def cmdChRead (c : Cmd) (d : Dev) : Dev :=
  let n := byteAt c.payload 0
  let x := vAt d.gns.chans n GnsCh.reset
  answer [(32 ≤ n, ⟨stRange, 0⟩)]
    (le 4 (chState x) ++ le 4 (toBits 32 (x.doppler.get 0)) ++ le 4 (toBits 32 (x.doppler.get 1)) ++ le 4 (lockSec x 0)
      ++ le 4 (lockSec x 1)) c d

/-! ## The commands -/

def execGnssEpoch (k : Nat) (meas : List GnsMeas) (sol : Option GnsSol) (s : State) := loud (gnssEpoch k meas sol) s
def execNavUnitComplete (u : NavUnit) (s : State) := loud (navUnit u) s
def execSolutionTimeout (s : State) := quiet solutionTimeout s
def execDtStep (s : State) := quiet dtStep s
def execHoldoverUpdate (s : State) := quiet holdoverUpdate s
def execLeapSecond (ofs : Int) (dt : Nat) (s : State) := quiet (leapSecond ofs dt) s
def execTimePulse (k : Nat) (s : State) := quiet (timePulse k) s
def execSampleCountCheck (b : Fin 2) (n : Nat) (s : State) := loud (sampleCount b n) s
def execGsclkGap (b : Fin 2) (s : State) := loud (gsclkGap b) s
def execAgcCheck (b : Fin 2) (codes : Vector Nat 4) (s : State) := quiet (agcCheck b codes) s
def execBandDrop (n : Fin 32) (b : Fin 2) (s : State) := quiet (bandDrop n b) s
def execSnapCaptureStart (s : State) := quiet snapStart s

/-- SNAP_CAPTURE_END: the samples fill the buffer from byte 0, and every other byte is 0 (R471). -/
def execSnapCaptureEnd (l1 l5 : List (BitVec 4)) (lead : Fin 25) (s : State) : Host.Outcome State Fault Refusal :=
  if snapRuns s.dev then
    .next (settle { s with
      snap := memWrite [] 0 (snapData s.dev.gns.snap l1 l5)
      dev := snapEnd l1 l5 lead s.dev })
  else .next s

def execSnapProcessDone (found : List SnapSat) (s : State) := loud (snapDone found) s
def execGnsRead (c : CmdId) (s : State) := quiet (withCmd 0x1801 c cmdGnsRead) s
def execGnsTimeSet (c : CmdId) (s : State) := quiet (withCmd 0x1802 c cmdTimeSet) s
def execGnsSurveyRestart (c : CmdId) (s : State) := quiet (withCmd 0x1803 c cmdSurveyRestart) s
def execGnsSnap (c : CmdId) (s : State) := quiet (withCmd 0x1804 c cmdSnap) s
def execGnsSnapRelease (c : CmdId) (s : State) := quiet (withCmd 0x1805 c cmdSnapRelease) s
def execGnsChRead (c : CmdId) (s : State) := quiet (withCmd 0x1806 c cmdChRead) s
def execSignalAcquisition (sys : Fin 3) (sv : Fin 64) (elev : Option Nat) (bands : Fin 4) (s : State) :=
  quiet (acquire sys sv elev bands) s

end Sys2Proof.Machine
end

