-- ==== Sys2Proof/Machine/Field.lean ====
section
/-!
DEFINITION. Machine/Field.lean: what the field die does as a whole: the Snowplough stop by scope, the release, shedding by
class, and its reset (03, 12).
-/
namespace Sys2Proof.Machine

/-! ## Scopes -/

/-- The MASK bits of all pins and valve channels (R120). -/
def allObjects : Nat := 2 ^ 80 - 1

/-- The pins and valve channels a scope names, by MASK bit (R130). -/
def scopeMask (sc : Scope) : Nat :=
  match sc.scope with
  | 0 => allObjects
  | 1 => if sc.object < 8 then 0xFF * 2 ^ (8 * sc.object) else 0
  | _ => if sc.object < 80 then 2 ^ sc.object else 0

/-- The scope and object of a TARGET of R592; none where it names no object. -/
def targetScope (target : Nat) : Option Scope :=
  let t := target % 2 ^ 24
  let sub := t / 2 ^ 20
  let key := t / 256 % 2 ^ 12
  let n := t % 256
  if t = 0xFFFFFF then some { scope := 0, object := 0 }
  else if sub = 1 ∧ key = 0 ∧ n < 64 then some { scope := 2, object := n }
  else if sub = 1 ∧ key = 1 ∧ n < 8 then some { scope := 1, object := n }
  else if sub = 4 ∧ key = 0 ∧ n < 16 then some { scope := 2, object := 64 + n }
  else none

/-- Changes the Lift's state. -/
def liftMod (f : LiftSt → LiftSt) (d : Dev) : Dev := { d with lift := f d.lift }

/-- Changes the state of chapter 12. -/
def pwrMod (f : PwrSt → PwrSt) (d : Dev) : Dev := { d with pwr := f d.pwr }

/-- Pins and valve channels of a mask. -/
def maskPins (m : Nat) : List (Fin 64) := (List.finRange 64).filter fun n => bitOf m n
def maskVds (m : Nat) : List (Fin 16) := (List.finRange 16).filter fun n => bitOf m (64 + n)

/-! ## The stop -/

/-- Excitation follows the stop (R128, R169) and the hold of its pads (R502): a channel whose excitation returns restarts at its next conversion end (R145). -/
def excUpdate (d : Dev) : Dev :=
  let off := excStopped d
  forEach (List.finRange 32) (fun ch d =>
    let c := d.afe.ch.get ch
    if c.excOff == off then d
    else
      let back := !off && c.on && pget d kAfeExcMode ch != 0
      afeMod ch (fun c => { c with excOff := off, restart := c.restart || back }) d) d

/-- The field die puts the pins and valve channels of a mask into their safe states and cancels a RELEASE that is
pending for them (R128, R261, R297). Bit 80 says that some RELEASE is pending. -/
def stopObjects (m : Nat) (d : Dev) : Dev :=
  let d := liftMod (fun l =>
    let left := l.relField &&& (allObjects &&& (allObjects ^^^ m))
    { l with relField := if left = 0 then 0 else left ||| 2 ^ 80 }) d
  let d := forEach (maskPins m) pinSafe d
  wakeAll (forEach (maskVds m) (fun n d => vlvSafe n (bitOf m (64 + (vlvPartner n).val)) d) d)

/-- A stop of every object: outputs, excitation and sweeps (R128, R201). -/
def stopAll (d : Dev) : Dev :=
  excUpdate (dlxPause (stopObjects allObjects (liftMod (fun l => { l with stopped := true, relField := 0 }) d)))

/-- Requests of RELEASE that a stop of a mask ends (R128): they are sent no more, and a command that waits for one ends
ST_ABORTED (log entry 24). -/
def cancelReleases (m : Nat) (d : Dev) : Dev :=
  let gone := d.lift.relPend.filter fun r => scopeMask r.sc &&& m != 0
  let d := liftMod (fun l => { l with relPend := l.relPend.filter fun r => scopeMask r.sc &&& m == 0 }) d
  forEach gone (fun r d => match r.cmd with
    | some id => completeId id stAborted 0 [] d
    | none => d) d

/-- The control die asks for a RELEASE, which it repeats until the objects are out of their safe state (R128). -/
def askRelease (sc : Scope) (cmd : Option CmdId) (d : Dev) : Dev :=
  liftMod (fun l => { l with relPend := l.relPend ++ [{ sc := sc, cmd := cmd }] }) d

/-- The control die asks for a SAFE frame (R130); every RELEASE of its objects ends. -/
def askSafe (sc : Scope) (cause : Nat) (cmd : Option CmdId) (d : Dev) : Dev :=
  cancelReleases (scopeMask sc) (liftMod (fun l =>
    { l with safePend := l.safePend ++ [{ sc := sc, cause := cause, cmd := cmd }] }) d)

/-- A scope takes in the objects of another. -/
def Scope.covers (a b : Scope) : Bool := scopeMask a &&& scopeMask b == scopeMask b

/-- The demand that the next SAFE or RELEASE frame carries (R112; log entry 128): the oldest, widened to one that waits for its
bank or for every object. -/
def mergeNext {α : Type} (sc : α → Scope) (l : List α) : Option Scope :=
  match l with
  | [] => none
  | r :: _ => match l.find? fun x => (sc x).scope == 0 with
    | some x => some (sc x)
    | none => match l.find? fun x => (sc x).scope == 1 && (sc x).covers (sc r) with
      | some x => some (sc x)
      | none => some (sc r)

/-- Uplink slots that show the active safe-state status: input images, valve status and field health (R110, R128). -/
def statusSlots : Nat := 0xFF + 0xFF * 2 ^ 34 + 0xF * 2 ^ 58

/-- The status that the uplink has shown since the last silence has the objects of a mask out of the safe state and of the
start-up hold (R128). -/
def released (d : Dev) (m : Nat) : Bool :=
  !d.lift.holdSeen && d.lift.staleSlots &&& statusSlots == 0 &&
    (maskPins m).all (fun n => !bitOf (d.fio.pin.get n).seen 13) && (maskVds m).all (fun n => !bitOf (vlvCh d n).status.toNat 6)

/-! ## Shedding by class (R263, R299, R507) -/

/-- Pins and valve channels of a shed class. A pin that is no output then is shed as one that becomes an output later (R263). -/
def classPins (d : Dev) (c : Nat) : List (Fin 64) := (List.finRange 64).filter fun n => pget d kFioShedClass n == c
def classVds (d : Dev) (c : Nat) : List (Fin 16) :=
  (List.finRange 16).filter fun n => pget d kVlvShedClass n == c

/-- FSQ reports a step or a class on urgent code 4; VFLD as it stands where the report opens the frame (R120, R506). -/
def shedReport (bit : Nat) (d : Dev) : Dev :=
  let mv := if (d.lift.urg.get 4).isSome then 0 else (d.pwr.vfldField / 10 % 65536) * 65536
  let d := urgent 4 bit d
  liftMod (fun l => { l with urg := l.urg.set 4 ((l.urg.get 4).map fun f => { f with mask := f.mask ||| mv }) }) d

/-- A class is shed. -/
def shedClass (c : Fin 4) (d : Dev) : Dev :=
  let d := pwrMod (fun p => { p with shed := p.shed.set c true, relClass := p.relClass.set c false }) d
  shedReport (36 + c.val) (wakeAll (forEach (classVds d c) vlvShed (forEach (classPins d c) pinShed d)))

/-- A channel whose class is released takes the current set at this APPLY. -/
def vlvUnshed (n : Fin 16) (d : Dev) : Dev :=
  if !(vlvCh d n).shed then d else vlvMod n (fun x => { x with shed := false }) d

/-- A class is released at an APPLY (R507); objects of no class that is still shed are free. -/
def releaseClass (c : Fin 4) (d : Dev) : Dev :=
  let d := pwrMod (fun p => { p with shed := p.shed.set c false, relClass := p.relClass.set c false }) d
  let still := fun (k : Nat) => vAt d.pwr.shed k false
  let d := forEach ((List.finRange 64).filter fun (n : Fin 64) => !still (pget d kFioShedClass n))
    (fun n d => pinMod n (fun p => { p with shed := false }) d) d
  shedReport (40 + c.val)
    (forEach ((List.finRange 16).filter fun (n : Fin 16) => !still (pget d kVlvShedClass n)) vlvUnshed d)

/-! ## Reset of the field die (R495, R252, R262) -/

/-- A pulse that a field-die reset ends, as its command completes: end cause 4, ST_OK where the last status slot showed the
profile energised and it ran, else ST_REFUSED, detail 0x48 (R495). -/
def pulseReset (n : Fin 16) (ran : Bool) (tick : Nat) (cmd : Option CmdId) (d : Dev) : Dev :=
  let ok := ran && bitOf (vlvCh d n).status.toNat 0
  match cmd with
  | some id =>
    completeId id (if ok then stOk else stRefused) (if ok then 0 else 0x48)
      (reportResult (reportNever 4 cmd tick false) (vlvCh d n).lastKind) d
  | none => pulseEnded n ok d

/-- Every pulse issued and not yet reported ends with a reset of the field die. -/
def pulsesLost (n : Fin 16) (d : Dev) : Dev :=
  let c := vlvCh d n
  let run := (c.prof.toList.map fun p => (true, p.tick, p.cmd)) ++ (c.next.toList.map fun p => (false, p.tick, p.cmd)) ++
    (c.ignoredCmds.map fun id => (false, 0, some id)) ++
    (c.reports.flatMap fun r => (r.defer.isSome, r.tick, r.cmd) :: r.ignoredCmds.map fun id => (false, r.tick, some id)) ++
    (c.placed.map fun p => (false, 0, p.2)) ++ (c.reqs.map fun r => (false, 0, r.cmd))
  let d := forEach run (fun x d => pulseReset n x.1 x.2.1 x.2.2 d) d
  vlvMod n (fun c => { c with reqs := [], placed := [] }) d

/-- A measurement channel after a reset of the field die: conversions start afresh, substitutions stand. -/
def afeFieldReset (c : AfeCh) : AfeCh :=
  { c with
    seq := 0
    settled := 0
    restart := false
    hist := []
    recent := []
    winTick := 0
    winCnt := 0
    abandoned := false
    brk := none
    depWhy := none
    excOff := false
    swapped := false
    leads := []
    rLead := none
    leadNext := none
    leadTurn := false
    shadow := 0
    word := none }

/-- A dielectric channel after a reset of the field die: its window starts afresh; paths and calibrations stand. -/
def dlxFieldReset (c : DlxCh) : DlxCh := { restartWindow c with seq := 0, settled := 0, fault := none, clean := 0, word := none }

/-- The field die's end of the Lift after its reset (R106, R107, R127). -/
def liftFieldReset (l : LiftSt) : LiftSt :=
  { l with
    down := .lost
    upSeq := 0
    fTick := 0
    fDt := 0
    fTq := 0
    fTrim := 0
    fCycle := 0
    fFlags := 0
    fDom := LiftSt.reset.fDom
    excSlot := LiftSt.reset.excSlot
    sweepSlot := LiftSt.reset.sweepSlot
    downDisc := 0
    copies := LiftSt.reset.copies
    applyLost := 0
    lastApply := 0
    miss := 0
    fenced := 0
    fencedEpoch := 0
    missSeen := 0
    fencedSeen := 0
    downDiscRep := 0
    armed := false
    stopped := false
    validOfs := 0
    stopUs := 0
    stopOfs := 0
    reportLeft := 0
    relField := 0
    cntRound := 0
    urg := LiftSt.reset.urg
    evt := LiftSt.reset.evt
    diagNext := []
    pairs := []
    fsqRep := []
    fsqReq := [] }

/-- The field die resets (R495): every output is off, pulses end, latches the control die knows come back, and the
start-up hold begins, which the given command ends. Classes that are shed stay so (R507). -/
def fieldReset (how : HoldEnd) (d : Dev) : Dev :=
  let d := forEach (List.finRange 16) pulsesLost d
  let d := { d with
    fio :=
      { pin := Vector.ofFn fun n => pinFieldReset (pinMode d n == 3) (d.fio.pin.get n)
        bank := Vector.ofFn fun b => { d.fio.bank.get b with freqWait := freqAgain d b ++ (d.fio.bank.get b).freqWait } }
    vlv := { ch := d.vlv.ch.map vlvFieldReset, hs := VlvSt.reset.hs }
    afe := { d.afe with ch := d.afe.ch.map afeFieldReset }
    dlx := { d.dlx with ch := d.dlx.ch.map dlxFieldReset, sweep := none, queue := [], paused := true }
    lift := { liftFieldReset d.lift with cfg := cfgAgain d }
    svc := { d.svc with spoiled := true, release := none } }
  let d := pwrMod (fun p => { p with hold := true, holdEnd := how, fieldUp := false, vfldHigh := false }) d
  let d := forEach ((List.finRange 32).filter fun ch => (d.afe.ch.get ch).on) afeRestart d
  let isShed := fun (k : Nat) => vAt d.pwr.shed k false
  let d := { d with
    fio := { d.fio with pin := Vector.ofFn fun n => { d.fio.pin.get n with shed := isShed (pget d kFioShedClass n) } }
    vlv := { d.vlv with ch := Vector.ofFn fun n =>
      { d.vlv.ch.get n with shed := isShed (pget d kVlvShedClass n), f2Hold := 2 ≤ d.pwr.fStep } } }
  excUpdate d

/-- The field die held in reset, or without supply: it runs nothing until its next start-up (R482, R506, R543). -/
def fieldOff (how : HoldEnd) (d : Dev) : Dev := pwrMod (fun p => { p with fieldPow := false }) (fieldReset how d)

end Sys2Proof.Machine
end

