-- ==== Sys2Proof/Machine/Pairs.lean ====
section
/-!
DEFINITION. Machine/Pairs.lean: PAIRED words in use (R46-R53, R590, R595): repair and loss of a word on the control die, the safe
state of its block, and the order in which the Lift carries the words of the field die.
-/
namespace Sys2Proof.Machine

/-! ## Words that cross the Lift (R48, R123) -/

/-- The PAIRED words that cross the Lift, by address, the epoch first (R48, R123, log entry 25). -/
def fieldPairAddrs : List Nat :=
  addrOf kHltEpoch 0 :: ((paramTable 0 ++ paramTable 1 ++ paramTable 4).filter fun p => p.cls == .paired).flatMap
    (fun p => (List.range p.insts).map fun n => addrOf p.key n)

/-- A word takes its turn among those that the next PAIR slots carry ahead of the regular round (R123). -/
def pairFirst (addr : Nat) (d : Dev) : Dev :=
  if d.lift.pairPrio.contains addr || !fieldPairAddrs.contains addr then d
  else liftMod (fun l => { l with pairPrio := l.pairPrio ++ [addr] }) d

/-! ## The block of a word (R51) -/

/-- The pins and valve channels whose settings a field-side PAIRED word belongs to, as the scopes of SAFE frames: all of them for
the silence timeout. -/
def pairScopes (addr : Nat) : List Scope :=
  let key := keyOf addr
  let n := instOf addr
  if key = kSysLiftSilenceMs then [{ scope := 0, object := 0 }]
  else if key = kFioSafe then [{ scope := 2, object := n }]
  else if key = kFioOutEn then [{ scope := 1, object := n }]
  else if key = kVlvOutEn then (List.range 4).map fun k => { scope := 2, object := 64 + 4 * n + k }
  else if addr / 2 ^ 20 = 4 then [{ scope := 2, object := 64 + n }]
  else []

/-- The addresses of the words that have lost their last valid copy. -/
def lostPairs (d : Dev) : List Nat := (d.cmd.pairs.filter fun e => e.2.lost).map (·.1)

/-- MASK bits of the pins and valve channels that a lost word keeps in their safe state until it is written again (R51). -/
def lostMask (d : Dev) : Nat := ((lostPairs d).flatMap pairScopes).foldl (fun m sc => m ||| scopeMask sc) 0

/-- A loop instance one of whose fallback values is lost goes to FALLBACK (R51; log entry 127). -/
def loopSafe (i : LI) (d : Dev) : Dev :=
  let x := ctlInst d i
  when (ctlRuns x && x.base != .fallback && (lostPairs d).any fun a =>
    kCtlFallback ≤ keyOf a && keyOf a < kCtlFallback + 16 && instOf a == i.val) (ctlFallback i 3) d

/-- The services that a lost word belongs to (R51; log entry 127): a drying instance whose maximum grain temperature it is ends as
by `SVC_ABORT`, a burner whose plenum limit it is goes to OFF, and without a quota no water is dosed. -/
def servicesSafe (d : Dev) : Dev :=
  let lost := lostPairs d
  let d := forEach ((List.finRange 6).filter fun i =>
      dryRuns i (dryOf d i) && lost.contains (addrOf (kSvcTmaxCom + dryUse d i) (dryGrain d i))) dryAbort d
  let d := forEach ((List.finRange 4).filter fun (b : Fin 4) => lost.contains (addrOf kSvcBrnPlenumMax b)) brnOff d
  if lost.contains (addrOf kSvcWaterQuotaL 0) then
    forEach (List.finRange 2) (fun i d => blockClose i (watMod i (fun w => { w with acc := 0 }) d)) d
  else d

/-- The block of a word that has just lost its last valid copy goes into its safe state (R51). -/
def pairSafe (addr : Nat) (d : Dev) : Dev :=
  let d := forEach (pairScopes addr) (fun sc d => askSafe sc 1 none d) d
  if h : instOf addr < 64 then
    if addr / 2 ^ 20 = 5 then loopSafe ⟨instOf addr, h⟩ d else if addr / 2 ^ 20 = 6 then servicesSafe d else d
  else d

/-! ## Repair and loss (R49-R51, R595) -/

/-- EV_HLT_PAIR_REPAIR, counted. The port is 1 where Patrol's scan found the failure and 6 where a consumer or FSQ did (R590);
`copy` names the copy repaired (R552). -/
def pairRepaired (port : Fin 8) (addr copy : Nat) (d : Dev) : Dev :=
  hltCount 2 1 (raise port 0xA001 (paramPath addr) (le 4 addr ++ le 1 copy) d)

/-- Both copies of a PAIRED parameter set, as a repair leaves them. -/
def pairPut (addr : Nat) (prim shad : List (Word × Word)) (d : Dev) : Dev :=
  { d with cmd := { d.cmd with pairs := alSet d.cmd.pairs addr { pairOf d addr with prim := prim, shad := shad } } }

/-- No valid copy exists: EV_HLT_PAIR_LOST, a double fault, and the safe state of the word's block. Crossover writes an epoch anew
at once, one above the last the output latch accepted, and sends it (R595, R522); a part that has lost its binding is unenrolled
(R560). -/
def pairLost (port : Fin 8) (addr : Nat) (d : Dev) : Dev :=
  let p := pairOf d addr
  if p.lost then d
  else
    let d := { d with cmd := { d.cmd with pairs := alSet d.cmd.pairs addr { p with lost := true } } }
    let d := doubleFault 4 (raise port 0xA002 (paramPath addr) (le 4 addr) d)
    if keyOf addr = kHltEpoch then
      pairFirst addr (setPair addr [mkPair (w32 (vAt d.hlt.epochUsed (instOf addr) 0 + 1))] d)
    else if keyOf addr = kIdnBinding then
      raise 6 0xB002 (pkgPath 0xB) [1] { d with idn := { d.idn with lost := true } }
    else pairSafe addr d

/-- One PAIRED parameter checked: a bad copy is repaired from the good one, two that differ from the shadow, and one without a
valid copy from its persistent pair. -/
def pairFix (port : Fin 8) (addr : Nat) (d : Dev) : Dev :=
  let p := pairOf d addr
  match pairsValid p.prim, pairsValid p.shad with
  | true, true => if p.prim = p.shad then d else pairRepaired port addr 0 (pairPut addr p.shad p.shad d)
  | false, true => pairRepaired port addr 0 (pairPut addr p.shad p.shad d)
  | true, false => pairRepaired port addr 1 (pairPut addr p.prim p.prim d)
  | false, false =>
    match p.flash with
    | some f => if pairsValid f then pairRepaired port addr 2 (pairPut addr f f d) else pairLost port addr d
    | none => pairLost port addr d

/-- Consumers on the control die check the words they use (R46, R49): a failure they find is repaired before the use. -/
def pairsUse (addrs : List Nat) (d : Dev) : Dev := forEach addrs (pairFix 6) d

/-- The words of a kind that the store holds, which a consumer of all of them checks. -/
def pairsHeld (d : Dev) (p : Nat → Bool) : List Nat := (d.cmd.pairs.map (·.1)).filter p

/-- The output latch has the valid epochs of this edge (R521, R595). -/
def epochsUsed (d : Dev) : Dev :=
  let used : Fin 11 → Nat := fun n =>
    let p := pairOf d (addrOf kHltEpoch n.val)
    if pairsValid p.prim || pairsValid p.shad then epochOf d n.val else d.hlt.epochUsed.get n
  { d with hlt := { d.hlt with epochUsed := Vector.ofFn used } }

/-! ## The consumers (R46) -/

/-- The PAIRED words that an instance's gate uses: its load's epoch, its fallback values, and the limits and enables of the
objects of its outputs (R322, R329, R347, R352). -/
def gatePairs (d : Dev) (i : LI) : List Nat :=
  let b := ctlDesc d i
  addrOf kHltEpoch (1 + i.val / 32) :: (List.range (dM b)).flatMap fun o =>
    let w := dOut b o
    addrOf (kCtlFallback + o) i :: (
      if wSrc w = 1 then [addrOf kVlvPropMaxMa (wObj w), addrOf kVlvOutEn (wObj w / 4)]
      else if wSrc w = 2 then [addrOf kFioOutEn (wObj w / 8)] else [])

/-- A gate, its words checked first; an instance that a lost word holds in FALLBACK stays there (R51). -/
def gateChecked (i : LI) (d : Dev) : Dev := loopSafe i (ctlGate i (pairsUse (gatePairs d i) d))

/-- The PAIRED words that a service step uses: those of the services, the safe states of the request pins (R387) and the limits of
the proportional channels. -/
def stepPairs (d : Dev) : List Nat :=
  pairsHeld d fun a => a / 2 ^ 20 == 6 || keyOf a == kFioSafe || keyOf a == kVlvPropMaxMa

/-- A service step where one is due, its words checked first (R46, R51). -/
def stepChecked (d : Dev) : Dev := if stepDue d then servicesSafe (serviceStep (pairsUse (stepPairs d) d)) else d

def execCtlGate (i : LI) (s : State) := quiet (gateChecked i) s
def execServiceStep (s : State) := quiet stepChecked s

end Sys2Proof.Machine
end

