-- ==== Sys2Proof/Machine/Checks.lean ====
section
/-!
DEFINITION. Machine/Checks.lean: what every parameter write passes through, whatever its block: the checks of R88 in order,
the boundary at which a value applies, and what its block does when it has.
-/
namespace Sys2Proof.Machine

/-! ## Applying -/

/-- What the block of a parameter does when its value changes. -/
def allHook (addr : Nat) (d : Dev) : Dev :=
  match addr / 2 ^ 20 with
  | 1 => fioHook addr d
  | 2 => afeHook addr d
  | 3 => dlxHook addr d
  | 4 => vlvHook addr d
  | 5 => ctlHook addr d
  | 7 => busHook addr d
  | 8 => gnsHook addr d
  | _ => d

/-- An address is a whole coefficient set of a loop (R332). -/
def isCoefSet (addr : Nat) : Bool := kCtlCoefSet ≤ keyOf addr && keyOf addr < kCtlCoefSet + 9

/-- A value put into the store, its block told of it; a field-side one goes out to the field die (R225). -/
def applyParam (addr : Nat) (ws : List Word) (d : Dev) : Dev :=
  cfgSend addr <| allHook addr (if isCoefSet addr then coefSetWrite addr ws d else applyValue addr ws d)

/-- Applies values in order, as an image or a recipe does (R94); a word of the field die is sent at its next turn (R123). -/
def applyAll (rs : List (Nat × List Word)) (d : Dev) : Dev := forEach rs (fun r d => pairFirst r.1 (applyParam r.1 r.2 d)) d

/-! ## Checks -/

/-- The size in bytes a BLOB must have; a coefficient set has the size its descriptor gives it (R332). -/
def blobSize (d : Dev) (addr : Nat) (p : PDef) : Nat :=
  if isCoefSet addr then setBytes (coefCount (ctlDesc d (instOf addr)))
  else match p.ty with
    | .blob n => n
    | _ => 4

/-- The measurement front end's own checks (R139, R142, R149, R159, R161, R187, R194). Bytes 12-15 of the coefficients are judged
when they are written while curve 40 is chosen (DESIGN CHOICE, log entry 141). -/
def afeCheck (d : Dev) (addr : Nat) (ws : List Word) : Option Refuse :=
  let key := keyOf addr
  let n := instOf addr
  let v := (ws.headD 0).toNat
  let e := setParam addr ws d
  if key = kAfeEnable then
    if v = 0 then firstRefusal [((List.range 32).any fun ch => pget d kAfeEnable ch == 1 && pget d kAfeWiring ch == 3 &&
      pget d kAfeRefChan ch == n, refused 0x20)]
    else if dielectricUse d n then some (refused 0x30)
    else afeEnableRefusal e n
  else if key = kAfeTable then firstRefusal [(!tableOk ws, ⟨stRange, 0⟩)]
  else if key = kAfeCoef then firstRefusal [(pget d kAfeCurve n == 40 && ws.getD 3 0 != 0, ⟨stRange, 0⟩)]
  else if key = kAfeRefChan then firstRefusal [(v < 32 && v / 8 != n / 8, ⟨stRange, 0⟩)]
  else if [kAfeExcMode, kAfePol].contains key then
    firstRefusal [(pget d kAfeEnable n == 1 && !(afeCombo e n && afeLeadOk e n), refused 0x20)]
  else if [kAfeNotch, kAfeRate].contains key then
    firstRefusal [(pget e kAfeNotch n != 0 && 5 ≤ pget e kAfeRate n, ⟨stRange, 0⟩)]
  else none

/-- A STAGED parameter of the front end is locked (R161, R187). -/
def afeBusy (d : Dev) (addr : Nat) : Bool :=
  if keyOf addr = kAfeTable then
    (List.range 32).any fun ch => pget d kAfeEnable ch != 0 && pget d kAfeCurve ch == 60 + instOf addr
  else pget d kAfeEnable (instOf addr) != 0

/-- A STAGED parameter's block runs (R88). -/
def stagedBusy (d : Dev) (addr : Nat) : Bool :=
  match addr / 2 ^ 20 with
  | 1 => !fioStopped d (instOf addr)
  | 2 => afeBusy d addr
  | 3 => dlxBusy d addr
  | 4 => !vlvStopped d (instOf addr)
  | 5 => ctlBusy d addr
  | 6 => svcBusy d addr
  | 7 => busBusy d addr
  | 8 => gnsBusy d
  | _ => false

/-- The checks of a parameter's own block. -/
def blockCheck (d : Dev) (addr : Nat) (ws : List Word) : Option Refuse :=
  match addr / 2 ^ 20 with
  | 1 => fioCheck d addr ws
  | 2 => afeCheck d addr ws
  | 3 => dlxCheck d addr ws
  | 4 => vlvCheck d addr ws
  | 5 => if keyOf addr = kCtlDesc && !descValues (bytesOf ws) then some ⟨stRange, 0⟩ else ctlCheck d addr ws
  | 6 => svcCheck d addr ws
  | 7 => busCheck d addr ws
  | 8 => gnsCheck d addr ws
  | _ => none

/-! ## Boundaries -/

/-- Profile parameters of a valve channel (R281, R300). -/
def isProfileKey (key : Nat) : Bool :=
  [kVlvDelayUs, kVlvPeakMa, kVlvPeakMaxUs, kVlvPeakDwellUs, kVlvHoldMa, kVlvHoldT, kVlvDecay, kVlvTtpMinUs, kVlvTtpMaxUs,
    kVlvDeferMaxUs].contains key

/-- Pulse parameters of the time pulse (R478). -/
def isPulseKey (key : Nat) : Bool := kGnsPulseHz ≤ key && key ≤ kGnsPulseMinTq

/-- Where a LIVE, STAGED or PAIRED value applies, and how many downlink frames must carry it first; none where it applies
at once (R88 and the boundary rule of each chapter). -/
def boundaryOf (d : Dev) (addr : Nat) (p : PDef) : Option (Boundary × Nat) :=
  let key := keyOf addr
  let n := instOf addr
  let staged := p.cls == .staged
  match addr / 2 ^ 20 with
  | 0 => if p.cls = .paired then some (.fieldApply, 1) else some (.mark, 0)
  | 1 =>
    if staged then some (.tick, 0)
    else if key = kFioOut ∨ key = kFioPwmHz then some (.tickSet, 1)
    else if p.cls = .paired then some (.fieldApply, 1)
    else some (.fieldMark, 1)
  | 2 =>
    if staged then none
    else if h : n < 32 then
      let frames := if fieldSide addr then fieldFrames addr else 0
      if key < kAfeBlkSel && pget d kAfeEnable n != 0 then some (.convEnd ⟨n, h⟩, frames)
      else some (.tick, if key = kAfeEnable then 1 else 0)
    else some (.tick, 0)
  | 3 => if staged then none else some (.dlxCycle, if fieldSide addr then fieldFrames addr else 0)
  | 4 =>
    if staged then some (.tick, 0)
    else if p.cls = .paired then some (.fieldApply, 1)
    else if key = kVlvPropMa then some (.tickSet, 1)
    else if h : n < 16 then
      if isProfileKey key then some (.profile ⟨n, h⟩, 0)
      else if key = kVlvDitherHz ∨ key = kVlvDitherMa then some (.dither ⟨n, h⟩, 1)
      else some (.fieldMark, 1)
    else some (.fieldMark, 1)
  | 5 =>
    if staged then none
    else if p.cls = .paired then some (.tick, 0)
    else if h : n < 64 then some (.gate ⟨n, h⟩, 0) else none
  | 6 =>
    if staged then none
    else if kSvcAerEnable < key ∧ key ≤ kSvcAerFanMax then some (.aerEval, 0)
    else some (.svcStep, 0)
  | 7 =>
    if staged then none
    else
      let c := if key = kBusFilt then n / 128 else if key = kBusSmo then n / 32 else n
      if h : c < 2 then (if key = kBusTmPrio then some (.basicCycle ⟨c, h⟩, 0) else some (.busIdle ⟨c, h⟩, 0))
      else some (.busIdle 0, 0)
  | 8 => if staged then none else if isPulseKey key then some (.pulse, 0) else some (.gnsEpoch, 0)
  | 9 =>
    if key = kPwrPlReq then some (.tick, 0)
    else if key = kPwrF3StepMs ∨ key = kPwrF3ReleaseMs then some (.fieldMark, 1)
    else none
  | 10 => some (.round, 0)
  | 11 => some (.enrol, 0)
  | 12 => some (.tick, 0)
  | _ => none

/-! ## Values on their way -/

/-- The device as it will be once the accepted values that a test names have taken effect. -/
def coming (p : Wait → Bool) (d : Dev) : Dev := forEach (d.cmd.waits.filter p) (fun w d => applyValue w.addr w.words d) d

/-- Where a write of an address will apply. -/
def boundaryAt (d : Dev) (addr : Nat) : Option Boundary :=
  match findDef addr with
  | none => none
  | some p => (boundaryOf d addr p).map (·.1)

/-- The checks of a parameter's own block, against the values that will be in force when it applies: those accepted for the same
boundary, and with and without those that wait for another one (R43, R88; log entry 129). -/
def comingCheck (d : Dev) (addr : Nat) (ws : List Word) : Option Refuse :=
  let here := boundaryAt d addr
  match blockCheck (coming (fun w => some w.bnd == here) d) addr ws with
  | some r => some r
  | none => blockCheck (coming (fun _ => true) d) addr ws

/-- A STAGED parameter's block runs, or will by an enable already accepted (R88; log entry 129). -/
def comingBusy (d : Dev) (addr : Nat) : Bool := stagedBusy d addr || stagedBusy (coming (fun _ => true) d) addr

/-! ## The write check (R88) -/

/-- The parameter is one of a pin or valve channel that failed the self-test (R494). -/
def failedObject (d : Dev) (addr : Nat) : Bool :=
  let n := instOf addr
  match addr / 2 ^ 20 with
  | 1 => keyOf addr < 0x1080 && bitOf d.pwr.pinFail n
  | 4 => keyOf addr != kVlvOutEn && bitOf d.pwr.vdFail n
  | _ => false

/-- A parameter that only the device writes, although its class is PAIRED (R521, R557). -/
def deviceOnly (addr : Nat) : Option Refuse :=
  if keyOf addr = kHltEpoch then some (refused 0xA0)
  else if keyOf addr = kIdnBinding then some (refused 0xB0)
  else none

/-- The class and type of a parameter take the write command of an opcode (R88). -/
def writeFits (op : Nat) (p : PDef) : Bool :=
  match op with
  | 0x0101 => (p.cls == .live || p.cls == .staged) && !p.ty.isBlob
  | 0x0102 => p.cls == .paired
  | _ => (p.cls == .live || p.cls == .staged) && p.ty.isBlob

/-- The first refusal of a write of words by a write command (R88, R43); the words of a PAIRED write are V and C. -/
def writeCheck (d : Dev) (op addr : Nat) (ws : List Word) : Option Refuse :=
  match findDef addr with
  | none => some ⟨stRange, 0⟩
  | some p =>
    if !writeFits op p then some ⟨stClass, 0⟩
    else
      match deviceOnly addr with
      | some r => some r
      | none =>
        let pairs := pairsOfWords ws
        let vals := if p.cls = .paired then pairs.map (·.1) else ws
        match firstRefusal [
            (p.cls == .paired && pairs.length != p.ty.words, ⟨stRange, 0⟩),
            (p.cls == .paired && !pairsValid pairs, ⟨stPairMismatch, 0⟩),
            (!p.ty.isBlob && !vals.all (inRange (rangeRow d addr p)), ⟨stRange, 0⟩),
            (failedObject d addr, refused 0x94),
            (p.cls == .staged && comingBusy d addr, ⟨stBusyRunning, 0⟩)] with
        | some r => some r
        | none => comingCheck d addr vals

/-! ## On the way to the boundary -/

/-- `PWR_LP_ALLOW` stands at 0 after a brownout until the host writes 1 (R485). -/
def lpWritten (addr commander : Nat) (ws : List Word) (d : Dev) : Dev :=
  when (keyOf addr == kPwrLpAllow && commander == 0 && ws.headD 0 == 1) (pwrMod fun p => { p with lpBarred := false }) d

/-- After a brownout a write that is not the host's leaves `PWR_LP_ALLOW` at 0 (R485). -/
def lpValue (d : Dev) (addr commander : Nat) (ws : List Word) : List Word :=
  if d.pwr.lpBarred && commander != 0 && keyOf addr == kPwrLpAllow then [0] else ws

/-- An output value joins the open tick set at once, and a PWM frequency queues for the one change a set carries for each bank
(R115, R246, R247, R276). -/
def openValue (addr : Nat) (ws : List Word) (d : Dev) : Dev :=
  let key := keyOf addr
  let n := instOf addr
  let v := (ws.headD 0).toNat
  if key = kFioOut then (if h : n < 64 then openDuty ⟨n, h⟩ v d else d)
  else if key = kVlvPropMa then (if h : n < 16 then openProp ⟨n, h⟩ v d else d)
  else if key = kFioPwmHz then
    { d with fio := { d.fio with bank := vModN d.fio.bank (n / 8) fun b => { b with freqWait := b.freqWait ++ [(n % 8, v)] } } }
  else d

/-- A checked value on its way to its boundary: it waits, or applies at once (R88). -/
def landValue (cmd : Option CmdId) (commander addr : Nat) (ws : List Word) (d : Dev) : Dev :=
  match findDef addr with
  | none => d
  | some p =>
    match boundaryOf d addr p with
    | some (b, left) =>
      let d := when (b == .tick && left == 0) (cfgSend addr) d
      pairFirst addr (addWait { addr := addr, words := ws, bnd := b, left := left, cmd := cmd } (openValue addr ws d))
    | none =>
      let t := tickBytes d
      let d := lpWritten addr commander ws (applyParam addr (lpValue d addr commander ws) d)
      match cmd with
      | some id => completeId id 0 0 t d
      | none => d

/-- A write that has passed its checks has begun to apply: it waits for its boundary, or applies at once and completes (R86,
R88, R89). A write of a recipe is a flash operation (R388, R87). -/
def writeValue (c : Cmd) (addr : Nat) (ws : List Word) (d : Dev) : Dev :=
  if keyOf addr = kSvcRecipe then queueFlash c 0 0 [] (some (addr, ws)) d
  else landValue (some c.id) c.commander addr ws (begin_ c.id d)

/-- The values of waits of the field pins and valve channels apply with a hook of their block. -/
def atBoundary (p : Wait → Bool) (d : Dev) : Dev := boundary allHook p d

end Sys2Proof.Machine
end

