-- ==== Sys2Proof/Machine/Mirror.lean ====
section
/-!
DEFINITION. Machine/Mirror.lean: the status words the host reads without a command, the field and health mirrors (R69, R70,
R511, R549), and the READ parameters of SYS, PWR, HLT and IDN.
-/
namespace Sys2Proof.Machine

/-! ## Performance level (R488) -/

/-- Some loop instance runs (R304). -/
def anyLoopRuns (d : Dev) : Bool := (List.finRange 64).any fun i => ctlRuns (d.ctl.inst.get i)

/-- The highest level the caps allow (R488). -/
def levelCap (d : Dev) : Nat :=
  min (if d.hlt.capOn then d.hlt.capLevel else 3) (min (if 2 ≤ d.pwr.lStep then 1 else 3) (if d.hlt.pl3 then 3 else 2))

/-- The level that is to be in force (R488); limp mode holds 0.80 V (R497). -/
def levelWanted (d : Dev) : Nat :=
  if d.host.limp then 0
  else
    let l := min (pget d kPwrPlReq 0) (levelCap d)
    if l = 0 && anyLoopRuns d then 1 else l

/-! ## Words (R511, R549) -/

/-- The number whose `bits`-bit digits are the numbers of a list, lowest first. -/
def packNats (bits : Nat) (xs : List Nat) : Nat := xs.foldr (fun x a => x % 2 ^ bits + 2 ^ bits * a) 0

/-- `MIR_PWR`. -/
def mirPwr (d : Dev) : Nat :=
  d.pwr.level % 4 + 4 * (pget d kPwrPlReq 0) + 16 * levelCap d + 64 * b2n d.hlt.pl3 + 128 * b2n d.host.limp +
    1024 * packNats 2 d.pwr.dom.toList

/-- `MIR_SHED`. -/
def mirShed (d : Dev) : Nat :=
  (2 ^ d.pwr.fStep - 1) + 256 * (2 ^ d.pwr.lStep - 1) +
    65536 * packBits 4 (fun c => 1 ≤ c && vAt d.pwr.shed c false) + 2 ^ 20 * (d.pwr.vfld / 100 % 4096)

/-- A group spare substitutes; a channel is on DXS. -/
def spareUsed (d : Dev) (g : Nat) : Bool := (vAt d.afe.grp g AfeSt.reset.grp[0]).serves.isSome
def onDxs (d : Dev) (n : Nat) : Bool := (vAt d.dlx.ch n DlxCh.reset).path == .subst

/-- The load CE2 carries: 0 none, 1 LOAD0, 2 LOAD1. -/
def ce2Load (d : Dev) : Nat :=
  if vAt d.ctl.serving 0 0 = 2 then 1 else if vAt d.ctl.serving 1 0 = 2 then 2 else 0

/-- `MIR_HEALTH`. -/
def mirHealth (d : Dev) : Nat :=
  let h := d.hlt
  b2n h.patrolLost + 2 * b2n h.supSingle + 4 * b2n (ce2Load d != 0) + 8 * b2n ((List.range 4).any (spareUsed d)) +
    16 * b2n ((List.range 4).any (onDxs d)) + 32 * b2n (h.units.toList.any fun u => u.st == 3) + 64 * b2n h.doubleFault +
    128 * b2n h.demand + 256 * b2n h.pl3 + 512 * b2n h.exhausted + 1024 * b2n (h.sensors.toList.any (·.failed)) +
    2048 * (h.thrStep % 8) + 16384 * b2n h.clockFault + 32768 * b2n (h.refs.toList.any (·.failed))

/-- `MIR_XOVER`. -/
def mirXover (d : Dev) : Nat :=
  b2n d.hlt.scActive + 4 * ce2Load d + 16 * packBits 4 (spareUsed d) + 256 * packBits 4 (onDxs d) +
    4096 * b2n d.hlt.synthTaken + 65536 * (d.hlt.subs % 65536)

/-- `MIR_TEMP` of a sensor. -/
def mirTemp (s : SensorSt) : Nat := 65536 * toBits 16 s.value + 4 * b2n s.warn + 2 * b2n s.failed + b2n s.failed

/-- `HLT_THROTTLE` (R550). -/
def throttleWord (d : Dev) : Nat :=
  d.hlt.thrStep % 8 + 16 * (d.hlt.capLevel % 4) + 64 * b2n d.hlt.capOn + 128 * b2n (d.hlt.sensors.toList.any (·.failed))

/-- Lift frames discarded in both directions (R124). -/
def liftDiscards (d : Dev) : Nat := d.lift.upDisc + d.lift.downDiscRep

/-! ## Mirrors (R69, R70) -/

/-- The words of a list of numbers as a mirror. -/
def mirrorOf (xs : List Nat) : Vector Word 64 := Vector.ofFn fun n => w32 (xs.getD n.val 0)

/-- The field mirror as the control die has it now. -/
def fieldMirror (d : Dev) : Vector Word 64 :=
  let seen := d.fio.pin.toList.map (·.seen)
  let bits := fun (k : Nat) => packNats 1 (seen.map fun s => fld s k 1)
  let faults := packNats 2 (seen.map faultCode)
  let banks := packBits 8 fun b => (List.range 8).all fun k => bitOf (seen.getD (8 * b + k) 0) 13
  mirrorOf (
    [d.lift.newest, d.lift.newest / 2 ^ 32, d.gate.bib.toNat, 0, bits 0, bits 0 / 2 ^ 32, bits 4, bits 4 / 2 ^ 32] ++
    ((List.range 4).map fun k => fld faults (32 * k) 32) ++ [256 * b2n d.lift.stopSeen + banks, 0] ++
    (d.vlv.ch.toList.map fun c => c.status.toNat) ++ [0, 0] ++ (d.afe.ch.toList.map fun c => c.result.toNat))

/-- The health mirror as it stands now. -/
def healthMirror (d : Dev) : Vector Word 64 :=
  let li := packNats 4 (d.ctl.inst.toList.map ctlState)
  mirrorOf (
    (d.dlx.ch.toList.map fun c => c.result.toNat) ++ [mirHealth d, mirPwr d, mirTq d, mirShed d] ++
    (d.hlt.sensors.toList.map mirTemp) ++ [mirXover d, liftDiscards d] ++ ((List.range 8).map fun k => fld li (32 * k) 32))

/-- The health mirror refreshed; HEALTH is set where a word changes (R66, R70). -/
def healthRefresh (d : Dev) : Dev :=
  let m := healthMirror d
  if m = d.host.healthMir then d
  else intSet (2 ^ 26) { d with host := { d.host with healthMir := m } }

/-- A change of `MIR_HEALTH`, `MIR_SHED` or `MIR_XOVER` refreshes the health mirror (R70). -/
def healthCheck (d : Dev) : Dev :=
  if w32 (mirHealth d) = vAt d.host.healthMir 4 0 && w32 (mirShed d) = vAt d.host.healthMir 7 0 &&
      w32 (mirXover d) = vAt d.host.healthMir 22 0 then d
  else healthRefresh d

/-- The field mirror refreshed at the end of an uplink image cycle (R70). -/
def fieldRefresh (d : Dev) : Dev := { d with host := { d.host with fieldMir := fieldMirror d } }

/-! ## READ parameters of SYS, PWR, HLT and IDN -/

/-- Link state: 0 down, 1 acquiring, 2 locked, 3 keepalive (R134). -/
def LockSt.code : LockSt → Nat
  | .out 0 _ => 0
  | .out _ _ => 1
  | .locked _ => 2
  | .keepalive => 3

/-- `SYS_LIFT_STATE` (R134): the stop as the latest field mirror shows it. -/
def liftStateWord (d : Dev) : Nat := d.lift.up.code + 4 * fld (vAt d.host.fieldMir 12 0).toNat 8 1

/-- READ parameters of PWR (R510): voltages to 10 mV. -/
def pwrRead (d : Dev) (addr : Nat) : List Word :=
  let key := keyOf addr
  if key = kPwrState then [w32 (mirPwr d)]
  else if key = kPwrShed then [w32 (mirShed d)]
  else if key = kPwrVlog then [w32 (d.pwr.vlog / 10 * 10)]
  else if key = kPwrVfld then [w32 (d.pwr.vfld / 10 * 10)]
  else [w32 d.pwr.pl3Mv]

/-- READ parameters of HLT (R550). -/
def hltRead (d : Dev) (addr : Nat) : List Word :=
  let key := keyOf addr
  let n := instOf addr
  let s := vAt d.hlt.sensors n HltSt.reset.sensors[0]
  let u := vAt d.hlt.units n (UnitSt.reset n)
  if key = kHltTemp then [iw s.value]
  else if key = kHltTempOfs then [iw s.ofs]
  else if key = kHltThrottle then [w32 (throttleWord d)]
  else if key = kHltPlan then
    wordsOf 4 (le 2 d.hlt.v3 ++ le 1 (b2n d.hlt.pl3) ++ le 1 0 ++ le 2 d.hlt.groomPass ++ le 2 0 ++ le 8 d.hlt.planDt)
  else if key = kHltUnit then [w32 (u.st % 4 + 256 * (u.role % 256) + 65536 * (u.faults % 65536))]
  else (List.range 8).map fun k => w32 (if k = 6 then liftDiscards d else vAt d.hlt.counts k 0)

/-- The binding's 60 bytes; all 0 while the device holds no valid one (R557, R595). -/
def binding (d : Dev) : List Byte := padTo 60 (bytesOf (pairWords d (addrOf kIdnBinding 0)))

/-- The chain number of the binding, 0 unenrolled (R557, R560). -/
def chainNo (d : Dev) : Nat := field (binding d) 48 4

/-- CHAIN_INDEX of the newest record; 0 in an empty store (log entry 1). -/
def lastIndex (d : Dev) : Nat := d.idn.next - 1

/-- READ parameters of IDN (R565). -/
def idnRead (d : Dev) (addr : Nat) : List Word :=
  let key := keyOf addr
  if key = kIdnState then [w32 (b2n (chainNo d != 0) + 2 * b2n d.idn.keyFault + 16 * (d.svc.closed.length % 16))]
  else if key = kIdnChain then [w32 (chainNo d)]
  else if key = kIdnLastIndex then [w32 (lastIndex d)]
  else [w32 d.idn.exported]

/-- The words of a READ parameter. -/
def readWords (d : Dev) (addr : Nat) : List Word :=
  match addr / 2 ^ 20 with
  | 0 => [w32 (liftStateWord d)]
  | 1 => fioRead d addr
  | 2 => afeRead d addr
  | 3 => dlxRead d addr
  | 4 => vlvRead d addr
  | 5 => ctlRead d addr
  | 6 => svcRead d addr
  | 7 => busRead d addr
  | 8 => gnsRead d addr
  | 9 => pwrRead d addr
  | 10 => hltRead d addr
  | 11 => idnRead d addr
  | _ => [0]

/-! ### The tick of last change of a READ parameter (R93) -/

/-- Every READ parameter. -/
def readAddrs : List Nat :=
  (List.range 13).flatMap fun s => ((paramTable s).filter fun p => p.cls == .read).flatMap fun p =>
    (List.range p.insts).map fun n => addrOf p.key n

/-- What each held at the last TICK edge, and when it last changed; the words of reset before the first edge. -/
def readsSeen (d : Dev) : List (List Word × Nat) :=
  if d.cmd.reads.isEmpty then readAddrs.map fun a => (readWords Dev.reset a, 0) else d.cmd.reads

/-- A tick ends: each parameter that now differs has changed in it. -/
def readsNote (d : Dev) : Dev :=
  let note := fun (x : Nat × List Word × Nat) =>
    let now := readWords d x.1
    if now = x.2.1 then x.2 else (now, d.time.tick)
  { d with cmd := { d.cmd with reads := (readAddrs.zip (readsSeen d)).map note } }

/-- The tick of last change of a READ parameter: the present one where it differs from the last edge. -/
def readTick (d : Dev) (addr : Nat) : Nat :=
  match (readAddrs.zip (readsSeen d)).find? fun x => x.1 == addr with
  | some x => if readWords d addr = x.2.1 then x.2.2 else d.time.tick
  | none => 0

/-- The words of a coefficient set as a parameter holds them (R332): its image, or 0 while it holds none. -/
def coefSetWords (d : Dev) (addr : Nat) : List Word :=
  if h : instOf addr < 64 then
    let i : LI := ⟨instOf addr, h⟩
    match (ctlInst d i).sets.find? fun p => p.1 = keyOf addr - kCtlCoefSet with
    | some p =>
      let img := setImage p.2.coefs ++ le 4 p.2.crc.toNat
      wordsOf (img.length / 4) img
    | none => [0]
  else [0]

end Sys2Proof.Machine
end

