-- ==== Sys2Proof/Machine/Take.lean ====
section
/-!
DEFINITION. Machine/Take.lean: what the device checks of every command entry before the command's own checks (R81, R591), and
the taking of entries from the command rings and remote lanes (R76, R79, R83, R84, R101).
-/
namespace Sys2Proof.Machine

/-! ## The command tables (R93 and the command table of each chapter) -/

/-- The LENGTH a command requires: so many bytes; one to five pairs; a chunk of a BLOB, whose own length field counts its
data; an offset with 1 to 44 bytes of data; or the coefficients that byte 4 counts (log entry 30). -/
inductive OpLen where
  | bytes (n : Nat)
  | pairs
  | chunk
  | data
  | coefs
  deriving DecidableEq, Repr

/-- One command: opcode, rings it is taken on (bit r for Qr), LENGTH, whether it only reads (R509) and whether it is a flash
command (R87). -/
structure OpRow where
  op : Nat
  rings : Nat
  len : OpLen
  reads : Bool
  flash : Bool
  deriving DecidableEq, Repr

/-- Commands of the groups 0x00 to 0x0F (R93). -/
def opsDevice : List OpRow := [
  ⟨0x0001, 15, .bytes 0, true, false⟩,
  ⟨0x0002, 15, .bytes 0, true, false⟩,
  ⟨0x0010, 6, .bytes 0, false, false⟩,
  ⟨0x0011, 7, .bytes 0, false, false⟩,
  ⟨0x0012, 1, .bytes 0, false, false⟩,
  ⟨0x0013, 6, .bytes 4, false, false⟩,
  ⟨0x0100, 15, .bytes 0, true, false⟩,
  ⟨0x0101, 14, .bytes 4, false, false⟩,
  ⟨0x0102, 6, .pairs, false, false⟩,
  ⟨0x0103, 14, .chunk, false, false⟩,
  ⟨0x0104, 15, .bytes 0, true, false⟩,
  ⟨0x0110, 6, .bytes 0, false, false⟩,
  ⟨0x0111, 6, .bytes 2, false, false⟩,
  ⟨0x0112, 6, .bytes 2, false, false⟩,
  ⟨0x0200, 1, .bytes 1, false, false⟩,
  ⟨0x0300, 12, .bytes 8, false, true⟩,
  ⟨0x0301, 12, .data, false, true⟩,
  ⟨0x0302, 12, .bytes 4, false, true⟩,
  ⟨0x0303, 4, .bytes 1, false, true⟩,
  ⟨0x0304, 15, .bytes 1, true, false⟩,
  ⟨0x0305, 12, .bytes 1, false, true⟩,
  ⟨0x0310, 12, .bytes 4, false, true⟩,
  ⟨0x0311, 12, .data, false, true⟩,
  ⟨0x0312, 12, .bytes 0, false, true⟩,
  ⟨0x0313, 4, .bytes 0, false, true⟩,
  ⟨0x0400, 12, .bytes 8, true, false⟩]

/-- Commands of the groups 0x11 to 0x15 (R190, R227, R266, R301, R355). -/
def opsField : List OpRow := [
  ⟨0x1101, 15, .bytes 0, true, false⟩,
  ⟨0x1102, 6, .bytes 0, false, false⟩,
  ⟨0x1103, 14, .bytes 0, false, false⟩,
  ⟨0x1104, 15, .bytes 0, true, false⟩,
  ⟨0x1201, 15, .bytes 0, true, false⟩,
  ⟨0x1202, 14, .bytes 0, false, false⟩,
  ⟨0x1301, 15, .bytes 0, true, false⟩,
  ⟨0x1302, 15, .bytes 1, true, false⟩,
  ⟨0x1303, 4, .bytes 8, false, false⟩,
  ⟨0x1304, 12, .bytes 2, false, false⟩,
  ⟨0x1305, 12, .bytes 6, false, false⟩,
  ⟨0x1306, 4, .bytes 9, false, false⟩,
  ⟨0x1307, 15, .bytes 2, true, false⟩,
  ⟨0x1401, 6, .bytes 4, false, false⟩,
  ⟨0x1402, 15, .bytes 0, true, false⟩,
  ⟨0x1403, 6, .bytes 0, false, false⟩,
  ⟨0x1501, 6, .bytes 8, false, false⟩,
  ⟨0x1502, 12, .coefs, false, false⟩,
  ⟨0x1503, 12, .bytes 8, false, false⟩,
  ⟨0x1504, 6, .bytes 1, false, false⟩,
  ⟨0x1505, 6, .bytes 0, false, false⟩,
  ⟨0x1506, 6, .bytes 8, false, false⟩,
  ⟨0x1507, 15, .bytes 0, true, false⟩,
  ⟨0x1508, 14, .bytes 0, false, false⟩,
  ⟨0x1509, 15, .bytes 0, true, false⟩,
  ⟨0x150A, 15, .bytes 5, true, false⟩]

/-- Commands of the groups 0x16 to 0x1B (R396, R437, R479, R512, R551, R566). -/
def opsPlant : List OpRow := [
  ⟨0x1601, 6, .bytes 1, false, false⟩,
  ⟨0x1602, 7, .bytes 0, false, false⟩,
  ⟨0x1603, 3, .bytes 0, false, false⟩,
  ⟨0x1604, 6, .bytes 1, false, false⟩,
  ⟨0x1605, 15, .bytes 1, true, false⟩,
  ⟨0x1606, 7, .bytes 0, false, false⟩,
  ⟨0x1607, 6, .bytes 0, false, false⟩,
  ⟨0x1608, 4, .bytes 1, false, false⟩,
  ⟨0x1609, 6, .bytes 4, false, false⟩,
  ⟨0x160A, 12, .bytes 3, true, true⟩,
  ⟨0x160B, 6, .bytes 0, false, false⟩,
  ⟨0x160C, 6, .bytes 0, false, false⟩,
  ⟨0x1701, 4, .bytes 7, false, false⟩,
  ⟨0x1702, 15, .bytes 0, true, false⟩,
  ⟨0x1703, 3, .bytes 0, false, false⟩,
  ⟨0x1704, 15, .bytes 4, true, false⟩,
  ⟨0x1705, 6, .bytes 1, false, false⟩,
  ⟨0x1706, 15, .bytes 0, true, false⟩,
  ⟨0x1801, 15, .bytes 0, true, false⟩,
  ⟨0x1802, 6, .bytes 12, false, false⟩,
  ⟨0x1803, 6, .bytes 0, false, false⟩,
  ⟨0x1804, 6, .bytes 16, false, false⟩,
  ⟨0x1805, 14, .bytes 0, false, false⟩,
  ⟨0x1806, 15, .bytes 1, true, false⟩,
  ⟨0x1901, 6, .bytes 4, false, false⟩,
  ⟨0x1902, 6, .bytes 2, false, false⟩,
  ⟨0x1903, 15, .bytes 0, true, false⟩,
  ⟨0x1A01, 15, .bytes 0, true, false⟩,
  ⟨0x1A02, 4, .bytes 0, false, false⟩,
  ⟨0x1A03, 12, .bytes 12, true, true⟩,
  ⟨0x1A04, 6, .bytes 0, false, false⟩,
  ⟨0x1B01, 14, .bytes 32, false, false⟩,
  ⟨0x1B02, 15, .bytes 4, true, false⟩,
  ⟨0x1B03, 4, .bytes 0, false, true⟩,
  ⟨0x1B04, 12, .bytes 8, true, true⟩,
  ⟨0x1B05, 4, .bytes 0, false, false⟩]

/-- The command of an opcode. -/
def opRow (op : Nat) : Option OpRow := (opsDevice ++ opsField ++ opsPlant).find? fun r => r.op = op

/-- LENGTH is what the command requires (R81). -/
def lenOk (l : OpLen) (c : Cmd) : Bool :=
  match l with
  | .bytes n => c.length == n
  | .pairs => c.length % 8 == 0 && 8 ≤ c.length && c.length ≤ 40
  | .chunk => 4 ≤ c.length && c.length ≤ 48 && field c.payload 2 2 + 4 == c.length
  | .data => 5 ≤ c.length && c.length ≤ 48
  | .coefs => c.length == 8 + 5 * byteAt c.payload 4

/-- A flash command (R87); a write of a recipe is one too (R388). -/
def isFlash (op target : Nat) : Bool :=
  (match opRow op with
   | some r => r.flash
   | none => false) || (op == 0x0103 && keyOf (target % 2 ^ 24) == kSvcRecipe)

/-- Flash commands taken and not complete (R87). -/
def flashHeld (d : Dev) : Nat := (d.cmd.live.filter fun c => !c.dup && c.phase != .done && isFlash c.opcode c.target).length

/-- Commands that limp mode allows (R497). -/
def limpAllows (op : Nat) : Bool :=
  [0x0001, 0x0002, 0x0013, 0x0100, 0x0400, 0x1903].contains op || op / 256 == 3

/-- Commands that the maintenance loader takes (R97). -/
def loaderAllows (op : Nat) : Bool := 0x0310 ≤ op && op ≤ 0x0313

/-- The domain a command's function lies in, where that domain may stay OFF (R497); 5 for the flash. -/
def opDomain (op target : Nat) : Option Nat :=
  if isFlash op target then some 5
  else match op / 256 with
    | 0x11 => some 8
    | 0x12 => some 9
    | 0x13 => some 10
    | 0x14 => some 8
    | 0x15 => some 2
    | 0x17 => some 4
    | 0x18 => some 3
    | _ => none

/-! ## The checks of R591 -/

/-- A remote command's role and epoch are the current ones of its commander (R434). -/
def rmbCurrent (d : Dev) (c : Nat) (b : List Byte) : Bool :=
  let role := pget d kBusRmbRole c
  byteAt b 14 == role && byteAt b 15 == if role = 0xFF then 0 else roleEpoch d role % 256

/-- A remote command that no grant lets through (R102, R434, R498, R502), one that did not enter the lane it names among them. -/
def rmbBarred (d : Dev) (c : Cmd) : Bool :=
  let g := pget d kHstRmbGrant 0
  let lane := c.flags / 4 % 4
  lane != c.ring.val || (lane == 1 && !bitOf g 0) || ((c.opcode == 0x0102 || c.opcode == 0x1B03) && !bitOf g 1) ||
    (c.opcode / 256 == 3 && c.opcode != 0x0304 && !bitOf g 2) ||
    ((c.opcode == 0x0010 || c.opcode == 0x0011) && !bitOf g 3) ||
    (isParamWrite c.opcode && c.target / 2 ^ 20 % 16 == 0xC) || c.opcode == 0x1901 || c.opcode == 0x1902

/-- A reserved field of an entry is not 0 (R81, R434). -/
def reservedSet (c : Cmd) (b : List Byte) : Bool :=
  48 < c.length || (c.flags % 2 == 0 && c.batchId != 0) ||
    (if c.commander = 0 then c.flags / 2 != 0 || field b 14 2 != 0
     else c.flags / 2 % 2 == 1 || c.flags / 16 != 0 || 31 < byteAt b 0)

/-- The first refusal of an entry whose tag is not live (R591), after it those of R93, R97, R497 and R509 that a command's own
chapter repeats. -/
def entryRefusal (d : Dev) (c : Cmd) (b : List Byte) : Option Refuse :=
  if reservedSet c b then some ⟨stRange, 0⟩
  else
    match opRow c.opcode with
    | none => some ⟨stUnknownOp, 0⟩
    | some r =>
      let batch := c.flags % 2 == 1
      let dead := match opDomain c.opcode c.target with
        | some n => vAt d.pwr.domDead n false
        | none => false
      firstRefusal [
        (!bitOf r.rings c.ring || (isFlash c.opcode c.target && c.ring.val < 2), refused 0x01),
        (c.commander != 0 && !rmbCurrent d ((c.commander - 1) % 8) b, ⟨stFenced, 0⟩),
        (c.commander != 0 && rmbBarred d c, refused 0x05),
        (!lenOk r.len c, ⟨stRange, 0⟩),
        (batch && c.opcode == 0x1501, refused 0x02),
        (batch && !isParamWrite c.opcode, ⟨stRange, 0⟩),
        (d.host.limp && !limpAllows c.opcode, refused 0x92),
        (d.host.stage == 0xF0 && !loaderAllows c.opcode, refused 0x92),
        (4 ≤ d.pwr.lStep && c.ring != 0 && !r.reads, ⟨stShed, 0⟩),
        (3 ≤ d.pwr.lStep && isFlash c.opcode c.target, ⟨stShed, 0⟩),
        (dead, refused 0x95)]

/-! ## Taking (R76, R79, R83) -/

/-- An entry as the device holds it from its 64 bytes (R81). -/
def entryCmd (id : CmdId) (ring : Fin 4) (commander slot : Nat) (b : List Byte) : Cmd where
  id := id
  ring := ring
  commander := commander
  flags := byteAt b 1
  opcode := field b 2 2
  target := field b 4 4
  length := field b 8 2
  timeout := field b 10 2
  batchId := field b 12 2
  payload := (b.drop 16).take 48
  slot := slot
  dup := false
  phase := .taken
  written := false
  note := 0

/-- A batch changed. -/
def batchMod (id : Nat) (f : Batch → Batch) (d : Dev) : Dev :=
  { d with cmd := { d.cmd with batches := d.cmd.batches.map fun b => if b.id = id then f b else b } }

/-- An entry enters the device: DUP where its tag is live (R84), else its tag is live, and it is refused at once where R591
refuses it; `bad` says that its memory holds an uncorrectable error (R518). A coefficient write that names a batch fails the
batch (R90). -/
def enter (c : Cmd) (b : List Byte) (bad : Bool) (d : Dev) : Dev :=
  if (liveCmd d c.id).isSome then
    let c := { c with dup := true, phase := .done }
    post 5 (.comp (compOf c stNoTag 0 false [])) { d with cmd := { d.cmd with live := d.cmd.live ++ [c] } }
  else
    let d := { d with cmd := { d.cmd with live := d.cmd.live ++ [c] } }
    match (if bad then some ⟨stIntegrity, 0⟩ else entryRefusal d c b) with
    | none => d
    | some r =>
      let d := refuse c r d
      if r = refused 0x02 then batchMod c.batchId (fun x => { x with failed := true }) d else d

/-- The device takes commands at all: start-up has reached its last step, or limp mode or the loader runs, and D1 is ON. -/
def deviceTakes (d : Dev) : Bool := domOn d 1 && [0x80, 0xE0, 0xF0].contains d.host.stage

/-- The completion ring of a command ring can take one more reserved slot (R76). -/
def slotFree (d : Dev) (r : Fin 4) : Bool :=
  let q := ringOf d (r.val + 4)
  q.en && d.cmd.resv.get r < q.free

/-- A flash command waits on its ring while 16 are held (R87). -/
def flashWaits (d : Dev) (b : List Byte) : Bool := isFlash (field b 2 2) (field b 4 4) && 16 ≤ flashHeld d

/-- The entry at the head of a command ring. -/
def headEntry (s : State) (r : Fin 4) : List Byte := memRead s.mem ((ringOf s.dev r).slotAt r (ringOf s.dev r).head) 64

/-- The host's ring has an entry the device can take. -/
def hostReady (s : State) (r : Fin 4) : Bool :=
  let q := ringOf s.dev r
  q.en && q.count != 0 && domOn s.dev 6 && slotFree s.dev r && !flashWaits s.dev (headEntry s r)

/-- A remote lane has an entry the device can take. -/
def laneReady (s : State) (r : Fin 4) : Bool :=
  match s.dev.cmd.remoteLane.get r with
  | [] => false
  | (_, b) :: _ => !flashWaits s.dev b

/-- Where the next entry of a ring comes from: the ring (false) or its remote lane (true), alternating (R79). -/
def ringSource (s : State) (r : Fin 4) : Option Bool :=
  match hostReady s r, laneReady s r with
  | false, false => none
  | true, false => some false
  | false, true => some true
  | true, true => some (s.dev.cmd.laneTurn.get r)

/-- The ring and source of the next entry (R79); only Q0 while `SLEEP_REQ` is in progress (R499). -/
def nextSource (s : State) : Option (Fin 4 × Bool) :=
  let try_ := fun (r : Fin 4) => (ringSource s r).map fun x => (r, x)
  match try_ 0 with
  | some x => some x
  | none =>
    if s.dev.pwr.sleepCmd.isSome then none
    else
      match try_ 1 with
      | some x => some x
      | none =>
        let a : Fin 4 := if s.dev.cmd.q23 then 3 else 2
        let b : Fin 4 := if s.dev.cmd.q23 then 2 else 3
        match try_ a with
        | some x => some x
        | none => try_ b

/-- After an entry of a ring: the other one of Q2 and Q3 comes first, and the other source of the ring (R79). -/
def turned (r : Fin 4) (remote : Bool) (c : CmdSt) : CmdSt :=
  { c with
    q23 := if r = 2 then true else if r = 3 then false else c.q23
    laneTurn := c.laneTurn.set r (!remote) }

/-- Takes the entry at the head of a host ring: a completion slot is reserved in the order of taking (R76, R33). -/
def takeHost (r : Fin 4) (s : State) : State :=
  let b := headEntry s r
  let d := s.dev
  let bad := badIn d ((ringOf d r).slotAt r (ringOf d r).head) 64
  let slot := ((ringOf d (r.val + 4)).tail + d.cmd.resv.get r) % 65536
  let d := irqCheck r (ringMod r (fun q => { q with head := (q.head + 1) % 65536 }) d)
  let d := { d with cmd := turned r false { d.cmd with resv := vMod d.cmd.resv r (· + 1) } }
  { s with dev := enter (entryCmd (.host (b.headD 0)) r 0 slot b) b bad d }

/-- Takes the oldest entry of a remote lane. The key holds channel, commander and whether the request was an FD frame
(R435); the `slot` of a remote command is 1 for an FD request. -/
def takeLane (r : Fin 4) (s : State) : State :=
  match s.dev.cmd.remoteLane.get r with
  | [] => s
  | (k, b) :: rest =>
    let d := s.dev
    let d := { d with cmd := turned r true { d.cmd with remoteLane := d.cmd.remoteLane.set r rest } }
    let ch : Fin 2 := if k / 8 % 2 = 1 then 1 else 0
    { s with dev := enter (entryCmd (.remote ch (b.headD 0)) r (1 + k % 16) (k / 16) b) b false d }

/-- Takes one entry, where one can be taken. -/
def takeOne (s : State) : State :=
  if !deviceTakes s.dev then s
  else match nextSource s with
    | none => s
    | some (r, false) => takeHost r s
    | some (r, true) => takeLane r s

/-- Takes up to so many entries. -/
def takeN : (n : Nat) → State → State
  | 0, s => s
  | n + 1, s => takeN n (takeOne s)

/-- Takes every entry that can be taken now, in the order of R79. -/
def takeAll (s : State) : State :=
  takeN ((List.finRange 4).foldl (fun a (r : Fin 4) => a + (ringOf s.dev r).count + (s.dev.cmd.remoteLane.get r).length) 0) s

/-- A command that may write rings and after which the device looks for entries to take. -/
def taking (f : Dev → Dev) (s : State) : Host.Outcome State Fault Refusal := .next (takeAll (settle { s with dev := f s.dev }))

end Sys2Proof.Machine
end

