-- ==== Sys2Proof/Machine/Images.lean ====
section
/-!
DEFINITION. Machine/Images.lean: configuration images and firmware banks (R93, R94): writing, closing, checking, applying.
-/
namespace Sys2Proof.Machine

/-! ## Images -/

/-- Changes a slot. -/
def slotMod (n : Nat) (f : ImgSlot → ImgSlot) (d : Dev) : Dev := { d with cmd := { d.cmd with slots := vModN d.cmd.slots n f } }

/-- A slot. -/
def slotOf (d : Dev) (n : Nat) : ImgSlot := vAt d.cmd.slots n ImgSlot.reset

/-- The CRC of an image, its own bytes 28-31 taken as 0 (R94). -/
def imgCrc (bs : List Byte) : Nat := crc32 (bs.take 28 ++ [0, 0, 0, 0] ++ bs.drop 32)

/-- GENERATION of a slot that holds a closed image, else 0. -/
def generation (d : Dev) (n : Nat) : Nat := if (slotOf d n).closed then field (slotOf d n).bytes 12 4 else 0

/-- Bytes of a list overwritten from an offset. -/
def overwrite (bs : List Byte) (ofs : Nat) (new : List Byte) : List Byte := bs.take ofs ++ new ++ bs.drop (ofs + new.length)

/-- The records of a stored image that breaks none of R94; none where it is refused with ST_INTEGRITY. -/
def imageRecords (d : Dev) (n : Nat) : Option (List (Nat × List Word)) :=
  let s := slotOf d n
  let bs := s.bytes
  if !s.closed || field bs 0 4 != 0x3A9640C1 || field bs 4 2 != 1 || field bs 8 4 != bs.length || bs.length < 32 ||
      field bs 28 4 != imgCrc bs then none
  else goodRecords d (field bs 24 4) (wordsOf (ceilDiv (bs.length - 32) 4) (bs.drop 32))

/-- AUTOSTART of a stored image. -/
def imageAutostart (d : Dev) (n : Nat) : Bool := bitOf (field (slotOf d n).bytes 6 2) 0

/-- The write command that a parameter's class and type take (R88). -/
def writeOp (p : PDef) : Nat := if p.cls = .paired then 0x0102 else if p.ty.isBlob then 0x0103 else 0x0101

/-- The block that a record touches runs (R93): of a bank or group, any of its pins or channels. -/
def recordBusy (d : Dev) (addr : Nat) : Bool :=
  let key := keyOf addr
  let n := instOf addr
  match findDef addr with
  | none => false
  | some p =>
    if addr / 2 ^ 20 = 1 ∧ 0x1080 ≤ key then (List.range 8).any fun k => !fioStopped d (8 * n + k)
    else if key = kVlvOutEn then (List.range 4).any fun k => !vlvStopped d (4 * n + k)
    else if addr / 2 ^ 20 = 2 ∧ kAfeBlkSel ≤ key ∧ key ≠ kAfeTable then false
    else p.cls != .read && (p.insts != 1 || p.cls == .staged) && stagedBusy d addr

/-- One record of an image applied. A record that its own parameter's checks refuse, one of a READ parameter and one that only
the device writes are passed over (log entry 31). The configuration is checked as for a device that has started. -/
def applyRecord (boot : Bool) (r : Nat × List Word) (d : Dev) : Dev :=
  match findDef r.1 with
  | none => d
  | some p =>
    let e := { d with svc := { d.svc with ran := true } }
    if (writeCheck e (writeOp p) r.1 r.2).isSome then d
    else if boot && keyOf r.1 == kCtlEnable then setParam r.1 r.2 d
    else openValue r.1 r.2 (applyParam r.1 r.2 d)

/-- A stored image applied in image order (R94). At boot nothing starts: loops are enabled at `RUN` (R97). -/
def applyImage (boot : Bool) (n : Nat) (d : Dev) : Dev :=
  match imageRecords d n with
  | none => d
  | some rs => forEach rs (applyRecord boot) d

/-- `IMG_OPEN`: one slot is open at a time (log entry 32). A length below that of an image's header is out of range (log entry
153). -/
def cmdImgOpen (c : Cmd) (d : Dev) : Dev :=
  let n := byteAt c.payload 0
  let len := field c.payload 4 4
  if 1 < n ∨ len < 32 ∨ 131072 < len then refuse c ⟨stRange, 0⟩ d
  else
    let d := { d with cmd := { d.cmd with slots := d.cmd.slots.map fun s => { s with opened := none } } }
    queueFlash c 0 0 [] none (slotMod n (fun s =>
      { s with bytes := List.replicate len 0xFF, opened := some len, closed := false }) d)

/-- The open slot. -/
def openSlot (d : Dev) : Option (Nat × Nat) :=
  (List.range 2).findSome? fun n => (slotOf d n).opened.map fun l => (n, l)

/-- `IMG_DATA`. -/
def cmdImgData (c : Cmd) (d : Dev) : Dev :=
  let ofs := field c.payload 0 4
  let data := (c.payload.drop 4).take (c.length - 4)
  match openSlot d with
  | none => refuse c (refused 0) d
  | some (n, len) =>
    if len < ofs + data.length then refuse c ⟨stRange, 0⟩ d
    else queueFlash c 0 0 [] none (slotMod n (fun s => { s with bytes := overwrite s.bytes ofs data }) d)

/-- `IMG_CLOSE`: the CRC given, GENERATION and the new CRC (R94). The slot is closed when its flash operation is done. -/
def cmdImgClose (c : Cmd) (d : Dev) : Dev :=
  match openSlot d with
  | none => refuse c (refused 0) d
  | some (n, _) =>
    let bs := (slotOf d n).bytes
    if imgCrc bs != field c.payload 0 4 then refuse c ⟨stIntegrity, 0⟩ d
    else
      let gen := (max (generation d 0) (generation d 1) + 1) % 2 ^ 32
      let bs := overwrite bs 12 (le 4 gen)
      let bs := overwrite bs 28 (le 4 (imgCrc bs))
      queueFlash c 1 n (le 4 gen) none (slotMod n (fun s => { s with bytes := bs, opened := none }) d)

/-- `IMG_APPLY` has begun once its checks have passed; the values apply at the next TICK edge (R86, R94). -/
def cmdImgApply (c : Cmd) (d : Dev) : Dev :=
  let n := byteAt c.payload 0
  if 1 < n then refuse c ⟨stRange, 0⟩ d
  else match imageRecords d n with
    | none => refuse c ⟨stIntegrity, 0⟩ d
    | some rs =>
      if rs.any fun r => recordBusy d r.1 then refuse c ⟨stBusyRunning, 0⟩ d else begin_ c.id d

/-- The images whose application waits for the TICK edge. -/
def imgApplyTick (d : Dev) : Dev :=
  let t := tickBytes d
  forEach (d.cmd.live.filter fun c => c.opcode == 0x0303 && c.phase == .begun && !c.dup) (fun c d =>
    completeId c.id 0 0 t (applyImage false (byteAt c.payload 0) d)) d

/-- `IMG_INFO`: the header's copy in main SRAM (R93). -/
def cmdImgInfo (c : Cmd) (d : Dev) : Dev :=
  let n := byteAt c.payload 0
  let h := padTo 32 (slotOf d n).header
  if 1 < n then refuse c ⟨stRange, 0⟩ d
  else complete c 0 0 ((h.drop 8).take 4 ++ (h.drop 12).take 4 ++ (h.drop 6).take 2 ++ [0, 0] ++ (h.drop 16).take 8) d

/-- `IMG_ERASE`: the slot is empty when its flash operation is done. -/
def cmdImgErase (c : Cmd) (d : Dev) : Dev :=
  let n := byteAt c.payload 0
  if 1 < n then refuse c ⟨stRange, 0⟩ d else queueFlash c 2 n [] none (slotMod n (fun s => { s with opened := none }) d)

/-! ## Firmware -/

/-- Changes the inactive bank. -/
def fwMod (f : FwSt → FwSt) (d : Dev) : Dev := { d with cmd := { d.cmd with fw := f d.cmd.fw } }

/-- `FW_OPEN`: a bank of code flash holds 2 MB (R28); a length of 0 and one above are out of range (log entry 153). -/
def cmdFwOpen (c : Cmd) (d : Dev) : Dev :=
  let len := field c.payload 0 4
  if len = 0 ∨ 2 ^ 21 < len then refuse c ⟨stRange, 0⟩ d
  else queueFlash c 0 0 [] none (fwMod (fun f => { f with opened := some len, bytes := [], checked := false }) d)

/-- `FW_DATA`: bytes that nothing has written are 0xFF. With no bank open it is refused (log entry 154). -/
def cmdFwData (c : Cmd) (d : Dev) : Dev :=
  let ofs := field c.payload 0 4
  let data := (c.payload.drop 4).take (c.length - 4)
  match d.cmd.fw.opened with
  | none => refuse c (refused 0) d
  | some len =>
    if len < ofs + data.length then refuse c ⟨stRange, 0⟩ d
    else queueFlash c 0 0 [] none (fwMod (fun f =>
      { f with bytes := overwrite (f.bytes ++ List.replicate (ofs - f.bytes.length) 0xFF) ofs data }) d)

/-- `FW_CLOSE`: the Vadric signature of the bank (R93). With no bank open it is refused (log entry 154). -/
def cmdFwClose (c : Cmd) (d : Dev) : Dev :=
  match d.cmd.fw.opened with
  | none => refuse c (refused 0) d
  | some len =>
    let bs := d.cmd.fw.bytes ++ List.replicate (len - d.cmd.fw.bytes.length) 0xFF
    match Config.fwImage bs with
    | none => refuse c ⟨stIntegrity, 0⟩ d
    | some v => queueFlash c 4 0 (le 4 v.toNat) none (fwMod (fun f => { f with opened := none }) d)

/-- `FW_SWITCH`: the checked bank is the one the next start runs (R93, R492). With none it is refused (log entry 154). -/
def cmdFwSwitch (c : Cmd) (d : Dev) : Dev :=
  if !d.cmd.fw.checked then refuse c (refused 0) d
  else queueFlash c 0 0 [] none (fwMod (fun f => { f with nextBank := !d.host.fwBank }) d)

def execImgOpen (c : CmdId) (s : State) := quiet (withCmd 0x0300 c (flashTurn cmdImgOpen)) s
def execImgData (c : CmdId) (s : State) := quiet (withCmd 0x0301 c (flashTurn cmdImgData)) s
def execImgClose (c : CmdId) (s : State) := quiet (withCmd 0x0302 c (flashTurn cmdImgClose)) s
def execImgApply (c : CmdId) (s : State) := quiet (withCmd 0x0303 c cmdImgApply) s
def execImgInfo (c : CmdId) (s : State) := quiet (withCmd 0x0304 c cmdImgInfo) s
def execImgErase (c : CmdId) (s : State) := quiet (withCmd 0x0305 c (flashTurn cmdImgErase)) s
def execFwOpen (c : CmdId) (s : State) := quiet (withCmd 0x0310 c (flashTurn cmdFwOpen)) s
def execFwData (c : CmdId) (s : State) := quiet (withCmd 0x0311 c (flashTurn cmdFwData)) s
def execFwClose (c : CmdId) (s : State) := quiet (withCmd 0x0312 c (flashTurn cmdFwClose)) s
def execFwSwitch (c : CmdId) (s : State) := quiet (withCmd 0x0313 c (flashTurn cmdFwSwitch)) s

end Sys2Proof.Machine
end

