-- ==== Sys2Proof/Machine/Reset.lean ====
section
/-!
DEFINITION. Machine/Reset.lean: the resets of R490: of the control die alone, of both dies with D0 powered, and the loss and
return of D0. What lies in the Chalet survives the first two, and what lies in data flash survives all of them (R28, R40,
R44, R394, R490, R544).
-/
namespace Sys2Proof.Machine

/-- A pin as a reset of the control die leaves it: the field die's part runs on, what the control die kept is gone, and the
start that follows clears every latch (R252). -/
def pinControlReset (p : Pin) : Pin :=
  { p with
    seen := 0xC
    cdCount := 0
    cdTick := none
    gate := none
    freq := 0
    freqStale := false
    gateSilent := false
    clearCmd := []
    clearPend := false
    cntCmd := []
    latchRec := false
    latched := false }

/-- A valve channel as a reset of the control die leaves it. -/
def vlvControlReset (c : VlvCh) : VlvCh :=
  { c with
    prof := c.prof.map fun p => { p with cmd := none }
    next := c.next.map fun p => { p with cmd := none }
    ignoredCmds := []
    reports := c.reports.map fun r => { r with cmd := none, ignoredCmds := [] }
    status := VlvCh.reset.status
    statTick := 0
    last := VlvCh.reset.last
    lastKind := 0
    reqs := []
    placed := []
    clearPend := false
    clearCmd := []
    latchRec := false
    latched := false
    cseqNew := true }

/-- A measurement channel as a reset of the control die leaves it. -/
def afeControlReset (c : AfeCh) : AfeCh :=
  { c with
    leadCmd := []
    result := AfeCh.reset.result
    resTick := 0
    rcvSeq := none
    stale := false
    cdBroken := false
    brkSaid := false
    cdOver := false
    cdDep := false
    lastSettled := AfeCh.reset.lastSettled
    breaks := 0
    streamCnt := 0 }

/-- A dielectric channel as a reset of the control die leaves it. -/
def dlxControlReset (c : DlxCh) : DlxCh :=
  { c with
    steps := []
    cal := CalData.none
    oocCause := 0
    result := DlxCh.reset.result
    density := 0
    resTick := 0
    rcvSeq := none
    stale := false
    cdFault := false
    cdPartial := false
    cdOoc := false
    lastSettled := DlxCh.reset.lastSettled
    streamCnt := 0 }

/-- The Lift after a reset of the control die: SEQ starts at 0 (R106), and the field die's end runs on. The counts that its MARK
shows are new to this die (R117, R119, R124). -/
def liftControlReset (l : LiftSt) : LiftSt :=
  { LiftSt.reset with
    marked := false
    down := l.down
    upSeq := l.upSeq
    fTick := l.fTick
    fDt := l.fDt
    fTq := l.fTq
    fTrim := l.fTrim
    fCycle := l.fCycle
    fFlags := l.fFlags
    fDom := l.fDom
    excSlot := l.excSlot
    sweepSlot := l.sweepSlot
    downDisc := l.downDisc
    copies := l.copies
    applyLost := l.applyLost
    lastApply := l.lastApply
    miss := l.miss
    fenced := l.fenced
    fencedEpoch := l.fencedEpoch
    armed := l.armed
    stopped := l.stopped
    validOfs := l.validOfs
    stopUs := l.stopUs
    stopOfs := l.stopOfs
    reportLeft := l.reportLeft
    relField := l.relField
    cntRound := l.cntRound
    urg := l.urg
    evt := l.evt
    diagNext := l.diagNext
    pairs := l.pairs
    fsqRep := l.fsqRep
    fsqReq := l.fsqReq }

/-- A persistent word as data flash gives it to a start: its persistent pair in both copies, or no valid copy where that record is
lost (R44, R51). -/
def pairStart (addr : Nat) (p : Pair) : Pair :=
  let f := p.flash.getD ((resetOf addr).map fun v => (v, v))
  { p with prim := f, shad := f, gen := 0, lost := false }

/-- What data flash gives a control die that starts: persistent pairs, recipes and stored images (R44, R388, R93). A
PAIRED word without a persistent pair takes its reset value (R44). -/
def cmdReset (c : CmdSt) : CmdSt :=
  { CmdSt.reset with
    params := c.params.filter fun e => keyOf e.1 == kSvcRecipe
    pairs := (c.pairs.filter fun e => persists e.1).map fun e => (e.1, pairStart e.1 e.2)
    slots := c.slots.map fun s => { s with opened := none, header := if s.closed then s.bytes.take 32 else [] }
    fw := { c.fw with opened := none } }

/-- The flash operation in progress: the oldest one, where D5 is ON and L3 has not held it (R509). -/
def flashBegun (d : Dev) : Option FlashOp := if domOn d 5 && (d.pwr.lStep < 3 || d.hlt.flashOpen) then d.hlt.flash.head? else none

/-- What a reset cuts short (R544-R546): sectors that are to be erased again, and records that will
be discarded. -/
def flashCut (d : Dev) : Nat × Nat :=
  match flashBegun d with
  | some f => (b2n (f.kind == 2), b2n (f.kind == 1 || f.kind == 3 || f.wr.isSome))
  | none => (0, 0)

/-- A unit that a start finds retired, or in quarantine for the second time within 30 days, is retired (R527); every other unit is
back in the place it left the factory with. -/
def unitStart (u : Nat) (old : UnitSt) : UnitSt :=
  if old.st = 3 || old.st = 2 && old.again then { old with st := 3, role := 255 }
  else { UnitSt.reset u with faults := old.faults, replaced := old.replaced, again := old.again }

/-- A unit is retired. -/
def retired (h : HltSt) (u : Nat) : Bool := (vAt h.units u (UnitSt.reset u)).st == 3

/-- Health after a reset of the control die with D0 powered or not: the Patrol demand is D0's (R517), the shut-down latch of
the field die its own (R541); retirements, logs, erases and the pass number are data flash's (R527, R536). -/
def hltReset (keepD0 : Bool) (h : HltSt) : HltSt :=
  { HltSt.reset with
    units := Vector.ofFn fun u => unitStart u.val (h.units.get u)
    demand := keepD0 && h.demand
    causes := if keepD0 then h.causes else HltSt.reset.causes
    epochUsed := h.epochUsed
    fieldLatch := h.fieldLatch
    shutdownWord := h.shutdownWord
    groomPass := h.groomPass
    groomLast := h.groomLast
    erases := h.erases
    healthLog := h.healthLog
    ageLog := h.ageLog
    logSeq := h.logSeq
    scActive := !retired h 2 && (retired h 0 || retired h 1)
    supSingle := (retired h 0 || retired h 1) && (retired h 2 || retired h 0 && retired h 1) }

/-- The supervisors at a start (R527): the pair with SC standing by; where one of the pair is retired, SC with the other standing
by; and where SC is retired too, that one alone. -/
def supPlaces (d : Dev) : Dev :=
  let gone := fun (u : Nat) => retired d.hlt u
  let put := fun (u st role : Nat) (d : Dev) =>
    if gone u then d else { d with hlt := { d.hlt with units := vModN d.hlt.units u fun x => { x with st := st, role := role } } }
  if gone 2 || !(gone 0 || gone 1) then d else put 0 1 255 (put 1 1 255 (put 2 0 0 d))

/-- Spares take the places of retired units from the start (R527). -/
def retiredPlaces (d : Dev) : Dev :=
  let d := supPlaces d
  let gone := fun (u : Nat) => retired d.hlt u
  let d := forEach (List.finRange 32) (fun ch d =>
    if !gone (6 + ch) then d
    else
      let g := afeGroup ch
      if (d.afe.grp.get g).serves.isNone && !gone (38 + g) then
        afeMod ch (fun c => { c with sub := .calibrated, conv := some (38 + g) })
          (unitMod (38 + g) (fun u => { u with st := 0, role := 3 + g.val })
            (afeGrpMod g (fun x => { x with serves := some ⟨ch.val % 8, by omega⟩ }) d))
      else afeMod ch (fun c => { c with sub := .dead }) d) d
  let d := forEach (List.finRange 4) (fun g d =>
    if gone (38 + g.val) then afeGrpMod g (fun x => { x with unavailable := true }) d else d) d
  let d := if gone 46 then { d with dlx := { d.dlx with spareFree := false } } else d
  let d := forEach (List.finRange 4) (fun n d =>
    if !gone (42 + n.val) then d
    else if d.dlx.spareFree then
      dlxMod n (fun c => { c with path := .subst })
        (unitMod 46 (fun u => { u with st := 0, role := 7 + n.val }) { d with dlx := { d.dlx with spareFree := false } })
    else dlxMod n (fun c => { c with path := .dead }) d) d
  let d := { d with ctl := { d.ctl with faulty := Vector.ofFn fun e => gone (3 + e.val) } }
  if gone 3 && !gone 5 then
    unitMod 5 (fun u => { u with st := 0, role := 1 }) { d with ctl := { d.ctl with serving := d.ctl.serving.set 0 2 } }
  else if gone 4 && !gone 5 then
    unitMod 5 (fun u => { u with st := 0, role := 2 }) { d with ctl := { d.ctl with serving := d.ctl.serving.set 1 2 } }
  else d

/-- Device time over a reset with D0 powered: DT runs on (R40, R440); TQ2 and TQ3 fall to TQ1, and the holdover goes on. -/
def gnsControlReset (g : GnsSt) : GnsSt :=
  { GnsSt.reset with
    tq := if 2 ≤ g.tq then 1 else g.tq
    unc := g.unc
    solved := g.solved
    steps := g.steps
    utcOfs := g.utcOfs
    pos := g.pos
    posSigma := g.posSigma
    posMode := g.posMode
    dueUnc := g.dueUnc
    lastStep := g.lastStep
    lastPulse := g.lastPulse
    pulseEnd := g.pulseEnd
    pulseLow := g.pulseLow
    setMs := g.setMs
    lastValid := g.lastValid
    u0 := g.u0
    acc := g.acc
    accMs := g.accMs
    theta0 := g.theta0
    y0 := g.y0
    a := g.a
    c := g.c
    sigmaY := g.sigmaY
    sigmaTheta := g.sigmaTheta
    dBound := g.dBound
    lockMs := g.lockMs
    trained := g.trained
    held := g.held }

/-- Domains, clocks and level as a reset of the control die leaves them; the field die's ladder and shed classes run on,
and the counts of the Chalet stay. -/
def pwrControlReset (p : PwrSt) : PwrSt :=
  { PwrSt.reset with
    bootPins := p.bootPins
    bootCount := p.bootCount
    dom := Vector.ofFn fun n => if n.val = 0 then 0 else if n.val < 7 then 2 else vAt p.dom n.val 2
    fieldUp := p.fieldUp
    fieldPow := p.fieldPow
    pinFail := p.pinFail
    vdFail := p.vdFail
    modFail := p.modFail
    excFail := p.excFail
    fresh := p.fresh
    hold := p.hold
    holdEnd := p.holdEnd
    fStep := p.fStep
    lStep := p.lStep
    shed := p.shed
    f3Ended := p.f3Ended
    relClass := p.relClass
    vlog := p.vlog
    vfldField := p.vfldField
    vfldHigh := p.vfldHigh
    wakeRetry := 0 }

/-- The host window as a reset leaves it: WAKE_FAIL and a LOADER request survive, the cause is shown and the boot pins are
sampled (R63, R64, R66, R97, R496). -/
def hostReset (cause : Nat) (pins : Nat) (h : HostSt) : HostSt :=
  { HostSt.reset with
    wakeFail := h.wakeFail
    loaderNext := h.loaderNext
    bootMode := pins
    cause := cause }

/-- An erase that a reset cuts short takes place at the start that follows (R546). -/
def cutErases (d : Dev) : Dev :=
  match flashBegun d with
  | some f =>
    if f.kind = 2 then { d with cmd := { d.cmd with slots := vModN d.cmd.slots f.ref fun _ => ImgSlot.reset } } else d
  | none => d

/-- The control die resets and D0 keeps its content (R490): the field die is on its own until the Lift returns. The
parameter store and the run state that the field die has been given stay until the start loads the configuration. -/
def controlReset (cause : Nat) (d : Dev) : Dev :=
  let cut := flashCut d
  let d := cutErases d
  retiredPlaces
    { d with
      gate := { d.gate with buffer := [], loss := none }
      host := hostReset cause d.pwr.bootPins d.host
      rings := Dev.reset.rings
      laidOut := false
      out := []
      cmd := { cmdReset d.cmd with params := d.cmd.params, pairs := d.cmd.pairs }
      lift := liftControlReset d.lift
      afe := { d.afe with
        ch := d.afe.ch.map fun c => { afeControlReset c with sub := .none, conv := none, refCnt := 0, refs := [], fit := none }
        grp := AfeSt.reset.grp }
      dlx := { d.dlx with
        ch := d.dlx.ch.map fun c => { dlxControlReset c with path := .own }
        spareFree := true
        rot := 0
        recs := DlxSt.reset.recs }
      fio := { pin := d.fio.pin.map pinControlReset, bank := FioSt.reset.bank }
      vlv := { d.vlv with ch := d.vlv.ch.map vlvControlReset }
      ctl := CtlSt.reset
      svc := { svcAfterReset (cause == 0x05) d.svc with ran := d.svc.ran }
      bus := { BusSt.reset with ch := d.bus.ch.map fun c => { BusCh.reset with down := c.down } }
      gns := gnsControlReset d.gns
      pwr := pwrControlReset d.pwr
      hlt := { hltReset true d.hlt with replay := (d.hlt.replay.1 + cut.1, d.hlt.replay.2 + cut.2) }
      idn := { IdnSt.reset with records := d.idn.records, next := d.idn.next, exported := d.idn.exported, lost := d.idn.lost } }

/-- Both dies reset and D0 stays powered (R490): NRST, `RESET_REQ`, `HST_BOOT_CTRL`. -/
def bothReset (cause : Nat) (d : Dev) : Dev :=
  let d := pwrMod (fun p =>
    { p with
      dom := PwrSt.reset.dom
      fStep := 0
      shed := PwrSt.reset.shed
      f3Ended := false
      relClass := PwrSt.reset.relClass }) (controlReset cause d)
  let d := fieldOff .run d
  { d with svc := { d.svc with ran := false, spoiled := false } }

/-- D0 loses its content too (R40, R485, R490): ticks, DT and bibs start again, and of the control die only what data flash
holds remains. The field die has its own supply and runs on (R547). `cause` is the cause shown; the boot count rises at
the start (R40). -/
def chaletReset (cause : Nat) (powered : Bool) (d : Dev) : Dev :=
  let e := controlReset cause d
  { e with
    time := TimeSt.reset
    gate := GateSt.reset
    host := { e.host with wakeFail := false, loaderNext := false }
    gns := GnsSt.reset
    svc := { e.svc with ledger := { e.svc.ledger with flags := e.svc.ledger.flags ||| 16 } }
    pwr := { e.pwr with powered := powered, fresh := true }
    hlt := { e.hlt with
      demand := false
      causes := HltSt.reset.causes
      units := e.hlt.units.map fun u => { u with replaced := none } } }

/-- The state after `f` changes the device and the block's memories lose their content: the queue region's and the
snapshot buffer's bytes read as bytes that nothing has written (log entry 2). -/
def losing (f : Dev → Dev) (s : State) : Host.Outcome State Fault Refusal :=
  .next { s with mem := [], snap := [], dev := f s.dev }

/-- The snapshot buffer is EMPTY after a reset of D3 (R474); the queue region keeps its bytes. -/
def losingSnap (f : Dev → Dev) (s : State) : Host.Outcome State Fault Refusal :=
  .next { s with snap := [], dev := f s.dev }

end Sys2Proof.Machine
end

