-- ==== Sys2Proof/Machine/Commands.lean ====
section
/-!
DEFINITION. Machine/Commands.lean: the device-wide commands of R93 but for images and firmware, batches (R90, R91), BLOB
assemblies (R594), timeouts (R86) and silence (R100).
-/
namespace Sys2Proof.Machine

/-! ## Reading -/

/-- `NOP`. -/
def cmdNop (c : Cmd) (d : Dev) : Dev := complete c 0 0 [] d

/-- `DEV_INFO`. -/
def cmdDevInfo (c : Cmd) (d : Dev) : Dev :=
  complete c 0 0 (le 4 0x9640 ++ le 4 Config.hstRev.toNat ++ le 4 Config.hstFwVer.toNat ++ le 8 Config.serial.toNat) d

/-- TARGET [23:0], a parameter address. -/
def targetAddr (c : Cmd) : Nat := c.target % 2 ^ 24

/-- `PARAM_READ` (R93): two words, class, type, size and the tick of the last change. A PAIRED word is checked before it is read
(R46). -/
def cmdParamRead (c : Cmd) (d : Dev) : Dev :=
  let a := targetAddr c
  match findDef a with
  | none => refuse c ⟨stRange, 0⟩ d
  | some p =>
    let ret := fun (v w : Word) (size tick : Nat) (d : Dev) =>
      complete c 0 0 (le 4 v.toNat ++ le 4 w.toNat ++ le 1 p.cls.code ++ le 1 p.ty.code ++ le 2 size ++ le 8 tick) d
    match p.cls with
    | .paired =>
      let d := pairFix 6 a d
      let q := pairOf d a
      let x := q.prim.headD (0, 0)
      ret x.1 x.2 p.ty.words q.tick d
    | .read =>
      let ws := readWords d a
      ret (ws.headD 0) (ws.getD 1 0) p.ty.words (readTick d a) d
    | _ =>
      let ws := if isCoefSet a then coefSetWords d a else pwords d a
      let size := if isCoefSet a then ceilDiv (blobSize d a p) 4 else p.ty.words
      let tick := match d.cmd.params.find? fun e => e.1 = a with
        | some e => e.2.tick
        | none => 0
      ret (ws.headD 0) (if p.ty.isBlob then ws.getD 1 0 else 0) size tick d

/-- `PARAM_INFO` (R593), with the range that holds for the instance (R285). -/
def cmdParamInfo (c : Cmd) (d : Dev) : Dev :=
  let a := targetAddr c
  match findDef a with
  | none => refuse c ⟨stRange, 0⟩ d
  | some p =>
    let flat := p.ty.isBlob || p.cls == .read
    let q := rangeRow d a p
    let lo := if flat then 0 else (rangeMin q).toNat
    let hi := if flat then 0 else (rangeMax q).toNat
    complete c 0 0 (le 1 p.cls.code ++ le 1 p.ty.code ++ le 2 p.count ++ le 4 lo ++ le 4 hi ++
      le 4 ((p.reset (instOf a)).headD 0).toNat) d

/-- An event record of R96. -/
def eventBytes (a : Admitted) : List Byte :=
  le 4 a.bib.toNat ++ le 8 a.ev.dt ++ le 4 a.ev.path ++ le 2 a.ev.code ++ le 2 a.ev.time ++ padTo 12 a.ev.data

/-- A bib does not precede another (R38). -/
def bibFrom (a b : Word) : Bool := (b - a).toNat < 2 ^ 31

/-- `EVT_FETCH` (R77). -/
def cmdEvtFetch (c : Cmd) (d : Dev) : Dev :=
  let first := w32 (field c.payload 0 4)
  let last := w32 (field c.payload 4 4)
  let rs := d.gate.buffer.filter fun a => bibFrom first a.bib && bibFrom a.bib last
  let q := ringOf d 17
  let n := if q.en then min q.free rs.length else 0
  complete c 0 0 (le 4 n) (forEach rs (fun a d => emit (.push 17 (eventBytes a)) d) d)

/-! ## Batches (R90, R91) -/

/-- Batches open, a commit that waits for its TICK edge left out. -/
def openBatches (d : Dev) : List Batch := d.cmd.batches.filter fun b => b.commit.isNone

/-- The open batch of an id. -/
def batchOf (d : Dev) (id : Nat) : Option Batch := (openBatches d).find? fun b => b.id = id

/-- The refusal of a command that names a batch which is not open. -/
def noBatch (d : Dev) (id : Nat) : Refuse := if d.cmd.discarded.contains id then refused 0x04 else ⟨stRange, 0⟩

/-- A batch ends. -/
def batchDrop (id : Nat) (d : Dev) : Dev := { d with cmd := { d.cmd with batches := d.cmd.batches.filter fun b => b.id != id } }

/-- The device as a batch will leave it: its values take effect together (R91). -/
def heldIn (b : Batch) (d : Dev) : Dev := forEach b.writes (fun h d => applyValue h.addr h.words d) d

/-- The refusal of a write that joins a batch (R90), judged with the writes the batch holds. -/
def batchCheck (d : Dev) (b : Batch) (op addr : Nat) (ws : List Word) : Option Refuse :=
  match findDef addr with
  | none => some ⟨stRange, 0⟩
  | some p =>
    if isCoefSet addr then some (refused 0x02)
    else if 64 ≤ b.writes.length then some ⟨stAdmission, 0⟩
    else if p.cls != .live then some ⟨stClass, 0⟩
    else writeCheck (heldIn b d) op addr ws

/-- A write with BATCH = 1: checked at once and held; a refusal marks the batch failed (R90). -/
def batchWrite (c : Cmd) (addr : Nat) (ws : List Word) (d : Dev) : Dev :=
  match batchOf d c.batchId with
  | none => refuse c (noBatch d c.batchId) d
  | some b =>
    match batchCheck d b c.opcode addr ws with
    | some r => refuse c r (batchMod b.id (fun x => { x with failed := true }) d)
    | none =>
      complete c 0 0 [] (batchMod b.id (fun x => { x with writes := x.writes ++ [{ addr := addr, words := ws }] }) d)

/-- `CFG_BEGIN`: BATCH_IDs from 1 to 65,535 in rotation (R90). -/
def cmdCfgBegin (c : Cmd) (d : Dev) : Dev :=
  if 4 ≤ (openBatches d).length then refuse c ⟨stAdmission, 0⟩ d
  else
    let id := d.cmd.nextId
    complete c 0 0 (le 2 id) { d with cmd := { d.cmd with
      batches := d.cmd.batches ++ [{ id := id, writes := [], failed := false, commit := none }]
      discarded := d.cmd.discarded.filter (· != id)
      nextId := id % 65535 + 1 } }

/-- Every held write of a batch still passes its checks (R91), but for one that a later write of the batch replaces. -/
def batchGood (d : Dev) (b : Batch) : Bool :=
  let e := heldIn b d
  let last := fun (h : Held) => (b.writes.reverse.find? fun x => x.addr == h.addr) == some h
  !b.failed && b.writes.all fun h => match findDef h.addr with
    | some p => !last h || (writeCheck e (writeOp p) h.addr h.words).isNone
    | none => false

/-- `CFG_COMMIT`: checked again; it has begun to apply and waits for the TICK edge, or fails (R91, R86). -/
def cmdCfgCommit (c : Cmd) (d : Dev) : Dev :=
  let id := field c.payload 0 2
  match batchOf d id with
  | none => refuse c (noBatch d id) d
  | some b =>
    if batchGood d b then begin_ c.id (batchMod id (fun x => { x with commit := some c.id }) d)
    else refuse c (refused 0x03) (batchDrop id d)

/-- `CFG_ABORT`. -/
def cmdCfgAbort (c : Cmd) (d : Dev) : Dev :=
  let id := field c.payload 0 2
  match batchOf d id with
  | none => refuse c (noBatch d id) d
  | some _ => complete c 0 0 [] (batchDrop id d)

/-- The committed batches at a TICK edge: their values become available to the blocks, and each commit completes (R91). -/
def batchTick (d : Dev) : Dev :=
  let t := tickBytes d
  forEach (d.cmd.batches.filter fun b => b.commit.isSome) (fun b d =>
    let d := batchDrop b.id d
    let d := forEach b.writes (fun h d => landValue none 0 h.addr h.words d) d
    match b.commit with
    | some id => completeId id 0 0 t d
    | none => d) d

/-- A batch without a commit for 1 s is discarded and remembered (R91). -/
def batchDiscard (id : Nat) (d : Dev) : Dev :=
  match batchOf d id with
  | none => d
  | some _ =>
    let d := batchDrop id d
    { d with cmd := { d.cmd with discarded := d.cmd.discarded.filter (· != id) ++ [id] } }

/-! ## Parameter writes (R88, R89, R594) -/

/-- A write as a whole: into its batch, or checked and on its way to its boundary. -/
def writeWhole (c : Cmd) (addr : Nat) (ws : List Word) (d : Dev) : Dev :=
  if c.flags % 2 = 1 then batchWrite c addr ws d
  else match writeCheck d c.opcode addr ws with
    | some r => refuse c r d
    | none => writeValue c addr ws d

/-- `PARAM_WRITE`. -/
def cmdParamWrite (c : Cmd) (d : Dev) : Dev := writeWhole c (targetAddr c) (wordsOf 1 c.payload) d

/-- `PARAM_WRITE_PAIRED`: V then C of each pair. -/
def cmdParamWritePaired (c : Cmd) (d : Dev) : Dev :=
  writeWhole c (targetAddr c) (wordsOf (c.length / 4) (c.payload.take c.length)) d

/-- The assembly of a parameter and commander ends. -/
def blobDrop (addr commander : Nat) (d : Dev) : Dev :=
  { d with cmd := { d.cmd with blobs := d.cmd.blobs.filter fun a => !(a.addr = addr && a.commander = commander) } }

/-- The last descriptor a `CTL_DESC` write attempted, which `CTL_ADMIT_CHECK` uses (R355). -/
def descAttempt (addr : Nat) (bytes : List Byte) (d : Dev) : Dev :=
  if h : instOf addr < 64 then
    when (keyOf addr == kCtlDesc) (ctlMod ⟨instOf addr, h⟩ fun x => { x with attempt := bytes }) d
  else d

/-- A write refused before it is whole: a batch that it names has failed (R90). -/
def refuseWrite (c : Cmd) (r : Refuse) (d : Dev) : Dev :=
  if c.flags % 2 = 0 then refuse c r d
  else match batchOf d c.batchId with
    | none => refuse c (noBatch d c.batchId) d
    | some b => refuse c r (batchMod b.id (fun x => { x with failed := true }) d)

/-- `PARAM_WRITE_BLOB`: one chunk (R594). Class and type are checked at every chunk, size and value at the last. -/
def cmdParamWriteBlob (c : Cmd) (d : Dev) : Dev :=
  let a := targetAddr c
  let ofs := field c.payload 0 2
  let data := (c.payload.drop 4).take (field c.payload 2 2)
  match findDef a with
  | none => refuseWrite c ⟨stRange, 0⟩ d
  | some p =>
    if !writeFits 0x0103 p then refuseWrite c ⟨stClass, 0⟩ d
    else
      let old := d.cmd.blobs.find? fun x => x.addr = a && x.commander = c.commander
      let d := blobDrop a c.commander d
      let have_ : Option (List Byte) := if ofs = 0 then some [] else match old with
        | some x => if x.bytes.length = ofs then some x.bytes else none
        | none => none
      match have_ with
      | none => refuseWrite c ⟨stRange, 0⟩ d
      | some bs =>
        let bs := bs ++ data
        if !bitOf c.target 24 then
          complete c 0 0 [] { d with cmd := { d.cmd with
            blobs := d.cmd.blobs ++ [{ addr := a, commander := c.commander, bytes := bs }] } }
        else
          let d := descAttempt a bs d
          if bs.length != blobSize d a p then refuseWrite c ⟨stRange, 0⟩ d
          else writeWhole c a (wordsOf (ceilDiv bs.length 4) bs) d

/-- An assembly without a chunk for 1 s is discarded (R594). -/
def assemblyDiscard (addr commander : Nat) (d : Dev) : Dev := blobDrop addr commander d

/-! ## Aborts and timeouts (R86) -/

/-- A scheduled step or a capture that has not begun, taken away with its command: the capture's number is not given out. -/
def gnsDropWork (id : CmdId) (g : GnsSt) : GnsSt :=
  let g := if g.dueCmd == some id then { g with due := none, dueCmd := none } else g
  if g.snap.cmd == some id && !g.snap.begun then
    { g with snap := { g.snap with st := 0, number := (g.snap.number + 65535) % 65536, cmd := none } }
  else g

/-- What the blocks hold of a command that has not begun to apply, taken away. -/
def dropWork (id : CmdId) (d : Dev) : Dev :=
  { d with
    afe := { d.afe with ch := d.afe.ch.map fun c => { c with leadCmd := c.leadCmd.filter (· != id) } }
    ctl := { d.ctl with inst := d.ctl.inst.map fun x =>
      { x with
        pend := x.pend.filter fun p => p.cmd != id
        setPend := match x.setPend with
          | some p => if p.cmds = [id] then none else some { p with cmds := p.cmds.filter (· != id) }
          | none => none
        resume := x.resume.filter (· != id) } }
    svc := { d.svc with cmds := d.svc.cmds.filter fun c => c.id != id }
    fio := { d.fio with pin := d.fio.pin.map fun p => { p with cntCmd := p.cntCmd.filter (· != id) } }
    dlx := { d.dlx with ch := d.dlx.ch.map fun c => { c with steps := c.steps.filter fun s => s.cmd != id } }
    hlt := { d.hlt with flash := d.hlt.flash.filter fun f => !(f.kind == 5 && f.cmd == some id) }
    vlv := { d.vlv with ch := d.vlv.ch.map fun c => { c with reqs := c.reqs.filter fun r => r.cmd != some id } }
    gns := gnsDropWork id d.gns
    lift := { d.lift with
      safePend := d.lift.safePend.filter fun r => r.cmd != some id
      relPend := d.lift.relPend.filter fun r => r.cmd != some id } }

/-- A command that has not begun to apply ends with a status; false where there is none (R86). -/
def cancelCmd (id : CmdId) (status : Nat) (d : Dev) : Option Dev :=
  match liveCmd d id with
  | none => none
  | some x => if x.phase == .taken || x.phase == .waiting then some (dropWork id (complete x status 0 [] d)) else none

/-- `CMD_ABORT` (R93). -/
def cmdCmdAbort (c : Cmd) (d : Dev) : Dev :=
  let id := CmdId.host (c.payload.headD 0)
  if id = c.id then refuse c (refused 0x06) d
  else match cancelCmd id stAborted d with
    | some d => complete c 0 0 [] d
    | none => refuse c (refused 0x06) d

/-- TIMEOUT ms have passed since the command was taken (R86). -/
def commandTimeout (id : CmdId) (d : Dev) : Dev :=
  match liveCmd d id with
  | none => d
  | some x => if x.timeout = 0 then d else (cancelCmd id stTimeout d).getD d

/-! ## `RUN`, `STOP`, `SAFE_NOW`, `RESET_REQ` (R93, R230, R275, R495) -/

/-- The output values of the pins and proportional channels nothing claims join the open tick set (R115, R246, R276). -/
def openConfigured (d : Dev) : Dev :=
  let d := forEach ((List.finRange 64).filter fun (n : Fin 64) => isOutput (pget d kFioMode n) && !claimed d n) (fun n d =>
    let d := openDuty n (pget d kFioOut n) d
    if pget d kFioPwmHz n = (d.fio.pin.get n).hzCmd then d else openValue (addrOf kFioPwmHz n) [pw d kFioPwmHz n] d) d
  forEach ((List.finRange 16).filter fun (n : Fin 16) => isPropMode (pget d kVlvMode n) && !claimed d (64 + n)) (fun n d =>
    openProp n (pget d kVlvPropMa n) d) d

/-- A RELEASE of every object for the start-up hold of the device's start (R495), while nothing bars it. -/
def startRelease (d : Dev) : Dev :=
  when (d.pwr.hold && d.pwr.holdEnd == .run && !d.hlt.demand && d.pwr.fStep < 4)
    (askRelease { scope := 0, object := 0 } none) d

/-- The configured blocks start (R93, R97): pins and valve channels leave OFF, the pins with fresh filters and gates (R240),
and the loops that `CTL_ENABLE` enables
start. -/
def startBlocks (d : Dev) : Dev :=
  let was := d.svc.running && !d.svc.stopping
  let first := !d.svc.ran
  let d := { d with svc := { d.svc with running := true, stopping := false, ran := true } }
  let d := when first (fun d => forEach (List.finRange 64) (fun n d => pinMod n (pinBegin (pinMode d n == 3)) d) d) d
  let d := vlvStart d
  let d := forEach (List.finRange 64) (fun i d =>
    when ((ctlInst d i).base == .stopped && (ctlInst d i).enable.isNone && pget d kCtlEnable i != 0)
      (ctlHook (addrOf kCtlEnable i)) d) d
  startRelease (if was then d else openConfigured d)

/-- `RUN` (R93, R493). -/
def cmdRun (c : Cmd) (d : Dev) : Dev :=
  if !d.pwr.fieldUp then refuse c (refused 0x91) d else complete c 0 0 (tickBytes d) (startBlocks d)

/-- The pulses of a channel that no tick set holds yet are given up. -/
def pulsesDrop (n : Fin 16) (d : Dev) : Dev :=
  let rs := (vlvCh d n).reqs
  let d := vlvMod n (fun c => { c with reqs := [] }) d
  forEach rs (fun r d => match r.cmd with
    | some id => completeId id stAborted 0 [] d
    | none => pulseEnded n false d) d

/-- A dose that stops: its command ends. -/
def doseDrop (i : Fin 2) (d : Dev) : Dev :=
  match (watOf d i).dose with
  | none => d
  | some x => completeId x.cmd stAborted 0 [] (blockClose i (watMod i (fun w => { w with dose := none, acc := 0 }) d))

/-- The outputs go to the values of their safe states through the tick set (log entry 33). -/
def openSafe (d : Dev) : Dev :=
  let d := forEach ((List.finRange 64).filter fun (n : Fin 64) => isOutput (pget d kFioMode n)) (fun n d =>
    match pairV d kFioSafe n with
    | 1 => openDuty n 255 d
    | 2 => d
    | _ => openDuty n 0 d) d
  forEach ((List.finRange 16).filter fun (n : Fin 16) => isPropMode (pget d kVlvMode n)) (fun n d =>
    match pairV d kVlvSafe n with
    | 2 => openProp n (pairV d kVlvSafeMa n) d
    | 1 => d
    | _ => openProp n 0 d) d

/-- The configured blocks begin to stop (R93): loops, services and their outputs; running pulse profiles come to their end. The
modes of pins and channels stand (log entry 33). -/
def stopBlocks (d : Dev) : Dev :=
  let d := forEach (List.finRange 64) (fun i d => when (ctlRuns (ctlInst d i) || (ctlInst d i).enable.isSome) (ctlStop i) d) d
  let d := forEach (List.finRange 6) (fun i d => when (dryRuns i (dryOf d i)) (dryAbort i) d) d
  let d := forEach (List.finRange 2) (fun i d => doseDrop i (when ((watOf d i).phase != 0) (watEnd i 1) d)) d
  let d := forEach (List.finRange 12) (fun b d => when (aerOf d b).fan (aerFan b false) d) d
  let d := forEach (List.finRange 16) pulsesDrop d
  openSafe { d with svc := { d.svc with stopping := true } }

/-- The tick at which the open set applies. -/
def openTick (d : Dev) : Nat :=
  match d.lift.closed with
  | some c => if d.time.tick < c.tick then d.time.tick + 2 else d.time.tick + 1
  | none => d.time.tick + 1

/-- `STOP`: the safe-state words are checked (R46), and it completes at the first APPLY from the one that carries the safe values
at which no profile runs (R93); at once while the field die is down. -/
def cmdStop (c : Cmd) (d : Dev) : Dev :=
  let up := d.pwr.fieldUp
  let d := stopBlocks (pairsUse (pairsHeld d fun a => [kFioSafe, kVlvSafe, kVlvSafeMa].contains (keyOf a)) d)
  if up then
    let t := openTick d
    cmdMod c.id (fun x => { x with note := t }) (begin_ c.id d)
  else complete c 0 0 (tickBytes d) { d with svc := { d.svc with running := false, stopping := false } }

/-- `SAFE_NOW` (R592, R130). -/
def cmdSafeNow (c : Cmd) (d : Dev) : Dev :=
  match targetScope c.target with
  | none => refuse c ⟨stRange, 0⟩ d
  | some sc => askSafe sc 0 (some c.id) (waitOn c.id d)

/-- `RESET_REQ`: the device resets when its completion is written (R93). -/
def cmdResetReq (c : Cmd) (d : Dev) : Dev :=
  if field c.payload 0 4 != 0x7C19 then refuse c ⟨stRange, 0⟩ d else complete c 0 0 [] d

/-! ## Silence (R100, R435) -/

/-- The host falls silent. Counting begins with the first good transaction and pauses while D6 is not ON. -/
def hostSilence (d : Dev) : Dev :=
  if pget d kHstSilenceMs 0 = 0 || !d.host.heard || d.host.silent || !domOn d 6 then d
  else ctlSilence 0 (raise 6 0xC001 (subPath 0xC) [0] { d with host := { d.host with silent := true } })

/-- A remote commander falls silent. -/
def remoteSilence (ch : Fin 2) (cdr : Fin 8) (d : Dev) : Dev :=
  let k := 8 * ch.val + cdr.val
  if pget d kHstRmbSilenceMs 0 = 0 || !d.host.rmbHeard.contains k || d.host.rmbSilent.contains k then d
  else
    ctlSilence (1 + k) (raise 6 0xC001 (subPath 0xC) (le 1 (1 + ch.val))
      { d with host := { d.host with rmbSilent := d.host.rmbSilent ++ [k] } })

def execNop (c : CmdId) (s : State) := quiet (withCmd 0x0001 c cmdNop) s
def execDevInfo (c : CmdId) (s : State) := quiet (withCmd 0x0002 c cmdDevInfo) s
def execRun (c : CmdId) (s : State) := quiet (withCmd 0x0010 c cmdRun) s
def execStop (c : CmdId) (s : State) := quiet (withCmd 0x0011 c cmdStop) s
def execSafeNow (c : CmdId) (s : State) := quiet (withCmd 0x0012 c cmdSafeNow) s
def execResetReq (c : CmdId) (s : State) := quiet (withCmd 0x0013 c cmdResetReq) s
def execParamRead (c : CmdId) (s : State) := quiet (withCmd 0x0100 c cmdParamRead) s
def execParamWrite (c : CmdId) (s : State) := loud (withCmd 0x0101 c cmdParamWrite) s
def execParamWritePaired (c : CmdId) (s : State) := loud (withCmd 0x0102 c cmdParamWritePaired) s
def execParamWriteBlob (c : CmdId) (s : State) := loud (withCmd 0x0103 c cmdParamWriteBlob) s
def execParamInfo (c : CmdId) (s : State) := quiet (withCmd 0x0104 c cmdParamInfo) s
def execCfgBegin (c : CmdId) (s : State) := quiet (withCmd 0x0110 c cmdCfgBegin) s
def execCfgCommit (c : CmdId) (s : State) := quiet (withCmd 0x0111 c cmdCfgCommit) s
def execCfgAbort (c : CmdId) (s : State) := quiet (withCmd 0x0112 c cmdCfgAbort) s
def execCmdAbort (c : CmdId) (s : State) := quiet (withCmd 0x0200 c cmdCmdAbort) s
def execEvtFetch (c : CmdId) (s : State) := loud (withCmd 0x0400 c cmdEvtFetch) s
def execCommandTimeout (c : CmdId) (s : State) := quiet (commandTimeout c) s
def execBatchDiscard (id : BitVec 16) (s : State) := quiet (batchDiscard id.toNat) s
def execBlobAssemblyDiscard (addr : BitVec 24) (commander : Fin 17) (s : State) := quiet (assemblyDiscard addr.toNat commander) s
def execHostSilence (s : State) := quiet hostSilence s
def execRemoteCommanderSilence (ch : Fin 2) (cdr : Fin 8) (s : State) := quiet (remoteSilence ch cdr) s

/-! ## Frames of the message bus (R404-R408, R427, R434) -/

/-- The user that a frame's route and identifier name: 1 a roster HEARTBEAT, 2 roster DATA, 3 the mailbox, 4 a reference,
5 time information, 0 the receive ring, the reject or none. -/
def frameUser (d : Dev) (ch : Fin 2) (f : BusFrame) : Nat :=
  let id := fid f.id.toNat f.xtd
  let base := pget d kBusRstBase 0
  if (busCh d ch).rate.isSome then 0
  else match (routeOf d ch f).2 with
    | 1 => if id ≤ base ∨ base + 0x100 ≤ id then 0 else if id < base + 0x80 then 1 else 2
    | 2 => 3
    | 3 => if isReference d ch f then 4 else if isTimeInfo d ch f then 5 else 0
    | _ => 0

/-- A frame that is its user's; any other has no effect in that user's row (log entry 5). -/
def userFrame (user : Nat) (ch : Fin 2) (f : BusFrame) (d : Dev) : Dev := if frameUser d ch f = user then frameIn ch f d else d

def execBusFrameReceived (ch : Fin 2) (f : BusFrame) (s : State) := taking (frameIn ch f) s
def execRosterHeartbeat (ch : Fin 2) (f : BusFrame) (s : State) := loud (userFrame 1 ch f) s
def execRosterData (ch : Fin 2) (f : BusFrame) (s : State) := loud (userFrame 2 ch f) s
def execRmbRequestSegment (ch : Fin 2) (f : BusFrame) (s : State) := taking (userFrame 3 ch f) s
def execBusReferenceReceived (ch : Fin 2) (f : BusFrame) (s : State) := loud (userFrame 4 ch f) s
def execTimeInfoReceived (ch : Fin 2) (f : BusFrame) (s : State) := loud (userFrame 5 ch f) s

end Sys2Proof.Machine
end

