-- ==== Sys2Proof/Machine/Crypto.lean ====
section
/-!
DEFINITION. Machine/Crypto.lean: SHA-256, HMAC, the nonce of RFC 6979 and ECDSA on curve P-256, which R553-R557 name. The
algorithms are those of FIPS 180-4, RFC 2104, RFC 6979 and FIPS 186 (PRESUMED, log entry 34).
-/
namespace Sys2Proof.Machine

/-! ## SHA-256 -/

/-- The primes below 312, of which there are 64. -/
def shaPrimes : List Nat := (List.range 312).filter fun p => 2 ≤ p && (List.range p).all fun q => q < 2 || p % q != 0

/-- The greatest number of at most `n` bits whose `k`-th power does not exceed `x`, from the bits `r` found so far. -/
def rootFloor (k x : Nat) : (n : Nat) → (r : Nat) → Nat
  | 0, r => r
  | n + 1, r => rootFloor k x n (if (r + 2 ^ n) ^ k ≤ x then r + 2 ^ n else r)

/-- The first 32 bits of the fraction of the `k`-th root of a prime. -/
def rootFraction (k p : Nat) : Word := w32 (rootFloor k (p * 2 ^ (32 * k)) 40 0)

/-- The round constants, which FIPS 180-4 takes from the cube roots of the first 64 primes. -/
def shaK : List Word := shaPrimes.map (rootFraction 3)

/-- The initial hash words, which FIPS 180-4 takes from the square roots of the first 8 primes. -/
def shaInit : List Word := (shaPrimes.take 8).map (rootFraction 2)

/-- The message schedule, newest word first. -/
def shaSchedule : (n : Nat) → List Word → List Word
  | 0, w => w
  | n + 1, w =>
    let a := w.getD 1 0
    let b := w.getD 14 0
    let s1 := a.rotateRight 17 ^^^ a.rotateRight 19 ^^^ (a >>> 10)
    let s0 := b.rotateRight 7 ^^^ b.rotateRight 18 ^^^ (b >>> 3)
    shaSchedule n ((s1 + w.getD 6 0 + s0 + w.getD 15 0) :: w)

/-- One round on the eight working words. -/
def shaRound (h : List Word) (kw : Word) : List Word :=
  match h with
  | [a, b, c, d, e, f, g, x] =>
    let s1 := e.rotateRight 6 ^^^ e.rotateRight 11 ^^^ e.rotateRight 25
    let t1 := x + s1 + ((e &&& f) ^^^ (~~~e &&& g)) + kw
    let s0 := a.rotateRight 2 ^^^ a.rotateRight 13 ^^^ a.rotateRight 22
    let t2 := s0 + ((a &&& b) ^^^ (a &&& c) ^^^ (b &&& c))
    [t1 + t2, a, b, c, d + t1, e, f, g]
  | _ => h

/-- One block of 64 bytes. -/
def shaBlock (h : List Word) (b : List Byte) : List Word :=
  let w0 := (List.range 16).map fun i => w32 (deBig ((b.drop (4 * i)).take 4))
  let w := (shaSchedule 48 w0.reverse).reverse
  List.zipWith (· + ·) h ((List.zipWith (· + ·) shaK w).foldl shaRound h)

/-- So many blocks. -/
def shaBlocks : (n : Nat) → List Word → List Byte → List Word
  | 0, h, _ => h
  | n + 1, h, b => shaBlocks n (shaBlock h (b.take 64)) (b.drop 64)

/-- SHA-256 of a byte string: 32 bytes. -/
def sha256 (m : List Byte) : List Byte :=
  let padded := m ++ [0x80] ++ List.replicate ((119 - m.length % 64) % 64) 0 ++ beBytes 8 (8 * m.length)
  (shaBlocks (padded.length / 64) shaInit padded).flatMap fun w => beBytes 4 w.toNat

/-- HMAC with SHA-256, for a key of at most 64 bytes. -/
def hmac (key m : List Byte) : List Byte :=
  let k := padTo 64 key
  sha256 (k.map (· ^^^ 0x5c) ++ sha256 (k.map (· ^^^ 0x36) ++ m))

/-! ## Curve P-256 -/

/-- The prime of the field, the order of the base point, the curve's coefficient b and the base point. -/
def ecP : Nat := 0xffffffff00000001000000000000000000000000ffffffffffffffffffffffff
def ecN : Nat := 0xffffffff00000000ffffffffffffffffbce6faada7179e84f3b9cac2fc632551
def ecB : Nat := 0x5ac635d8aa3a93e7b3ebbd55769886bc651d06b0cc53b0f63bce3c3e27d2604b
def ecG : Nat × Nat :=
  (0x6b17d1f2e12c4247f8bce6e563a440f277037d812deb33a0f4a13945d898c296,
   0x4fe342e2fe1a7f9b8ee7eb4a7c0f9e162bce33576b315ececbb6406837bf51f5)

/-- `b` to the power `e` modulo `m`, over the low `fuel` bits of `e`. -/
def powMod : (fuel : Nat) → (b e m : Nat) → Nat
  | 0, _, _, m => 1 % m
  | n + 1, b, e, m =>
    let h := powMod n (b * b % m) (e / 2) m
    if e % 2 = 1 then h * b % m else h

/-- The inverse modulo a prime. -/
def invMod (x m : Nat) : Nat := powMod 256 (x % m) (m - 2) m

/-- A difference modulo `ecP`. -/
def subP (a b : Nat) : Nat := (a % ecP + ecP - b % ecP) % ecP

/-- A point in Jacobian coordinates; Z = 0 is the point at infinity. -/
structure JPoint where
  x : Nat
  y : Nat
  z : Nat
  deriving DecidableEq, Repr

/-- The double of a point. -/
def JPoint.double (p : JPoint) : JPoint :=
  if p.z = 0 ∨ p.y = 0 then { x := 1, y := 1, z := 0 }
  else
    let yy := p.y * p.y % ecP
    let s := 4 * p.x * yy % ecP
    let zz := p.z * p.z % ecP
    let m := 3 * (subP p.x zz * ((p.x + zz) % ecP)) % ecP
    let x := subP (m * m) (2 * s)
    { x := x, y := subP (m * subP s x) (8 * (yy * yy % ecP)), z := 2 * p.y * p.z % ecP }

/-- The sum of two points. -/
def JPoint.add (p q : JPoint) : JPoint :=
  if p.z = 0 then q
  else if q.z = 0 then p
  else
    let pz := p.z * p.z % ecP
    let qz := q.z * q.z % ecP
    let u1 := p.x * qz % ecP
    let u2 := q.x * pz % ecP
    let s1 := p.y * (qz * q.z % ecP) % ecP
    let s2 := q.y * (pz * p.z % ecP) % ecP
    let h := subP u2 u1
    let r := subP s2 s1
    if h = 0 then (if r = 0 then p.double else { x := 1, y := 1, z := 0 })
    else
      let hh := h * h % ecP
      let hhh := h * hh % ecP
      let v := u1 * hh % ecP
      let x := subP (r * r) (hhh + 2 * v)
      { x := x, y := subP (r * subP v x) (s1 * hhh), z := p.z * q.z % ecP * h % ecP }

/-- A multiple of a point, over the low `fuel` bits of `k`. -/
def JPoint.mul : (fuel : Nat) → (k : Nat) → JPoint → JPoint
  | 0, _, _ => { x := 1, y := 1, z := 0 }
  | n + 1, k, p =>
    let q := JPoint.mul n (k / 2) p.double
    if k % 2 = 1 then q.add p else q

/-- The affine coordinates of a point; none at infinity. -/
def JPoint.affine (p : JPoint) : Option (Nat × Nat) :=
  if p.z = 0 then none
  else
    let i := invMod p.z ecP
    let ii := i * i % ecP
    some (p.x * ii % ecP, p.y * (ii * i % ecP) % ecP)

/-- An affine point. -/
def jOf (q : Nat × Nat) : JPoint := { x := q.1, y := q.2, z := 1 }

/-- The public key of a private key. -/
def pubKey (priv : Nat) : Nat × Nat := ((JPoint.mul 256 priv (jOf ecG)).affine).getD (0, 0)

/-- A point is on the curve: y² = x³ - 3 x + b. -/
def onCurve (q : Nat × Nat) : Bool :=
  q.1 < ecP && q.2 < ecP && q.2 * q.2 % ecP == (subP (q.1 * q.1 % ecP * q.1) (3 * q.1) + ecB) % ecP

/-! ## ECDSA -/

/-- A signature from the nonce `k`, the hash as a number and the private key; none where r or s would be 0. -/
def signWith (k z priv : Nat) : Option (Nat × Nat) :=
  match (JPoint.mul 256 k (jOf ecG)).affine with
  | none => none
  | some q =>
    let r := q.1 % ecN
    let s := invMod k ecN * ((z + r * priv) % ecN) % ecN
    if r = 0 ∨ s = 0 then none else some (r, s)

/-- The nonces of RFC 6979 in order until one gives a signature. -/
def signLoop : (fuel : Nat) → (key v : List Byte) → (z priv : Nat) → Nat × Nat
  | 0, _, _, _, _ => (0, 0)
  | n + 1, key, v, z, priv =>
    let v := hmac key v
    let k := deBig v
    match (if k = 0 ∨ ecN ≤ k then none else signWith k z priv) with
    | some rs => rs
    | none =>
      let key := hmac key (v ++ [0])
      signLoop n key (hmac key v) z priv

/-- The ECDSA signature over bytes (R553): r then s, each 32 bytes, most significant byte first. -/
def ecSign (priv : Nat) (m : List Byte) : List Byte :=
  let z := deBig (sha256 m)
  let seed := beBytes 32 priv ++ beBytes 32 (z % ecN)
  let v0 : List Byte := List.replicate 32 1
  let k1 := hmac (List.replicate 32 0) (v0 ++ [0] ++ seed)
  let v1 := hmac k1 v0
  let k2 := hmac k1 (v1 ++ [1] ++ seed)
  let rs := signLoop 64 k2 (hmac k2 v1) z priv
  beBytes 32 rs.1 ++ beBytes 32 rs.2

/-- A signature over bytes verifies against a public key X‖Y. -/
def ecVerify (key m sig : List Byte) : Bool :=
  let q := (deBig (key.take 32), deBig ((key.drop 32).take 32))
  let r := deBig (sig.take 32)
  let s := deBig ((sig.drop 32).take 32)
  if r = 0 ∨ ecN ≤ r ∨ s = 0 ∨ ecN ≤ s || !onCurve q then false
  else
    let i := invMod s ecN
    let z := deBig (sha256 m)
    let p := (JPoint.mul 256 (z * i % ecN) (jOf ecG)).add (JPoint.mul 256 (r * i % ecN) (jOf q))
    match p.affine with
    | none => false
    | some x => x.1 % ecN == r

end Sys2Proof.Machine
end

