-- ==== Sys2Proof/Machine/Ident.lean ====
section
/-!
DEFINITION. Machine/Ident.lean: identity, attestation, enrolment and lot records (14).
-/
namespace Sys2Proof.Machine

/-- Changes the state of chapter 14. -/
def idnMod (f : IdnSt → IdnSt) (d : Dev) : Dev := { d with idn := f d.idn }

/-- An event of this chapter: it names the package (R96, R567). -/
def idnRaise (code : Nat) (data : List Byte) (d : Dev) : Dev := raise 6 code (pkgPath 0xB) data d

/-! ## Keys (R553, R554) -/

/-- X‖Y of the part's public key. -/
def partKey : List Byte :=
  let q := pubKey Config.privateKey.toNat
  beBytes 32 q.1 ++ beBytes 32 q.2

/-- The identity fingerprint (R554). -/
def fingerprint : List Byte := sha256 partKey

/-- A signature of the part. -/
def partSign (m : List Byte) : List Byte := ecSign Config.privateKey.toNat m

/-! ## The record store (R561-R564, R28) -/

/-- CHAIN_INDEX and bytes of the newest record. -/
def newestRecord (d : Dev) : Option (Nat × List Byte) := d.idn.records.getLast?

/-- PREV of the next record. -/
def prevHash (d : Dev) : List Byte :=
  match newestRecord d with
  | some r => sha256 r.2
  | none => List.replicate 32 0

/-- The oldest sector is erased before a new one is begun in a full store (R564). -/
def storeErase (d : Dev) : Dev :=
  match d.idn.records with
  | [] => d
  | (first, _) :: _ =>
    if d.idn.records.length < 1800 ∨ d.idn.next % 15 ≠ 0 then d
    else
      let gone := fun (i : Nat) => i / 15 == first / 15
      let hi := first / 15 * 15 + 14
      let lost := (d.idn.records.map (·.1)).filter fun i => gone i && d.idn.exported ≤ i
      let d := idnMod (fun x =>
        { x with
          records := x.records.filter fun r => !gone r.1
          copies := x.copies.filter fun i => !gone i
          exported := max x.exported (if lost.isEmpty then 0 else hi + 1) }) d
      let d := { d with hlt := { d.hlt with erases := d.hlt.erases + 1 } }
      match lost with
      | [] => d
      | lo :: rest => idnRaise 0xB005 (le 4 lo ++ le 4 (rest.getLastD lo)) d

/-- Copies of records that wait reach Q16 while it has room (R564, R71). -/
def copyFlush (d : Dev) : Dev :=
  let q := ringOf d 16
  if !q.en then d
  else
    let now := d.idn.copies.take q.free
    let d := forEach now (fun i d =>
      match d.idn.records.find? fun r => r.1 = i with
      | some r => emit (.push 16 r.2) d
      | none => d) d
    idnMod (fun x =>
      { x with
        copies := x.copies.drop now.length
        exported := now.foldl (fun e i => if e ≤ i then i + 1 else e) x.exported }) d

/-- FLAGS of a record: what its type gives, unenrolled and unsigned (R561). -/
def recordFlags (d : Dev) (flags : Nat) : Nat := flags ||| (16 * b2n (chainNo d == 0) + 64 * b2n d.idn.keyFault)

/-- Head of a record, bytes 0-19. -/
def recordHead (d : Dev) (ty flags lot boot : Nat) : List Byte :=
  le 4 0x3A9640E3 ++ le 2 1 ++ le 1 ty ++ le 1 (recordFlags d flags) ++ le 4 d.idn.next ++ le 4 lot ++ le 4 boot

/-- A record signed and written: EV_IDN_RECORD, and a copy that waits for Q16 (R564). -/
def storeRecord (ty lot : Nat) (body : List Byte) (d : Dev) : Dev :=
  let i := d.idn.next
  let b := padTo 384 body ++ fingerprint ++ prevHash d
  let b := b ++ if d.idn.keyFault then List.replicate 64 0 else partSign b
  let d := storeErase d
  let d := idnMod (fun x => { x with records := x.records ++ [(i, b)], next := i + 1, copies := x.copies ++ [i] }) d
  idnRaise 0xB004 (le 1 ty ++ [0, 0, 0] ++ le 4 i ++ le 4 lot) d

/-- A mass in mg as 0.1 kg. -/
def massField (mg : Nat) : List Byte := le 4 ((mg + 50000) / 100000)

/-- The body of a LOT record, bytes 0-383 (R561). A moisture of which nothing was measured has no value in the spec: it is
`open_` (log entry 4). -/
def lotBody (d : Dev) (l : Lot) (open_ : Word) : List Byte :=
  let mean := fun (sum m : Nat) => if m = 0 then (open_.toNat : Int) else divRound sum m
  let mi := mean l.inSum l.inMass
  let mo := mean l.outSum l.outMass
  let massIn : Nat := match l.massIn with
    | some m => m
    | none => (divRound ((l.mass : Int) * (100000 - mo)) (100000 - mi)).toNat
  let bib := fun (b : Option (Word × Word)) => match b with
    | some x => le 4 x.1.toNat ++ le 4 x.2.toNat
    | none => le 8 0
  let none_ := l.posMode == 0 && l.pos.all (· == 0)
  recordHead d 1 (l.flags ||| 32 * b2n l.massIn.isNone) l.no l.bootClose ++
    le 1 l.kind ++ le 1 l.inst ++ le 1 l.grain ++ le 1 l.use ++ le 1 l.recipe ++ le 3 0 ++ le 4 l.recipeCrc ++
    le 8 l.dtOpen ++ le 2 l.timeOpen ++ le 2 0 ++ le 8 l.dtClose ++ le 2 l.timeClose ++ le 1 l.stepsOpen ++
    le 1 l.stepsClose ++ padTo 12 (bytesOf l.pos) ++ le 1 (if none_ then 0xFF else l.posMode) ++ le 3 0 ++
    le 4 (toBits 32 mi) ++ le 4 (toBits 32 mo) ++ massField massIn ++ massField l.mass ++ le 4 (l.energy / 10000) ++
    le 4 (l.water / 1000) ++ le 4 (toBits 32 l.grainMax) ++ le 4 (toBits 32 l.tmax) ++ bib l.openBib ++ bib l.closeBib ++
    le 1 l.entries.length ++ le 1 l.dropped ++ le 6 0 ++
    l.entries.flatMap fun e => le 4 e.bib.toNat ++ le 2 e.code ++ le 2 e.data

/-- The oldest lot whose close has its bib is signed and written, unless step L3 is in force (R564). -/
def lotSigned (d : Dev) : Dev :=
  match d.svc.closed.find? fun l => l.closeBib.isSome with
  | none => d
  | some l =>
    if 3 ≤ d.pwr.lStep then d
    else
      let body := lotBody d l (Config.freeWord d.free)
      let d := takeFree d
      let d := { d with svc := { d.svc with
        closed := d.svc.closed.filter fun x => x.no != l.no
        resume := d.svc.resume.map fun r => if r.lot.any fun x => x.no = l.no then { r with lot := none } else r } }
      copyFlush (storeRecord 1 l.no body d)

/-! ## Attestation (R556) -/

/-- Byte 5 of the statement. -/
def attestFlags (d : Dev) : Nat := b2n (chainNo d != 0) + 2 * b2n d.idn.keyFault + 4 * b2n d.hlt.demand

/-- The signed statement. -/
def statement (d : Dev) (bib : Word) (challenge : List Byte) : List Byte :=
  let b := le 4 0x3A9640E4 ++ le 1 1 ++ le 1 (attestFlags d) ++ le 2 0 ++ padTo 32 challenge ++ le 8 (dtNs d) ++
    le 2 (timeWord d) ++ le 2 0 ++ le 4 d.pwr.bootCount ++ le 4 bib.toNat ++ le 4 (chainNo d) ++
    (if chainNo d = 0 then List.replicate 16 0 else (binding d).take 16) ++ le 4 (lastIndex d) ++ le 12 0
  b ++ partSign b

/-- `ID_ATTEST`: EV_IDN_ATTEST is raised; the statement needs its bib. -/
def cmdIdAttest (c : Cmd) (d : Dev) : Dev :=
  if d.idn.keyFault then refuse c ⟨stIntegrity, 0⟩ d
  else
    begin_ c.id (idnRaise 0xB003 (le 1 c.commander)
      (idnMod (fun x => { x with attests := x.attests ++
        [{ cmd := c.id, source := c.commander, challenge := c.payload.take 32 }] }) d))

/-- EV_IDN_ATTEST has its bib: the statement is signed and kept for its source, and the command completes. -/
def attestAdmit (source : Nat) (bib : Word) (d : Dev) : Dev :=
  match d.idn.attests.find? fun a => a.source = source with
  | none => d
  | some a =>
    let st := statement d bib a.challenge
    let r := le 4 bib.toNat ++ le 8 (dtNs d) ++ le 4 (lastIndex d) ++ le 1 (attestFlags d)
    completeId a.cmd 0 0 r (idnMod (fun x =>
      { x with attests := x.attests.erase a, statements := alSet x.statements source st }) d)

/-- `ID_READ`. -/
def cmdIdRead (c : Cmd) (d : Dev) : Dev :=
  let obj := byteAt c.payload 0
  let bytes : List Byte := match obj with
    | 0 => Config.certificate
    | 1 => partKey
    | 2 => binding d
    | 3 => match newestRecord d with
      | some r => sha256 r.2
      | none => []
    | _ => alGet d.idn.statements c.commander []
  if 4 < obj then refuse c ⟨stRange, 0⟩ d else complete c 0 0 (bytes.drop (field c.payload 2 2)) d

/-! ## Enrolment (R557-R559) -/

/-- `ID_NONCE`: the nonce is a value the spec leaves open (log entry 4). -/
def cmdIdNonce (c : Cmd) (d : Dev) : Dev :=
  let n := (Config.freeWord d.free).toNat
  complete c 0 0 (le 4 n) (idnMod (fun x => { x with nonce := some (n, d.time.tick) }) (takeFree d))

/-- A service instance is not IDLE or DONE. -/
def serviceBusy (d : Dev) : Bool :=
  (List.finRange 6).any (fun i => dryRuns i (dryOf d i)) || (List.finRange 2).any fun i => (watOf d i).phase != 0

/-- The refusals of R558, after that of R555. -/
def enrolRefusal (d : Dev) (req : List Byte) : Option Refuse :=
  let key := (req.drop 16).take 64
  let fresh := match d.idn.nonce with
    | some (n, t) => n == field req 148 4 && d.time.tick - t ≤ 60000
    | none => false
  firstRefusal [
    (d.idn.keyFault, ⟨stIntegrity, 0⟩),
    (!fresh, refused 0xB1),
    (!ecVerify key (req.take 160 ++ fingerprint) ((req.drop 160).take 64), refused 0xB2),
    (chainNo d != 0 && sha256 key != ((binding d).drop 16).take 32, refused 0xB3),
    (serviceBusy d, refused 0xB4)]

/-- The body of a START record (R562). -/
def startBody (d : Dev) (req : List Byte) (chain : Nat) : List Byte :=
  let t := le 8 (dtNs d)
  let q := le 2 (timeWord d)
  recordHead d 2 0 0 d.pwr.bootCount ++ le 12 0 ++ t ++ q ++ le 2 0 ++ t ++ q ++ le 1 d.gns.steps ++ le 1 d.gns.steps ++
    List.replicate 72 0 ++ req.take 16 ++ le 4 chain ++ sha256 ((req.drop 16).take 64) ++ (req.drop 80).take 68

/-- `ID_ENROL`: the staged request is taken (R565), the START record is written and the binding with its flash operation
(R559, R87). -/
def cmdIdEnrol (c : Cmd) (d : Dev) : Dev :=
  let d := atBoundary (fun w => w.bnd == .enrol) d
  let req := padTo 224 (pbytes d kIdnEnrolReq 0)
  match enrolRefusal d req with
  | some r => refuse c r d
  | none =>
    let chain := chainNo d + 1
    let i := d.idn.next
    let bind_ := req.take 16 ++ sha256 ((req.drop 16).take 64) ++ le 4 chain ++ le 8 (dtNs d)
    let d := storeRecord 2 0 (startBody d req chain) (idnMod (fun x => { x with nonce := none }) d)
    queueFlash c 3 chain (le 4 chain ++ le 4 i) (some (addrOf kIdnBinding 0, wordsOf 15 bind_)) (copyFlush d)

/-- The binding is written and EV_IDN_ENROLLED raised (R559). -/
def enrolDone (ws : List Word) (chain index : Nat) (d : Dev) : Dev :=
  idnRaise 0xB001 (le 4 chain ++ le 4 index)
    (setPair (addrOf kIdnBinding 0) (ws.map mkPair) (idnMod (fun x => { x with lost := false }) d))

/-- `ID_RECORD_FETCH`: stored records reach Q16 again after any copies pending (R564); it completes with its flash
operation. -/
def cmdRecordFetch (c : Cmd) (d : Dev) : Dev :=
  let first := field c.payload 0 4
  let n := field c.payload 4 4
  if n = 0 ∨ 1800 < n then refuse c ⟨stRange, 0⟩ d
  else
    let is := (d.idn.records.map (·.1)).filter fun i => first ≤ i && i < first + n
    copyFlush (queueFlash c 0 0 (le 4 is.length) none (idnMod (fun x => { x with copies := x.copies ++ is }) d))

/-- At boot: the copies that have not reached Q16 wait again, the key test has its result, and a part without a binding says so
(R555, R560, R564). -/
def idnBoot (keyOk : Bool) (d : Dev) : Dev :=
  let d := idnMod (fun x =>
    { x with keyFault := !keyOk, copies := (x.records.map (·.1)).filter fun i => x.exported ≤ i }) d
  let d := when (!keyOk) (idnRaise 0xB006 []) d
  when (chainNo d == 0) (idnRaise 0xB002 (le 1 (b2n d.idn.lost))) d

def execLotRecordSigned (s : State) := loud lotSigned s
def execIdAttest (c : CmdId) (s : State) := quiet (withCmd 0x1B01 c cmdIdAttest) s
def execIdRead (c : CmdId) (s : State) := quiet (withCmd 0x1B02 c cmdIdRead) s
def execIdEnrol (c : CmdId) (s : State) := loud (withCmd 0x1B03 c (flashTurn cmdIdEnrol)) s
def execIdRecordFetch (c : CmdId) (s : State) := loud (withCmd 0x1B04 c (flashTurn cmdRecordFetch)) s
def execIdNonce (c : CmdId) (s : State) := quiet (withCmd 0x1B05 c cmdIdNonce) s

end Sys2Proof.Machine
end

