-- ==== Sys2Proof/Machine/Flash.lean ====
section
/-!
DEFINITION. Machine/Flash.lean: the queue of flash commands (R86, R87): `HLT_LOG_READ` (R551), and the beginning of the next
command that waits for the flash.
-/
namespace Sys2Proof.Machine

/-- Entries of Q17 a record takes: one of 32 bytes of the health log, two of the ageing log. -/
def logEntries (r : List Byte) : List (List Byte) := if r.length ≤ 32 then [r] else [r.take 32, r.drop 32]

/-- `HLT_LOG_READ`: up to `count` records that end with the one so many back from the newest, oldest first, as far as Q17 has
room. -/
def cmdLogRead (c : Cmd) (d : Dev) : Dev :=
  let which := byteAt c.payload 0
  let back := field c.payload 4 4
  let count := field c.payload 8 4
  if 1 < which then refuse c ⟨stRange, 0⟩ d
  else
    let log := if which = 0 then d.hlt.healthLog else d.hlt.ageLog
    let per := which + 1
    let rs := log.take (log.length - back)
    let rs := rs.drop (rs.length - count)
    let q := ringOf d 17
    let n := if q.en then min rs.length (q.free / per) else 0
    let d := forEach ((rs.take n).flatMap logEntries) (fun b d => emit (.push 17 b) d) d
    queueFlash c 0 0 (le 4 n) none d

/-- A flash command begins, with the meaning of its opcode. -/
def flashStart (c : Cmd) (d : Dev) : Dev :=
  match c.opcode with
  | 0x0300 => cmdImgOpen c d
  | 0x0301 => cmdImgData c d
  | 0x0302 => cmdImgClose c d
  | 0x0305 => cmdImgErase c d
  | 0x0310 => cmdFwOpen c d
  | 0x0311 => cmdFwData c d
  | 0x0312 => cmdFwClose c d
  | 0x0313 => cmdFwSwitch c d
  | 0x160A => cmdLedgerRead c d
  | 0x1A03 => cmdLogRead c d
  | 0x1B03 => cmdIdEnrol c d
  | 0x1B04 => cmdRecordFetch c d
  | _ => d

/-- The command at the front of the queue that waits for the flash begins, or is gone where it has been refused, aborted or timed
out (R86). While step L3 is in force no record is opened (R509). -/
def flashFront (d : Dev) : Dev :=
  match d.hlt.flash with
  | [] => d
  | f :: rest =>
    if f.kind != 5 || 3 ≤ d.pwr.lStep then d
    else
      let d := { d with hlt := { d.hlt with flash := [] } }
      let d := match f.cmd.bind (liveCmd d) with
        | some c => if c.phase == CmdPhase.waiting then flashStart c d else d
        | none => d
      { d with hlt := { d.hlt with flash := d.hlt.flash ++ rest } }

/-- The next flash command begins, until an operation is at the front of the queue. -/
def flashNext (d : Dev) : Dev := forEach d.hlt.flash (fun _ d => flashFront d) d

end Sys2Proof.Machine
end

