-- ==== Sys2Proof/Machine/Gate.lean ====
section
/-!
DEFINITION. Machine/Gate.lean: the Start Gate's admission of one event or completion (R29-R33, R39, R77) and what follows from
its bib.
-/
namespace Sys2Proof.Machine

/-! ## Publishing an event -/

/-- Events the health log keeps (R551). -/
def loggedCode (code : Nat) : Bool :=
  code / 0x1000 == 0xA ||
    [0x0010, 0x0012, 0x0016, 0x2006, 0x3007, 0x5008, 0x5009, 0x9006, 0x9007, 0x9008].contains code

/-- The health log opens no record while step L3 is in force (R509). -/
def toHealthLog (a : Admitted) (d : Dev) : Dev :=
  when (loggedCode a.ev.code && d.pwr.lStep < 3) (healthLogAdd (eventBytes a)) d

/-- The on-chip event buffer keeps the last 2,048 events (R77). -/
def toBuffer (a : Admitted) (d : Dev) : Dev :=
  { d with gate := { d.gate with buffer := (d.gate.buffer ++ [a]).drop (d.gate.buffer.length + 1 - 2048) } }

/-- An event that Q8 cannot take is counted, and joins the range of lost bibs (R77). -/
def eventLost (bib : Word) (d : Dev) : Dev :=
  let l : Loss := match d.gate.loss with
    | some l => { l with last := bib, count := l.count + 1 }
    | none => { first := bib, last := bib, count := 1, raised := false }
  ringMod 8 (fun r => { r with aux := (r.aux + 1) % 2 ^ 32 }) { d with gate := { d.gate with loss := some l } }

/-- Q8: an event of a subsystem that `HST_EVT_MASK` names is written, or lost while the ring is full or until
EV_HST_EVENT_LOSS has its bib (R77, R92). -/
def toEventRing (a : Admitted) (d : Dev) : Dev :=
  let q := ringOf d 8
  if !q.en || !bitOf (pget d kHstEvtMask 0) (a.ev.code / 0x1000) then d
  else if q.free = 0 || d.gate.loss.isSome then eventLost a.bib d
  else emit (.push 8 (eventBytes a)) d

/-- EV_HST_EVENT_LOSS takes its data when it is admitted, and ends the loss (R77). -/
def lossFilled (e : EvRec) (d : Dev) : EvRec × Dev :=
  match d.gate.loss with
  | none => (e, d)
  | some l =>
    ({ e with data := le 4 l.first.toNat ++ le 4 l.last.toNat ++ le 4 l.count }, { d with gate := { d.gate with loss := none } })

/-! ## What follows from a bib -/

/-- A restart of a rolled-back `SLEEP_REQ` that still waits for its bib. -/
def restartWaits (d : Dev) : Bool :=
  (d.gate.ports.get 6).any fun g => match g with
    | .ev e => e.code == 0x9004 && byteAt e.data 3 == 2
    | .comp _ => false

/-- The end of a refused `SLEEP_REQ` (R501): its `note` holds the refusing domain, the reason and the domains restarted. -/
def sleepRefused (bib : Nat) (d : Dev) : Dev :=
  match d.pwr.sleepCmd with
  | none => d
  | some id =>
    let n := match liveCmd d id with
      | some c => c.note
      | none => 0
    completeId id stRefused (n % 16) (le 1 (n % 16) ++ le 1 (n / 16 % 16) ++ le 2 (n / 256) ++ le 4 bib)
      (pwrMod (fun p => { p with sleepCmd := none }) d)

/-- The ageing record of a committed pass takes the bib of its event (R536). -/
def groomAdmit (bib : Word) (d : Dev) : Dev :=
  match d.hlt.ageLog.getLast? with
  | none => d
  | some r =>
    let b := overwrite (r.take 60) 44 (le 4 bib.toNat)
    { d with hlt := { d.hlt with ageLog := d.hlt.ageLog.dropLast ++ [b ++ le 4 (crc32 b)] } }

/-- What the device does when an event of a code has its bib: lots record it (R561), a broken channel's
result is marked (R180), an attestation is signed (R556), F4's
entry is confirmed by a SAFE frame (R508), a refused sleep ends (R501), and an ageing record is complete (R536). -/
def admitHooks (a : Admitted) (d : Dev) : Dev :=
  let c := a.ev.code
  let d := lotAdmit a.ev a.bib d.gate.wrap d
  let d := when (c == 0xB003) (attestAdmit (byteAt a.ev.data 0) a.bib) d
  let d := when (c == 0x2001) (afeBrokenAdmit (byteAt a.ev.data 0)) d
  let d := when (c == 0x9001 && byteAt a.ev.data 0 == 4 && byteAt a.ev.data 1 == 0) (askSafe { scope := 0, object := 0 } 2 none) d
  let d := when (c == 0x9004 && byteAt a.ev.data 3 == 2 && !restartWaits d) (sleepRefused a.bib.toNat) d
  when (c == 0xA00C) (groomAdmit a.bib) d

/-- An event admitted with its bib. -/
def admitEvent (e : EvRec) (bib : Word) (d : Dev) : Dev :=
  let (e, d) := if e.code = 0xC003 then lossFilled e d else (e, d)
  let a : Admitted := { bib := bib, ev := e }
  admitHooks a (toEventRing a (toHealthLog a (toBuffer a d)))

/-! ## Completions -/

/-- The completion entry of R82. -/
def completionBytes (bib : Word) (c : Completion) : List Byte :=
  let tag : Byte := match c.id with
    | .host t => t
    | .remote _ t => t
  tag :: (le 1 (b2n c.dup + 2 * b2n c.superseded) ++ le 1 c.status ++ le 1 c.detail ++ le 4 bib.toNat ++ le 2 c.opcode ++
    le 1 c.ring ++ [0] ++ padTo 20 c.result)

/-- The taken entry that a completion ends. -/
def compCmd (d : Dev) (c : Completion) : Option Cmd :=
  d.cmd.live.find? fun x => x.id = c.id && x.ring = c.ring && x.slot = c.slot && x.dup = c.dup && !x.written

/-- The producer index of a completion ring moves over every slot that has been written (R76, worked example of R92). -/
def tailOver (r : Fin 4) : (n : Nat) → Dev → Dev
  | 0, d => d
  | n + 1, d =>
    let t := (ringOf d (r.val + 4)).tail
    if d.cmd.live.any fun x => x.commander == 0 && x.ring == r && x.slot == t && x.written then
      tailOver r n (ringMod (r.val + 4) (fun q => { q with tail := (q.tail + 1) % 65536 })
        { d with cmd := { d.cmd with resv := vMod d.cmd.resv r (· - 1) } })
    else d

/-- A host command's completion is written into the slot reserved for it (R76). -/
def hostComplete (c : Completion) (x : Cmd) (bib : Word) (d : Dev) : Dev :=
  let d := { d with cmd := { d.cmd with live := d.cmd.live.map fun y => if y = x then { y with written := true } else y } }
  let d := emit (.at (c.ring.val + 4) c.slot (completionBytes bib c)) d
  let d := irqCheck (c.ring.val + 4) (tailOver c.ring (d.cmd.resv.get c.ring) d)
  when (c.opcode == 0x1901 && c.status == stOk && !c.dup) (pwrMod fun p => { p with sleepSlot := true, sleepCmd := none }) d

/-- A remote command's completion is returned on its bus; its tag is free, and EV_HST_RMB_CMD is raised (R101). -/
def remoteComplete (ch : Fin 2) (tag : Byte) (c : Completion) (x : Cmd) (bib : Word) (d : Dev) : Dev :=
  let d := { d with cmd := { d.cmd with live := d.cmd.live.erase x } }
  let d := rmbRespond ch ((x.commander - 1) % 8) (x.slot == 1) (completionBytes bib c) d
  raise 6 0xC005 (subPath 0xC)
    (le 1 ch ++ [tag] ++ le 2 c.opcode ++ le 1 c.status ++ le 1 c.detail ++ [0, 0] ++ le 4 c.target) d

/-- A completion admitted with its bib (R33). -/
def admitCompletion (c : Completion) (bib : Word) (d : Dev) : Dev :=
  match compCmd d c with
  | none => d
  | some x =>
    match c.id with
    | .host _ => hostComplete c x bib d
    | .remote ch tag => remoteComplete ch tag c x bib d

/-! ## Admission -/

/-- What the Start Gate admits next: the oldest item of the lowest port that holds one (R30). -/
def nextItem (d : Dev) : Option (Fin 8 × GateItem) :=
  (List.finRange 8).findSome? fun p => (d.gate.ports.get p).head?.map fun g => (p, g)

/-- One admission: the next bib, one greater than the last, and the wrap count (R29, R30, R39). -/
def admitOne (d : Dev) : Dev :=
  match nextItem d with
  | none => d
  | some (p, g) =>
    let bib := d.gate.bib + 1
    let d := { d with gate := { d.gate with
      ports := vMod d.gate.ports p (·.drop 1)
      bib := bib
      wrap := if bib = 0 then d.gate.wrap + 1 else d.gate.wrap } }
    match g with
    | .ev e => admitEvent e bib d
    | .comp c => admitCompletion c bib d

/-- The next admission is the completion of a `RESET_REQ` that has been accepted, after which the device resets (R93). -/
def resetNext (d : Dev) : Bool :=
  match nextItem d with
  | some (_, .comp c) => c.opcode == 0x0013 && c.status == stOk && !c.dup
  | _ => false

def execStartGateAdmit (s : State) : Host.Outcome State Fault Refusal :=
  if resetNext s.dev then losingSnap (bothReset 0x02) (settle { s with dev := admitOne s.dev }) else taking admitOne s

end Sys2Proof.Machine
end

