-- ==== Sys2Proof/Machine/Frame.lean ====
section
/-!
DEFINITION. Machine/Frame.lean: a frame of the Lift as 128 bits (R104, R105, R108), what makes a receiver keep it (R106), and
how a receiver comes into lock (R107).
-/
namespace Sys2Proof.Machine

/-- Bytes of bits [127:16], most significant first (R105). -/
def frameBytes (x : Nat) : List Byte := beBytes 14 (x / 2 ^ 16)

/-- A frame as it is sent: TYPE, SEQ, PAYLOAD and CRC, the low 112 bits scrambled (R104, R105). -/
def liftFrame (ty seq payload : Nat) : Nat :=
  let x := (ty % 16) * 2 ^ 124 + (seq % 4096) * 2 ^ 112 + (payload % 2 ^ 96) * 2 ^ 16
  (x + crc16 (frameBytes x)) ^^^ scramble

/-- TYPE is defined for a direction (R108). -/
def typeOk (up : Bool) (ty : Nat) : Bool :=
  if up then [1, 2, 5, 8, 9, 10, 11].contains ty else [1, 2, 3, 4, 5].contains ty

/-- CRC and TYPE of a received frame are right, the scrambling removed (R105, R106). -/
def frameGood (up : Bool) (raw : Nat) : Bool :=
  let x := raw ^^^ scramble
  crc16 (frameBytes x) == x % 2 ^ 16 && typeOk up (x / 2 ^ 124)

/-- SEQ of a received frame. -/
def frameSeq (raw : Nat) : Nat := raw / 2 ^ 112 % 4096

/-- A receiver over so many frame periods, at the end of which a frame comes whose CRC and TYPE are right or not: its next state,
and whether the frame is used (R106, R107). In lock, a frame is used whose SEQ is the one expected; out of lock, a right frame
extends the candidate run or starts a new one, and any other ends it. -/
def lockNext (st : LockSt) (good : Bool) (seq periods : Nat) : LockSt × Bool :=
  match st with
  | .locked x => (.locked ((x + periods) % 4096), good && (x + periods) % 4096 == seq)
  | .out run last =>
    if !good then (.out 0 0, false)
    else
      let run := if run = 0 ∨ periods ≠ 1 ∨ seq ≠ (last + 1) % 4096 then 1 else run + 1
      (if 4 ≤ run then .locked seq else .out run seq, false)
  | .keepalive => (.keepalive, false)

end Sys2Proof.Machine
end

