-- ==== Sys2Proof/Machine/Lift.lean ====
section
/-!
DEFINITION. Machine/Lift.lean: the Lift (03): frames of both directions, the tick apply, mask frames, SAFE and RELEASE, silence
and the Snowplough stop, and the releases of R392.
-/
namespace Sys2Proof.Machine

/-! ## Frames -/

/-- The control die sends the downlink rotation (R103, R491, R497): the PLL runs, start-up has reached the Lift and D7 is ON. -/
def downOn (d : Dev) : Bool := d.pwr.pll && !d.host.limp && [0x30, 0x40, 0x80].contains d.host.stage && domOn d 7

/-- Frames other than ROT that wait (R136). -/
def depthDown (d : Dev) : Nat := min d.lift.safePend.length 1 + min d.lift.relPend.length 1 + d.lift.applyLeft
def depthUp (d : Dev) : Nat :=
  (d.lift.urg.toList.filter (·.isSome)).length + (d.lift.evt.toList.filter (·.isSome)).length + d.lift.reportLeft

/-- The greatest depths are kept. -/
def depthNote (d : Dev) : Dev :=
  let a := depthDown d
  let b := depthUp d
  liftMod (fun l => { l with depthMaxDown := max l.depthMaxDown a, depthMaxUp := max l.depthMaxUp b }) d

/-- A RELEASE may be sent: one waits, no Patrol demand stands and step F4 is not in force (R517, R392), and after a reset of the
field die every frequency change it is due has been sent (R247). -/
def relDue (d : Dev) : Bool :=
  let freqDue := d.pwr.hold && d.fio.bank.toList.any fun b => !b.freqWait.isEmpty
  !d.lift.relPend.isEmpty && !d.hlt.demand && d.pwr.fStep < 4 && !freqDue

/-- A frame is the one the downlink sends next (R112): the copies of APPLY, then a pending SAFE and a pending RELEASE, each once
in an image cycle, else ROT. -/
def downIs (k : LiftFrame) (d : Dev) : Bool :=
  let a := d.lift.applyLeft != 0
  let s := !a && !d.lift.safePend.isEmpty && !d.lift.safeSent
  let r := !a && !s && relDue d && !d.lift.relSent
  match k with
  | .rot _ => !a && !s && !r
  | .apply => a
  | .safe => s
  | .release => r
  | _ => false

/-- A frame is the one the uplink sends so many frame periods on (R111): SAFE_REPORT in the first eight frames after a stop, else
by SEQ modulo 16; of several pending codes of a class, any (log entry 130). -/
def upIs (k : LiftFrame) (periods : Nat) (d : Dev) : Bool :=
  let n := (d.lift.upSeq + periods) % 16
  let u := d.lift.urg.toList.any (·.isSome)
  let e := d.lift.evt.toList.any (·.isSome)
  if d.lift.reportLeft != 0 then k == .report
  else match k with
    | .rot _ => n == 15 || !(u || e)
    | .urg c => (d.lift.urg.get c).isSome && n != 15 && (n % 4 != 3 || !e)
    | .evt c => (d.lift.evt.get c).isSome && n != 15 && (n % 4 == 3 || !u)
    | _ => false

/-- The field die has relocked: every filter starts from its next sample (R262), the silence timer may run (R127), and frames
held through the silence carry the stamp of this moment (R37). -/
def fieldRelock (d : Dev) : Dev :=
  let t := d.time.tick
  let o := fieldOfs d
  let held : Option MaskFrame → Option MaskFrame := fun f => f.map fun f => if f.late then { f with tick := t, ofs := o } else f
  fioRelock (vlvRelock (liftMod (fun l => { l with armed := true, fTick := t, urg := l.urg.map held, evt := l.evt.map held }) d))

/-- EV_SYS_LIFT_RESTORED at the first valid uplink frame after a silence (R129, R392). -/
def restored (d : Dev) : Dev :=
  if !d.lift.silent then { d with svc := { d.svc with spoiled := false } }
  else
    let us := d.lift.silentFr * 4 / 5
    raise 1 0x0011 (diePath 0 0) (le 4 us) (liftMod (fun l => { l with silent := false }) d)

/-! ## The downlink rotation (R109) -/

/-- The set that output slots carry: its tick, EPOCH and values (R115, R522). -/
def sentSet (d : Dev) : TickSet :=
  match d.lift.closed with
  | some c => c
  | none => { tick := d.time.tick + 1, mask := d.lift.openMask, epoch := epochOf d 0 % 256, vals := d.lift.opened }

/-- The first valid slot of a channel after a reset gives the field die its last CSEQ; pulses placed by then do not start
(R495). -/
def cseqTake (n : Fin 16) (v : VlvCmd) (d : Dev) : Dev :=
  let c := vlvCh d n
  if !c.cseqNew then d
  else
    let t := d.time.tick
    let d := vlvMod n (fun c => { c with cseq := v.cseq, cseqNew := false, placed := [] }) d
    forEach c.placed (fun p d => pulseReset n false t p.2 d) d

/-- An output slot: the field die holds its newest copy for each TAG (R114). -/
def outputSlot (n : Fin 24) (d : Dev) : Dev :=
  let s := sentSet d
  let v := s.vals.get n
  let tag : Fin 4 := ⟨s.tick % 4, by omega⟩
  let d := liftMod (fun l =>
    { l with copies := vMod l.copies n fun c => c.set tag (some { val := v, epoch := s.epoch }) }) d
  match v with
  | .bank _ _ => d
  | .valve c => if h : 8 ≤ n.val then cseqTake ⟨n.val - 8, by omega⟩ c d else d

/-- The word of the next PAIR slot: one that takes it ahead of the round, or the next of the round (R123). -/
def pairNext (d : Dev) : Nat :=
  match d.lift.pairPrio with
  | a :: _ => a
  | [] => fieldPairAddrs.getD (d.lift.pairRound % fieldPairAddrs.length) 0

/-- Pair and GEN that a PAIR slot carries: the newest value on its way, else the primary pair; none while no valid copy exists
(R46). -/
def pairSent (d : Dev) (a : Nat) : Option (Word × Word × Nat) :=
  let p := pairOf d a
  match (d.cmd.waits.filter fun w => w.bnd == .fieldApply && w.addr == a).getLast? with
  | some w => some (w.words.getD 0 0, w.words.getD 1 0, (p.gen + 1) % 4)
  | none =>
    let x := p.prim.headD (0, 0)
    if pairValid x then some (x.1, x.2, p.gen) else none

/-- The field die's copies of its PAIRED words changed. -/
def fieldPairMod (a : Nat) (f : FieldPair → FieldPair) (d : Dev) : Dev :=
  let p := (fieldPair d a).getD { act := (0, 0), shad := (0, 0), gen := 0, pend := none }
  liftMod (fun l => { l with pairs := alSet l.pairs a (f p) }) d

/-- A PAIR slot: the field die holds the pair until the next APPLY (R123). -/
def pairSlot (d : Dev) : Dev :=
  let a := pairNext d
  match pairSent d a with
  | none => d
  | some x =>
    let d := fieldPairMod a (fun p => { p with pend := some x }) d
    { d with cmd := { d.cmd with waits := d.cmd.waits.map fun w =>
      if w.bnd == .fieldApply && w.addr == a then { w with left := 0 } else w } }

/-- A PAIR slot has been sent: its word has had its turn. -/
def pairTaken (d : Dev) : Dev :=
  let a := pairNext d
  liftMod (fun l =>
    { l with pairRound := if l.pairPrio.isEmpty then l.pairRound + 1 else l.pairRound, pairPrio := l.pairPrio.filter (· != a) }) d

/-- The payload of slot 24 + j: the settings of four measurement channels as they have been accepted (R150). -/
def afePayload (d : Dev) (j : Nat) : Nat :=
  let e := coming (fun w => w.addr / 2 ^ 20 == 2) d
  [0, 1, 2, 3].foldl (fun a k => a * 2 ^ 22 + afeSetting e (4 * j + k)) 0

/-- The payload of slot 32 + n: the sweep settings of a dielectric channel as they have been accepted (R225). -/
def dlxPayload (d : Dev) (n : Nat) : Nat :=
  let e := coming (fun w => w.addr / 2 ^ 20 == 3) d
  let t := pget e kDlxTempChan n
  pget e kDlxEnable n % 4 * 2 ^ 86 + (pget e kDlxPoints n - 1) % 32 * 2 ^ 81 + pget e kDlxSpacing n % 2 * 2 ^ 80 +
    pget e kDlxFStart n / 10 % 2 ^ 16 * 2 ^ 64 + (pget e kDlxAmplMv n - 500) / 100 % 16 * 2 ^ 60 +
    (pget e kDlxAvg n - 1) % 256 * 2 ^ 52 + pget e kDlxFillQuorum n % 128 * 2 ^ 45 + pget e kDlxFillMin n % 2 ^ 16 * 2 ^ 29 +
    pget e kDlxGrain n % 64 * 2 ^ 23 + (if t < 32 then t * 2 ^ 18 else 2 ^ 17)

/-- Entries of `lift.cfg` that a test names have arrived: a converting channel that now has all of its values restarts. -/
def cfgArrived (p : Nat × Nat → Bool) (d : Dev) : Dev :=
  let e := liftMod (fun l => { l with cfg := l.cfg.filter fun x => !p x }) d
  forEach ((List.finRange 32).filter fun ch => (d.afe.ch.get ch).on && afeAwaits d ch && !afeAwaits e ch) afeRestart e

/-- A value that waits has been carried by the frames it needs, where a test names it. -/
def waitsArrived (p : Wait → Bool) (d : Dev) : Dev :=
  { d with cmd := { d.cmd with waits := d.cmd.waits.map fun w => if p w then { w with left := 0 } else w } }

/-- The settings of four measurement channels arrive (R150). An enable counts once the channel's other values are there. -/
def afeSlot (j : Fin 8) (d : Dev) : Dev :=
  let v := afePayload d j
  let d := liftMod (fun l => { l with excSlot := l.excSlot.set j v }) d
  let d := cfgArrived (fun e => e.1 / 2 ^ 20 == 2 && afeSlotKey (keyOf e.1) && instOf e.1 / 4 == j.val) d
  waitsArrived (fun w => w.addr / 2 ^ 20 == 2 && afeSlotKey (keyOf w.addr) && instOf w.addr / 4 == j.val &&
    (keyOf w.addr != kAfeEnable || !afeAwaits (coming (fun x => x.addr == w.addr) d) (instOf w.addr))) d

/-- The sweep settings of a channel arrive (R225). An enable or a grain counts once every chunk of the channel's values is there. -/
def dlxSlot (n : Fin 4) (d : Dev) : Dev :=
  let v := dlxPayload d n
  let d := liftMod (fun l => { l with sweepSlot := l.sweepSlot.set n v }) d
  let d := cfgArrived (fun e => e.1 / 2 ^ 20 == 3 && dlxSlotKey (keyOf e.1) && instOf e.1 == n.val) d
  waitsArrived (fun w => w.addr / 2 ^ 20 == 3 && dlxSlotKey (keyOf w.addr) && instOf w.addr == n.val &&
    ((keyOf w.addr != kDlxEnable && keyOf w.addr != kDlxGrain) || !dlxAwaits (coming (fun x => x.addr == w.addr) d) n)) d

/-- A value that crosses in CFG slots and has a slot to wait for. -/
def cfgWait (w : Wait) : Bool :=
  w.left != 0 && match w.bnd with
    | .fieldMark => true
    | .dither _ => true
    | .profile _ => true
    | .convEnd _ => !afeSlotKey (keyOf w.addr)
    | .dlxCycle => !dlxSlotKey (keyOf w.addr)
    | _ => false

/-- The oldest value that waits for a CFG slot has crossed one. -/
def cfgTake : List Wait → List Wait
  | [] => []
  | w :: rest => if cfgWait w then { w with left := w.left - 1 } :: rest else w :: cfgTake rest

/-- A value without a boundary that crosses in CFG slots. -/
def cfgOwn (e : Nat × Nat) : Bool := !(e.1 / 2 ^ 20 == 2 && afeSlotKey (keyOf e.1) || e.1 / 2 ^ 20 == 3 && dlxSlotKey (keyOf e.1))

/-- A CFG slot arrives: it carries a frame of the oldest value that waits for one, else of the oldest without a boundary. -/
def cfgSlot (d : Dev) : Dev :=
  if d.cmd.waits.any cfgWait then { d with cmd := { d.cmd with waits := cfgTake d.cmd.waits } }
  else match d.lift.cfg.find? cfgOwn with
    | none => d
    | some e =>
      if e.2 ≤ 1 then cfgArrived (· == e) d
      else liftMod (fun l => { l with cfg := l.cfg.map fun x => if x == e then (x.1, x.2 - 1) else x }) d

/-- A sampling phase moves by one step towards the one that Grooming has chosen (R132). -/
def phaseStep (phase goal : Nat) : Nat := if phase < goal then phase + 1 else if goal < phase then phase - 1 else phase

/-- FSQ checks a PAIRED word once in an image cycle (R47, R52): a pair that fails is repaired from the other, which the uplink
reports; where both fail, FSQ asks for the word again. -/
def fsqCheck (e : Nat × FieldPair) (d : Dev) : Dev :=
  let a := e.1
  match pairValid e.2.act, pairValid e.2.shad with
  | true, true => d
  | true, false =>
    liftMod (fun l => { l with fsqRep := l.fsqRep ++ [a] }) (fieldPairMod a (fun p => { p with shad := p.act }) d)
  | false, true =>
    liftMod (fun l => { l with fsqRep := l.fsqRep ++ [a] }) (fieldPairMod a (fun p => { p with act := p.shad }) d)
  | false, false => if d.lift.fsqReq.contains a then d else liftMod (fun l => { l with fsqReq := l.fsqReq ++ [a] }) d

/-- The MARK slot at the field die: its cycle count and status flags, of which the spec gives no layout (R109; log entry 4); values
the field die holds that wait for it apply (R265, R300), its PAIRED words are checked (R47), and the downlink's sampling phase
moves (R132). -/
def markDown (d : Dev) : Dev :=
  let w := Config.freeWord d.free
  let d := liftMod (fun l =>
    { l with phaseDown := phaseStep l.phaseDown l.goalDown, fCycle := l.cycle % 1024, fFlags := w }) (takeFree d)
  atBoundary (fun w => w.bnd == .fieldMark) (forEach d.lift.pairs fsqCheck d)

/-- The MARK slot at the control die, which sends it whether or not the field die receives it: values of the control die that
wait for it apply (R134), and an image cycle ends (R112, R113). -/
def markSent (d : Dev) : Dev :=
  let d := atBoundary (fun w => w.bnd == .mark) d
  liftMod (fun l =>
    { l with
      cycDown := l.runDown
      cycDownMax := max l.cycDownMax l.runDown
      runDown := 0
      cycle := l.cycle + 1
      safeSent := false
      relSent := false }) d

/-- Housekeeping (R109): the tick number in slot 60, DT of the last TICK edge with its time quality in slot 61, and the field die's
trims in slot 62 (log entry 131). -/
def houseSlot (j : Nat) (d : Dev) : Dev :=
  let t := d.time.tick
  let dt := tickDtNs d
  let q := d.gns.tq
  let g := d.hlt.groomPass
  liftMod (fun l => match j with
    | 0 => { l with fTick := t }
    | 1 => { l with fDt := dt, fTq := q }
    | _ => { l with fTrim := g }) d

/-- A downlink rotation slot the field die uses (R109). -/
def rotDown (n : Fin 64) (d : Dev) : Dev :=
  if h : n.val < 24 then outputSlot ⟨n.val, h⟩ d
  else if h : n.val < 32 then afeSlot ⟨n.val - 24, by omega⟩ d
  else if h : n.val < 36 then dlxSlot ⟨n.val - 32, by omega⟩ d
  else if n.val < 52 then pairSlot d
  else if n.val < 60 then cfgSlot d
  else if n.val < 63 then houseSlot (n.val - 60) d
  else markDown d

/-! ## The tick set and its APPLY (R114-R119) -/

/-- The next frequency change of a bank joins the open set (R247). -/
def freqJoin (b : Fin 8) (d : Dev) : Dev :=
  let n : Fin 24 := ⟨b.val, by omega⟩
  match d.lift.opened.get n, (d.fio.bank.get b).freqWait with
  | .bank ds none, f :: rest =>
    bankMod b (fun k => { k with freqWait := rest })
      (liftMod (fun l =>
        { l with opened := l.opened.set n (.bank ds (some f)), openMask := l.openMask ||| 2 ^ b.val }) d)
  | _, _ => d

/-- A closed set carries a pin's frequency change. -/
def carriesFreq (c : TickSet) (n hz : Nat) : Bool :=
  match vAt c.vals (n / 8) (.bank [] none) with
  | .bank _ f => f == some (n % 8, hz)
  | .valve _ => false

/-- The waits of values that the set carries wait for its APPLY alone. -/
def waitClosed (c : TickSet) (w : Wait) : Wait :=
  if w.bnd != .tickSet then w
  else if keyOf w.addr = kFioPwmHz then
    if carriesFreq c (instOf w.addr) (w.words.headD 0).toNat then { w with left := 0 } else w
  else { w with left := 0 }

/-- A slot's value without a frequency change, which one set carries (R247). -/
def withoutFreq (v : SlotVal) : SlotVal :=
  match v with
  | .bank ds _ => .bank ds none
  | .valve x => .valve x

/-- The copies of a TAG have been used. -/
def copiesClear (t : Nat) (d : Dev) : Dev :=
  let tag : Fin 4 := ⟨t % 4, by omega⟩
  liftMod (fun l => { l with copies := l.copies.map fun c => c.set tag none }) d

/-- A set that has not been applied: every slot of it is carried into the open one with its newest value (R117). -/
def applyCarry (c : TickSet) (d : Dev) : Dev :=
  let keep := fun (n : Fin 24) (o : SlotVal) => match o, c.vals.get n with
    | .bank ds none, .bank _ f => if bitOf c.mask n then .bank ds f else .bank ds none
    | x, _ => x
  liftMod (fun l =>
    { l with
      apply := none
      openMask := l.openMask ||| c.mask
      opened := Vector.ofFn fun n => keep n (l.opened.get n) }) d

/-- Nothing is applied at this edge (R117): outputs hold, the miss is counted, and the set is carried. -/
def applyMiss (c : TickSet) (d : Dev) : Dev :=
  copiesClear c.tick (liftMod (fun l =>
    { l with miss := (l.miss + 1) % 256, missTick := c.tick, missMask := c.mask }) (applyCarry c d))

/-- An APPLY of which no copy has been used is past: a field die in lock has missed it, and its set is carried (R117). -/
def applyLapse (d : Dev) : Dev :=
  match d.lift.apply with
  | none => d
  | some c => if fieldRuns d then applyMiss c d else applyCarry c d

/-- 110 µs before an edge the set closes; what comes later joins the next (R115). The epoch it is stamped with is checked (R46). -/
def setClose (d : Dev) : Dev :=
  if d.lift.closed.isSome || !d.time.running || d.host.limp then d
  else
    let d := forEach (List.finRange 8) freqJoin (applyLapse (pairFix 6 (addrOf kHltEpoch 0) d))
    let c : TickSet := { tick := d.time.tick + 1, mask := d.lift.openMask, epoch := epochOf d 0 % 256, vals := d.lift.opened }
    let d := { d with cmd := { d.cmd with waits := d.cmd.waits.map (waitClosed c) } }
    nextPulses (liftMod (fun l =>
      { l with
        closed := some c
        openMask := 0
        opened := l.opened.map withoutFreq }) d)

/-- APPLY is due at a TICK edge, in two frames, with an empty SET where no set has been closed (R112). -/
def applySend (d : Dev) : Dev :=
  let d := applyLapse d
  let t := d.time.tick
  let e := epochOf d 0 % 256
  liftMod (fun l =>
    let c : TickSet := match l.closed with
      | some c => c
      | none => { tick := t, mask := 0, epoch := e, vals := l.opened }
    { l with apply := some { c with tick := t }, closed := none, applyLeft := 2, applyLost := 0, applySent := t % 2 ^ 32 }) d

/-- The field die adopts the pairs it holds (R123). -/
def adoptPairs (d : Dev) : Dev :=
  atBoundary (fun w => w.bnd == .fieldApply) (liftMod (fun l =>
    { l with pairs := l.pairs.map fun e =>
      match e.2.pend with
      | some (v, c, g) => (e.1, { act := (v, c), shad := (v, c), gen := g, pend := none })
      | none => e }) d)

/-- An enable that has fallen ends what its valve channel does (R275; log entry 35). -/
def enableLost (n : Fin 16) (d : Dev) : Dev := if vlvEn d (vlvLead d n) then d else vlvCut n d

/-- The enables as the field die's pairs now give them. -/
def enablesLost (d : Dev) : Dev := wakeAll (forEach (List.finRange 16) enableLost d)
/-- What an output slot holds for an APPLY: the copy of its TAG and the epoch in force (R117, R119, R522). -/
def slotCopy (d : Dev) (t epoch : Nat) (n : Fin 24) : Option SlotVal :=
  let tag : Fin 4 := ⟨t % 4, by omega⟩
  match (d.lift.copies.get n).get tag with
  | some c => if c.epoch = epoch then some c.val else none
  | none => none

/-- The epochs of the held copies of a TAG that are not the epoch in force: those copies are discarded and counted at the APPLY
that would latch them (R119, R522). -/
def staleSlots (d : Dev) (t epoch : Nat) : List Nat :=
  let tag : Fin 4 := ⟨t % 4, by omega⟩
  (List.finRange 24).filterMap fun n => match (d.lift.copies.get n).get tag with
    | some c => if c.epoch = epoch then none else some c.epoch
    | none => none

/-- A pulse that a later one of the same channel has overtaken in a missed set (R117): log entry 36. -/
def overtaken (n : Fin 16) (v : VlvCmd) (tick : Nat) (d : Dev) : Dev :=
  let c := vlvCh d n
  if v.kind = 1 ∧ v.cseq ≠ c.cseq ∧ c.placed.any (fun p => p.1 == v.cseq) then
    let old := c.placed.takeWhile fun p => p.1 != v.cseq
    let d := vlvMod n (fun c => { c with placed := c.placed.drop old.length }) d
    forEach old (fun p d => pulseReset n false tick p.2 d) d
  else d

/-- One bank at an APPLY. -/
def bankApply (b : Fin 8) (v : Option SlotVal) (t : List Byte) (d : Dev) : Dev :=
  let duties := match v with
    | some (.bank ds _) => ds
    | _ => (List.range 8).map fun k => (vAt d.fio.pin (8 * b + k) Pin.reset).cmd
  let d := match v with
    | some (.bank _ (some (k, hz))) =>
      { d with fio := { d.fio with pin := vModN d.fio.pin (8 * b + k) fun p => { p with hzCmd := hz } } }
    | _ => d
  forEach (List.finRange 8) (fun k d => pinApply ⟨8 * b.val + k.val, by omega⟩ (duties.getD k 0) t d) d

/-- One valve channel at an APPLY. -/
def channelApply (n : Fin 16) (v : Option SlotVal) (tick : Nat) (t : List Byte) (d : Dev) : Dev :=
  let c := vlvCh d n
  let x : VlvCmd := match v with
    | some (.valve x) => x
    | _ => { cseq := c.cseq, kind := if isPropMode (vlvMode d n) then 2 else 0, setMa := c.cmdSp, holdT := 0 }
  vlvApply allHook n x tick t (overtaken n x tick d)

/-- A valve channel runs a profile or waits with one (R281). -/
def anyProfile (d : Dev) : Bool := d.vlv.ch.toList.any fun c => c.prof.isSome || c.next.isSome || !c.placed.isEmpty

/-- Commands that complete at this APPLY: `STOP` once every output is at its safe value (R93), `PAD_RELEASE` of D8 (R502), and requests of
RELEASE that the field die acts on (R392). -/
def applyDone (tick rel : Nat) (d : Dev) : Dev :=
  let t := le 8 tick
  let stops := d.cmd.live.filter fun c =>
    c.opcode == 0x0011 && c.phase == .begun && !c.dup && c.note ≤ tick && !anyProfile d
  let d := if stops.isEmpty || !d.svc.stopping then d
    else { d with svc := { d.svc with running := false, stopping := false } }
  let d := forEach stops (fun c d => completeId c.id 0 0 t d) d
  let pads := d.cmd.live.filter fun c => c.opcode == 0x1902 && c.phase == .begun && !c.dup
  let d := if pads.isEmpty then d else pwrMod (fun p => { p with pads := p.pads.set 8 false }) d
  let d := forEach pads (fun c d => completeId c.id 0 0 t d) d
  let done := fun (r : RelReq) => scopeMask r.sc &&& rel == scopeMask r.sc
  let d := forEach (d.lift.relPend.filter done) (fun r d => match r.cmd with
    | some id => completeId id 0 0 t d
    | none => d) d
  liftMod (fun l => { l with relPend := l.relPend.map fun r => if done r then { r with cmd := none } else r }) d

/-- Objects in a safe state. -/
def anySafe (d : Dev) : Bool :=
  (List.finRange 64).any (fun n => (d.fio.pin.get n).safe) || (List.finRange 16).any fun n => (vlvCh d n).safe

/-- Every slot of a set is latched together (R114, R116, R118, R495, R507). -/
def applySet (c : TickSet) (held : Nat) (d : Dev) : Dev :=
  let t := le 8 c.tick
  let rel := d.lift.relField
  let vals : Vector (Option SlotVal) 24 := Vector.ofFn fun n => slotCopy d c.tick held n
  let d := forEach [(1 : Fin 4), 2, 3] (fun k d => when (d.pwr.relClass.get k) (releaseClass k) d) d
  let d := when (rel != 0) (pwrMod fun p => { p with hold := false }) d
  let d := forEach (List.finRange 8) (fun (b : Fin 8) d => bankApply b (vals.get ⟨b.val, by omega⟩) t d) d
  let d := forEach (List.finRange 16) (fun (n : Fin 16) d => channelApply n (vals.get ⟨8 + n.val, by omega⟩) c.tick t d) d
  let d := wakeAll d
  let d := copiesClear c.tick (liftMod (fun l =>
    { l with apply := none, lastApply := c.tick % 2 ^ 32, relField := 0 }) d)
  let d := atBoundary (fun w => w.bnd == .tickSet) d
  let d := when (rel != 0 && !anySafe d) (liftMod fun l => { l with stopped := false }) d
  excUpdate (svcUnsuspend (applyDone c.tick rel d))

/-- An APPLY frame the field die uses: it adopts its pairs first, then judges EPOCH and the slots of SET (R522, R119, R117). -/
def applyFrame (copy : Bool) (d : Dev) : Dev :=
  match d.lift.apply with
  | none => d
  | some c =>
    let d := liftMod (fun l => { l with fTick := c.tick }) d
    let d := enablesLost (adoptPairs d)
    let held := fpairV d kHltEpoch 0 % 256
    let bad := staleSlots d c.tick held
    if c.epoch ≠ held then
      let d := liftMod (fun l =>
        { l with fenced := (l.fenced + 1) % 256, fencedEpoch := c.epoch, applyLost := l.applyLost + 1 }) d
      if copy || 2 ≤ d.lift.applyLost then applyMiss c d else d
    else
      let d := liftMod (fun l =>
        { l with fenced := (l.fenced + bad.length) % 256, fencedEpoch := bad.getLastD l.fencedEpoch }) d
      if (List.finRange 24).all fun n => !bitOf c.mask n || (slotCopy d c.tick held n).isSome then applySet c held d
      else applyMiss c d

/-! ## SAFE and RELEASE (R128, R130) -/

/-- A SAFE frame the field die uses: it meets every demand whose objects it takes in (R112). -/
def safeFrame (d : Dev) : Dev :=
  match mergeNext (·.sc) d.lift.safePend with
  | none => d
  | some sc =>
    let met := fun (r : SafeReq) => sc.covers r.sc
    let done := d.lift.safePend.filter met
    let m := scopeMask sc
    let d := liftMod (fun l => { l with safePend := l.safePend.filter fun r => !met r }) d
    let d := if sc.scope = 0 then stopAll d else stopObjects m d
    let d := svcSuspend m { d with svc := { d.svc with spoiled := true, release := none } }
    let t := tickBytes d
    forEach done (fun r d => match r.cmd with
      | some id => completeId id 0 0 t d
      | none => d) d

/-- A RELEASE frame the field die uses: it is held until the next APPLY. Objects whose PAIRED words are lost stay in their safe
state (R51). -/
def releaseFrame (d : Dev) : Dev :=
  match mergeNext (·.sc) d.lift.relPend with
  | none => d
  | some sc =>
    let m := scopeMask sc &&& (allObjects ^^^ lostMask d)
    let d := liftMod (fun l => { l with relField := l.relField ||| m ||| 2 ^ 80 }) d
    let d := forEach (maskPins m) (fun n d => pinMod n (fun p => { p with relPend := p.safe }) d) d
    forEach (maskVds m) (fun n d => vlvMod n (fun c => { c with relPend := c.safe }) d) d

/-- A RELEASE has been sent: its requests are repeated after the others (R112, R128). -/
def releaseSent (d : Dev) : Dev :=
  match mergeNext (·.sc) d.lift.relPend with
  | none => d
  | some sc => liftMod (fun l =>
    { l with
      relSent := true
      relPend := (l.relPend.filter fun r => !sc.covers r.sc) ++ l.relPend.filter fun r => sc.covers r.sc }) d

/-! ## Downlink frames (R103, R106, R107, R112) -/

/-- So many frame periods of the downlink pass. -/
def downCount (periods : Nat) (d : Dev) : Dev :=
  liftMod (fun l =>
    { l with
      downSeq := (l.downSeq + periods) % 4096
      sent := (l.sent + periods) % 2 ^ 32
      runDown := l.runDown + periods
      frames := l.frames + periods }) (depthNote d)

/-- What a frame that has been sent leaves at the control die, whether or not the field die uses it. A SAFE demand that no frame
has met is sent again in the next image cycle (log entry 128). -/
def downSent (k : LiftFrame) (d : Dev) : Dev :=
  match k with
  | .apply => liftMod (fun l => { l with applyLeft := l.applyLeft - 1 }) d
  | .safe => liftMod (fun l => { l with safeSent := true }) d
  | .release => releaseSent d
  | .rot n => if 36 ≤ n.val ∧ n.val < 52 then pairTaken d else if n.val = 63 then markSent d else d
  | _ => d

/-- A frame that a field die in lock discards (R124); the second lost copy of an APPLY is a miss (R117). -/
def downLost (k : LiftFrame) (d : Dev) : Dev :=
  let d := liftMod (fun l => { l with downDisc := (l.downDisc + 1) % 65536 }) d
  match k, d.lift.apply with
  | .apply, some c =>
    let d := liftMod (fun l => { l with applyLost := l.applyLost + 1 }) d
    if 2 ≤ d.lift.applyLost then applyMiss c d else d
  | _, _ => d

/-- The time of a valid downlink frame, from the edge of the last APPLY seen (R129). -/
def validNote (d : Dev) : Dev :=
  let o := (d.lift.fTick + 2 ^ 32 - d.lift.lastApply) % 2 ^ 32 * 8000 + fieldOfs d
  liftMod (fun l => { l with validOfs := o }) d

/-- A downlink frame of a kind, so many frame periods after the one before, reaches the field die with a CRC and TYPE that are
right or not and a SEQ; `f` is what the field die does where it uses it (R106, R107). -/
def downLine (k : LiftFrame) (periods : Nat) (good : Bool) (seq : Nat) (f : Dev → Dev) (d : Dev) : Dev :=
  let d := downCount periods d
  if !d.pwr.fieldPow then downSent k d
  else
    let was := d.lift.down.inLock
    let r := lockNext d.lift.down good seq periods
    let d := liftMod (fun l => { l with down := r.1 }) d
    downSent k (if r.2 then f (validNote d) else if was then downLost k d else if r.1.inLock then fieldRelock d else d)

/-- A downlink frame that arrives as it was sent, where it is the one the downlink sends (R112). -/
def downRow (k : LiftFrame) (periods : Nat) (f : Dev → Dev) (d : Dev) : Dev :=
  if downOn d && downIs k d then downLine k periods true ((d.lift.downSeq + periods) % 4096) f d else d

/-- A frame of the downlink rotation. The word of a PAIR slot is checked as it is sent (R46). -/
def downRot (slot : Fin 64) (periods : Nat) (d : Dev) : Dev :=
  downRow (.rot slot) periods (rotDown slot) (if 36 ≤ slot.val ∧ slot.val < 52 ∧ downOn d then pairFix 6 (pairNext d) d else d)

/-! ## The uplink rotation (R110) -/

/-- Counter slots: 16 counters a cycle, in ascending pin order (R110). -/
def counterSlot (j : Nat) (d : Dev) : Dev :=
  let ps := cntPins d
  forEach [2 * j, 2 * j + 1] (fun k d =>
    match ps[(d.lift.cntRound + k) % ps.length]? with
    | some n => countReceive n d
    | none => d) d

/-- A Patrol demand begins (R517): the stop of every object, and EV_HLT_DEMAND, on the port of Patrol's events (R590; log entry
155). -/
def demandBegin (cause : Fin 4) (d : Dev) : Dev :=
  if d.hlt.causes.get cause then d
  else
    let d := { d with hlt := { d.hlt with demand := true, causes := d.hlt.causes.set cause true } }
    raise 1 0xA014 (subPath 0xA) (le 1 cause ++ [0]) (askSafe { scope := 0, object := 0 } 1 none d)

/-- An ECHO slot: the field die's active pair against the primary pair where GEN matches (R48, R123, R517). A pair that differs is a
failed check of the word on the field die: it is sent again at its next turn, and reported once (log entry 132). -/
def echoSlot (d : Dev) : Dev :=
  let a := fieldPairAddrs.getD (d.lift.echoRound % fieldPairAddrs.length) 0
  match fieldPair d a with
  | none => d
  | some f =>
    let d := pairFix 6 a d
    let p := pairOf d a
    let bad := f.gen == p.gen && !p.lost && f.act != p.prim.headD (0, 0)
    let first := bad && !d.lift.echoBad.contains a
    let d := liftMod (fun l =>
      { l with
        echoErr := if bad then (l.echoErr + 1) % 2 ^ 32 else l.echoErr
        echoBad := if !bad then l.echoBad.filter (· != a) else if first then l.echoBad ++ [a] else l.echoBad }) d
    let d := when first (pairRepaired 6 a 3) (when bad (pairFirst a) d)
    if a = addrOf kHltEpoch 0 then
      let d := { d with hlt := { d.hlt with echoCycles := if bad then d.hlt.echoCycles + 1 else 0 } }
      if 8 ≤ d.hlt.echoCycles then demandBegin 2 d else d
    else d

/-- A measured value as a natural number. -/
def measNat (meas : List Int) (k : Nat) : Nat := (meas.getD k 0).toNat

/-- EV_SYS_LIFT_EYE when an eye falls below the warning: bit 0 of `eyeLow` is the uplink's, bit 1 the downlink's (R132). -/
def eyeCheck (d : Dev) : Dev :=
  let w := pget d kSysLiftEyeWarn 0
  let was := d.lift.eyeLow
  let up := d.lift.eyeUp < w
  let down := d.lift.eyeDown < w
  let d := liftMod (fun l => { l with eyeLow := b2n up + 2 * b2n down }) d
  when (up && !bitOf was 0 || down && !bitOf was 1) (raise 1 0x0015 (diePath 0 0)
    (le 1 d.lift.eyeUp ++ le 1 d.lift.eyeDown ++ le 1 d.lift.phaseUp ++ le 1 d.lift.phaseDown)) d

/-- FSQ's status (R110; log entry 133): the stop and the start-up hold, the words it has repaired, each reported, and those it
asks for, which take the next PAIR slots (R52, R123). -/
def fsqStatus (d : Dev) : Dev :=
  let rep := d.lift.fsqRep
  let req := d.lift.fsqReq
  let hold := d.pwr.hold
  let d := liftMod (fun l => { l with stopSeen := l.stopped, holdSeen := hold, fsqRep := [], fsqReq := [] }) d
  forEach req pairFirst (forEach rep (fun a d => pairRepaired 6 a 3 d) d)

/-- A field health slot: two temperatures in 0.01 °C, in slot 58 FSQ's status, and in slot 61 the eye widths of both receivers. -/
def healthSlot (j : Nat) (meas : List Int) (d : Dev) : Dev :=
  let t := d.time.tick
  let d := liftMod (fun l =>
    { l with temps := vModN (vModN l.temps (2 * j) fun _ => meas.getD 0 0) (2 * j + 1) fun _ => meas.getD 1 0,
             tempTick := t }) d
  if j = 0 then fsqStatus d
  else if j = 3 then eyeCheck (liftMod (fun l => { l with eyeDown := measNat meas 2, eyeUp := measNat meas 3 }) d)
  else d

/-- The supply slot: VFLD and VVG0-VVG3 in 10 mV. -/
def supplySlot (meas : List Int) (d : Dev) : Dev :=
  pwrMod (fun p => { p with vfld := 10 * measNat meas 0, vvg := Vector.ofFn fun g => measNat meas (1 + g.val) }) d

/-- The uplink MARK: the last apply, misses, fenced frames and discards (R110, R117, R119, R124), and the end of requests of RELEASE
that have been met (R128). The first MARK after a reset of the control die only shows it where the counts stand. -/
def markUp (d : Dev) : Dev :=
  let l := d.lift
  let missed := l.marked && l.miss != l.missSeen
  let fencedNew := l.marked && l.fenced != l.fencedSeen
  let misses := if l.marked then (l.miss + 256 - l.missSeen) % 256 else 0
  let fences := if l.marked then (l.fenced + 256 - l.fencedSeen) % 256 else 0
  let n := if l.marked then (l.downDisc + 65536 - l.downDiscRep) % 65536 else 0
  let d := liftMod (fun l =>
    { l with
      marked := true
      appliedRep := l.lastApply
      missRep := (l.missRep + misses) % 2 ^ 32
      fencedRep := (l.fencedRep + fences) % 2 ^ 32
      missSeen := l.miss
      fencedSeen := l.fenced
      secDown := l.secDown + n
      downDiscRep := l.downDisc }) d
  let d := when missed (fun d => ctlApplyMiss l.missTick l.missMask
    (raise 1 0x0013 (diePath 0 0) (le 8 l.missTick) d)) d
  let d := when fencedNew (raise 1 0x0016 (diePath 0 0)
    (le 1 l.fencedEpoch ++ le 1 (fpairV d kHltEpoch 0) ++ le 2 fences)) d
  let met := fun (r : RelReq) => r.cmd.isNone && released d (scopeMask r.sc)
  liftMod (fun l => { l with relPend := l.relPend.filter fun r => !met r }) d

/-- Slots that the field mirror reports: input images, result words, valve status, and FSQ's status (R69). -/
def mirrored (n : Nat) : Bool := n < 8 || (16 ≤ n && n < 32) || (34 ≤ n && n < 42) || n == 58

/-- A slot has been received: its content is fresh (R126), and the mirror's newest where the mirror reports it (R70). -/
def slotSeen (n : Fin 64) (d : Dev) : Dev :=
  let t := d.time.tick
  liftMod (fun l =>
    { l with
      staleSlots := if bitOf l.staleSlots n then l.staleSlots - 2 ^ n.val else l.staleSlots
      newest := if mirrored n then t else l.newest }) d

/-- An uplink rotation slot the control die uses: `meas` brings what the field die measures for it. -/
def rotUp (n : Fin 64) (meas : List Int) (d : Dev) : Dev :=
  let d := slotSeen n d
  if h : n.val < 8 then fioReceive ⟨n.val, h⟩ (measNat meas 0) d
  else if n.val < 16 then counterSlot (n.val - 8) d
  else if h : n.val < 32 then
    afeReceive ⟨2 * (n.val - 16) + 1, by omega⟩ (afeReceive ⟨2 * (n.val - 16), by omega⟩ d)
  else if h : n.val < 34 then
    dlxReceive ⟨2 * (n.val - 32) + 1, by omega⟩ (dlxReceive ⟨2 * (n.val - 32), by omega⟩ d)
  else if h : n.val < 42 then
    vlvReceive ⟨2 * (n.val - 34) + 1, by omega⟩ (measNat meas 1) (vlvReceive ⟨2 * (n.val - 34), by omega⟩ (measNat meas 0) d)
  else if n.val < 58 then echoSlot d
  else if n.val < 62 then healthSlot (n.val - 58) meas d
  else if n.val = 62 then supplySlot meas d
  else markUp d

/-! ## Mask frames (R120, R121) -/

/-- A function under a stated uncertainty widened by so many ns (R37, R121). -/
def withUnc (ns : Nat) (f : Dev → Dev) (d : Dev) : Dev :=
  let u := d.gns.unc
  let d := f { d with gns := { d.gns with unc := u.map (· + ns) } }
  { d with gns := { d.gns with unc := u } }

/-- By how much the uncertainty of a frame's events is widened: the time from its stamp to the start of its transmission (R121), and
the silence where it was held through one (R37). -/
def frameWiden (d : Dev) (f : MaskFrame) : Nat :=
  ((d.time.tick - f.tick) * 8000 + fieldOfs d - f.ofs) * 125 + if f.late then d.lift.silentFr * 800 else 0

/-- The events of the shedding frame (R506): EV_PWR_STEP for each step, EV_PWR_SHED for each class. -/
def shedEvents (m dt : Nat) (d : Dev) : Dev :=
  let mv := le 4 (10 * fld m 16 16)
  let ev := fun (code k what : Nat) (d : Dev) =>
    raiseAt 0 code (diePath 9 1) dt (timeWord d) (le 1 k ++ le 1 what ++ [0, 0] ++ mv) d
  let d := forEach ((List.range 5).filter fun k => bitOf m k) (fun k d => ev 0x9001 (k + 1) 0 d) d
  let d := forEach ([3, 2, 1].filter fun c => bitOf m (36 + c)) (fun c d => ev 0x9002 c 0 d) d
  let d := forEach ([4, 3, 2, 1, 0].filter fun k => bitOf m (8 + k)) (fun k d => ev 0x9001 (k + 1) 1 d) d
  forEach ([1, 2, 3].filter fun c => bitOf m (40 + c)) (fun c d => ev 0x9002 c 1 d) d

/-- Each set MASK bit of an urgent frame becomes an event on port 0 (R120). -/
def urgEvents (code : Fin 5) (f : MaskFrame) (d : Dev) : Dev :=
  let dt := stampDt d f
  if code = 4 then shedEvents f.mask dt d
  else if code = 3 then
    let d := forEach ((List.finRange 32).filter fun (n : Fin 32) => bitOf f.mask n) (fun n d => afeBrokenUrgent n dt d) d
    forEach ((List.finRange 4).filter fun (n : Fin 4) => bitOf f.mask (32 + n)) (fun n d => dlxFaultUrgent n dt d) d
  else
    let d := forEach (maskPins f.mask) (fun n d => pinUrgent code n dt d) d
    forEach (maskVds f.mask) (fun n d => vlvUrgent code n dt d) d

/-- Each set MASK bit of an ordinary frame becomes an event on port 7 (R120). -/
def evtEvents (code : Fin 8) (f : MaskFrame) (d : Dev) : Dev :=
  let dt := stampDt d f
  if code = 7 then
    forEach ((List.finRange 16).filter fun (n : Fin 16) => bitOf f.mask n)
      (fun n d => vlvDiagEvent n (fld f.mask (16 + 4 * n.val) 4) dt d) d
  else
    let d := forEach (maskPins f.mask) (fun n d => pinOrdinary code n dt d) d
    forEach (maskVds f.mask) (fun n d => vlvOrdinary code n dt d) d

/-- The valve diagnostics held for the next frame open it (R121). -/
def diagOpen (d : Dev) : Dev :=
  let held := d.lift.diagNext
  forEach held (fun p d => diag p.1 p.2 d) (liftMod (fun l => { l with diagNext := [] }) d)

/-- The transmission of a mask frame starts: the frame is closed (R121). -/
def frameClose (k : LiftFrame) (d : Dev) : Dev :=
  match k with
  | .urg code => liftMod (fun l => { l with urg := l.urg.set code none }) d
  | .evt code =>
    let d := liftMod (fun l => { l with evt := l.evt.set code none }) d
    if code = 7 then diagOpen d else d
  | _ => d

/-- The events of a mask frame that the control die uses. -/
def urgFrame (code : Fin 5) (f : MaskFrame) (d : Dev) : Dev := withUnc (frameWiden d f) (urgEvents code f) d
def evtFrame (code : Fin 8) (f : MaskFrame) (d : Dev) : Dev := withUnc (frameWiden d f) (evtEvents code f) d

/-! ## Uplink frames (R106, R107, R111, R125) -/

/-- So many frame periods of the uplink pass. -/
def upCount (periods : Nat) (d : Dev) : Dev :=
  liftMod (fun l =>
    { l with
      upSeq := (l.upSeq + periods) % 4096
      runUp := l.runUp + periods
      silentFr := if l.silent then l.silentFr + periods else l.silentFr }) (depthNote d)

/-- The MARK of the uplink has been sent, received or not: an image cycle ends (R113), the counters of the next come (R110), the
sampling phase moves (R132), and the field mirror is refreshed (R70). -/
def cycleUp (d : Dev) : Dev :=
  fieldRefresh (liftMod (fun l =>
    { l with
      cycUp := l.runUp
      cycUpMax := max l.cycUpMax l.runUp
      runUp := 0
      phaseUp := phaseStep l.phaseUp l.goalUp
      cntRound := l.cntRound + 16 }) d)

/-- What a frame that has been sent leaves at the field die, whether or not the control die uses it. -/
def upSent (k : LiftFrame) (d : Dev) : Dev :=
  match k with
  | .report => liftMod (fun l => { l with reportLeft := l.reportLeft - 1 }) d
  | .rot n =>
    if 42 ≤ n.val ∧ n.val < 58 then liftMod (fun l => { l with echoRound := l.echoRound + 1 }) d
    else if n.val = 63 then cycleUp d
    else d
  | _ => d

/-- A valid uplink frame (R129, R136). -/
def upValid (d : Dev) : Dev :=
  let t := d.time.tick
  restored (liftMod (fun l => { l with rcvd := (l.rcvd + 1) % 2 ^ 32, lastUpTick := t }) d)

/-- An uplink frame that a control die in lock discards (R124). -/
def upLost (d : Dev) : Dev := liftMod (fun l => { l with upDisc := (l.upDisc + 1) % 2 ^ 32, secUp := l.secUp + 1 }) d

/-- An uplink frame of a kind, so many frame periods after the one before, reaches the control die with a CRC and TYPE that are
right or not and a SEQ; `f` is what the control die does where it uses it. -/
def upLine (k : LiftFrame) (periods : Nat) (good : Bool) (seq : Nat) (f : Dev → Dev) (d : Dev) : Dev :=
  let d := frameClose k (upCount periods d)
  let was := d.lift.up.inLock
  let r := lockNext d.lift.up good seq periods
  let d := liftMod (fun l => { l with up := r.1 }) d
  upSent k (if r.2 then f (upValid d) else if was then upLost d else d)

/-- The uplink runs (R125). -/
def upOn (d : Dev) : Bool := fieldRuns d && downOn d

/-- An uplink frame that arrives as it was sent, where it is the one the uplink sends (R111). -/
def upRow (k : LiftFrame) (periods : Nat) (f : Dev → Dev) (d : Dev) : Dev :=
  if upOn d && upIs k periods d then upLine k periods true ((d.lift.upSeq + periods) % 4096) f d else d

/-- The urgent frame of a code. -/
def urgRow (code : Fin 5) (periods : Nat) (d : Dev) : Dev :=
  match d.lift.urg.get code with
  | none => d
  | some f => upRow (.urg code) periods (urgFrame code f) d

/-- The ordinary frame of a code. -/
def evtRow (code : Fin 8) (periods : Nat) (d : Dev) : Dev :=
  match d.lift.evt.get code with
  | none => d
  | some f => upRow (.evt code) periods (evtFrame code f) d

/-! ## Discards, lock and silence (R107, R124-R129) -/

/-- A frame that the receiver does not use: one in lock discards it, one out of lock may take it as a candidate (R106, R107). -/
def unused (st : LockSt) (up : Bool) (raw periods : Nat) : Bool := !(lockNext st (frameGood up raw) (frameSeq raw) periods).2

/-- A downlink frame that the field die does not use. -/
def downDiscard (raw periods : Nat) (k : LiftFrame) (d : Dev) : Dev :=
  if downOn d && d.pwr.fieldPow && downIs k d && unused d.lift.down false raw periods then
    downLine k periods (frameGood false raw) (frameSeq raw) id d
  else d

/-- An uplink frame that the control die does not use. -/
def upDiscard (raw periods : Nat) (k : LiftFrame) (d : Dev) : Dev :=
  if upOn d && upIs k periods d && unused d.lift.up true raw periods then
    upLine k periods (frameGood true raw) (frameSeq raw) id d
  else d

/-- 16 frame periods without a valid frame: the receiver loses lock (R107). The field die then runs on its RC oscillator and
the sweeps end (R25, R201). -/
def lockLoss (up : Bool) (d : Dev) : Dev :=
  if up then (if d.lift.up.inLock then liftMod (fun l => { l with up := .lost }) d else d)
  else if d.lift.down.inLock then dlxPause (liftMod (fun l => { l with down := .lost }) d)
  else d

/-- EV_HLT_FIELD_SHUTDOWN where the last field health slot of the past 100 ms showed a sensor within 5 K of its limit (R543). -/
def fieldShutdownSeen (d : Dev) : Dev :=
  let hot := d.lift.temps.toList.foldl max (d.lift.temps.toList.headD 0)
  if d.lift.tempTick + 100 < d.time.tick || hot < 16500 then d
  else
    let s := (d.lift.temps.toList.findIdx fun t => t == hot) + 6
    raise 6 0xA012 (diePath 0xA 1) (le 1 s ++ [0] ++ le 2 (toBits 16 hot)) d

/-- The control die sees no valid uplink frame for 8 µs (R126): its event, and every value of the field die is stale, each slot's
until it is received again (R168, R215, R241). -/
def liftSilence (d : Dev) : Dev :=
  if d.lift.silent || !downOn d then d
  else
    let t := d.lift.lastUpTick
    let d := raise 1 0x0010 (diePath 0 0) (le 8 t)
      (liftMod (fun l => { l with silent := true, silentFr := 10, staleSlots := 2 ^ 64 - 1 }) d)
    let d := forEach (List.finRange 32) afeMarkStale d
    let d := forEach (List.finRange 4) dlxMarkStale d
    fieldShutdownSeen (fioSilence d)

/-- The silence timeout that the field die uses, in ms (R127, R131): at least 5 while D7 sleeps. -/
def silenceMs (d : Dev) : Nat :=
  let t := fpairV d kSysLiftSilenceMs 0
  if d.lift.down = .keepalive then max t 5 else t

/-- The field die's silence timer stands at so many µs since the last valid frame: at the timeout, the Snowplough stop of every
object (R127), reported after relock with its offset from the edge of the last APPLY seen in RC periods of 125 ns (R129). -/
def snowplough (rcUs : Nat) (d : Dev) : Dev :=
  if !(d.lift.armed && d.pwr.fieldPow && !d.lift.down.inLock) || rcUs < 1000 * silenceMs d then d
  else
    stopAll (liftMod (fun l =>
      { l with
        armed := false
        stopUs := rcUs % 2 ^ 32
        stopOfs := (l.validOfs + rcUs * 8) % 2 ^ 32
        reportLeft := 8
        reported := false }) d)

/-- An automatic RELEASE falls due 1 s after a stop by silence alone that lasted no longer than `SVC_AUTO_RELEASE_MS` (R392). -/
def autoDue (d : Dev) : Dev :=
  let us := d.lift.silentFr * 4 / 5
  let due := !d.svc.spoiled && us ≤ 1000 * pget d kSvcAutoReleaseMs 0
  { d with svc := { d.svc with release := if due then some (us / 1000) else none } }

/-- A SAFE_REPORT the control die uses: the first copy raises EV_SYS_SNOWPLOUGH, stamped with the stop (R129, R37), and ends every
request of RELEASE (R128). -/
def safeReport (d : Dev) : Dev :=
  if d.lift.reported then d
  else
    let l := d.lift
    let d := cancelReleases allObjects (liftMod (fun l => { l with reported := true, stopSeen := true }) d)
    let dt := toBits 64 ((edgeDt d l.lastApply + 125 * l.stopOfs : Nat) : Int)
    let u := timeCode d.gns.tq (d.gns.unc.map (· + 100 * l.stopUs))
    let d := raiseAt 1 0x0012 (diePath 0 1) dt u (le 4 l.stopUs ++ le 4 l.lastApply) d
    autoDue (svcSuspend allObjects d)

/-- The end of a second: discards beyond the warning are reported (R124). -/
def errorSecond (d : Dev) : Dev :=
  let w := pget d kSysLiftErrWarn 0
  let a := d.lift.secUp
  let b := d.lift.secDown
  let d := when (w < a || w < b) (raise 1 0x0014 (diePath 0 0) (le 2 (min a 65535) ++ le 2 (min b 65535))) d
  liftMod (fun l => { l with secUp := 0, secDown := 0 }) d

/-! ## Keepalive (R131) -/

/-- The Chalet sends the preamble and KEEPALIVE with the tick number and the domain states while D7 is in RETENTION; the field die
relocks on it. -/
def keepDown (d : Dev) : Dev :=
  if domState d 7 != 1 || !d.pwr.pll || !d.pwr.fieldPow then d
  else
    let t := d.time.tick
    let doms := d.pwr.dom
    validNote (liftMod (fun l =>
      { l with down := .keepalive, armed := true, fTick := t, fDom := doms, sent := (l.sent + 1) % 2 ^ 32 }) d)

/-- The field die's answer. -/
def keepUp (d : Dev) : Dev :=
  if domState d 7 != 1 || d.lift.down != .keepalive then d
  else
    let t := d.time.tick
    liftMod (fun l => { l with up := .keepalive, rcvd := (l.rcvd + 1) % 2 ^ 32, lastUpTick := t }) d

/-! ## RELEASE after a stop (R392) -/

/-- Nothing may be released now: step F4, or a Patrol demand. -/
def releaseBarred (d : Dev) : Bool := 4 ≤ d.pwr.fStep || d.hlt.demand

/-- 1 s after EV_SYS_LIFT_RESTORED, where the release is still due. -/
def autoRelease (d : Dev) : Dev :=
  match d.svc.release with
  | none => d
  | some _ =>
    let ok := d.lift.up.inLock && !releaseBarred d && !d.svc.spoiled && d.lift.stopped
    let d := { d with svc := { d.svc with release := none } }
    when ok (askRelease { scope := 0, object := 0 } none) d

/-- `SVC_RELEASE`. -/
def cmdSvcRelease (c : Cmd) (d : Dev) : Dev :=
  match targetScope c.target with
  | none => refuse c ⟨stRange, 0⟩ d
  | some sc =>
    if !d.lift.up.inLock || releaseBarred d then refuse c (refused 0x66) d
    else askRelease sc (some c.id) (waitOn c.id d)

def execSetClose (s : State) := quiet setClose s
def execLiftRotDownlink (slot : Fin 64) (periods : Nat) (s : State) := loud (downRot slot periods) s
/-- COPY names the first or the second frame of an APPLY (R116). -/
def execLiftApply (copy : Bool) (periods : Nat) (s : State) :=
  if s.dev.lift.applyLeft = (if copy then 1 else 2) then loud (downRow .apply periods (applyFrame copy)) s else quiet id s
def execLiftSafe (periods : Nat) (s : State) := quiet (downRow .safe periods safeFrame) s
def execLiftRelease (periods : Nat) (s : State) := quiet (downRow .release periods releaseFrame) s
def execLiftKeepaliveDownlink (s : State) := quiet keepDown s
def execLiftKeepaliveUplink (s : State) := quiet keepUp s
def execLiftRotUplink (slot : Fin 64) (periods : Nat) (meas : List Int) (s : State) :=
  loud (upRow (.rot slot) periods (rotUp slot meas)) s
def execLiftSafeReport (periods : Nat) (s : State) := quiet (upRow .report periods safeReport) s
def execLiftUrg (code : Fin 5) (periods : Nat) (s : State) := quiet (urgRow code periods) s
def execLiftEvt (code : Fin 8) (periods : Nat) (s : State) := quiet (evtRow code periods) s
def execLiftFrameDiscard (up : Bool) (raw : BitVec 128) (periods : Nat) (what : LiftFrame) (s : State) :=
  quiet (if up then upDiscard raw.toNat periods what else downDiscard raw.toNat periods what) s
def execLiftLockLoss (up : Bool) (s : State) := quiet (lockLoss up) s
def execLiftSilence (s : State) := quiet liftSilence s
def execSnowploughStop (rcUs : Nat) (s : State) := quiet (snowplough rcUs) s
def execLiftErrorSecond (s : State) := quiet errorSecond s
def execAutoRelease (s : State) := quiet autoRelease s
def execSvcRelease (c : CmdId) (s : State) := quiet (withCmd 0x1606 c cmdSvcRelease) s

end Sys2Proof.Machine
end

