-- ==== Sys2Proof/Machine/Tick.lean ====
section
/-!
DEFINITION. Machine/Tick.lean: the TICK edge (R24): the values that wait for it, the performance level (R488, R489) and the
APPLY that the control die sends (R112).
-/
namespace Sys2Proof.Machine

/-! ## Performance level (R488, R489) -/

/-- Core voltage of a level in mV; PL3 has the voltage Grooming set (R488, R534). -/
def levelMv (d : Dev) (l : Nat) : Nat :=
  match l with
  | 0 => 800
  | 1 => 900
  | 2 => 1000
  | _ => d.hlt.v3

/-- Why a level is in force, as EV_PWR_LEVEL names it: 0 the request, 1 the thermal cap, 2 step L2, 3 Grooming, 4 the loop
floor. -/
def levelCause (d : Dev) (l : Nat) : Nat :=
  let req := pget d kPwrPlReq 0
  if min req (levelCap d) = 0 && l = 1 then 4
  else if req ≤ l then 0
  else if d.hlt.capOn && d.hlt.capLevel == l then 1
  else if 2 ≤ d.pwr.lStep && l == 1 then 2
  else if !d.hlt.pl3 && l == 2 then 3
  else 0

/-- CORE changes to a level, its voltage set (R489). -/
def levelSet (l : Nat) (d : Dev) : Dev :=
  let old := d.pwr.level
  let mv := levelMv d l
  let cause := levelCause d l
  let d := pwrMod (fun p =>
    { p with
      level := l
      raiseTo := none
      raiseReady := false
      coreMv := mv
      pl3Mv := if l = 3 then mv else p.pl3Mv }) d
  raise 6 0x9003 (subPath 9) (le 1 l ++ le 1 old ++ le 1 cause) d

/-- The voltage of a higher level is set; CORE follows once the regulator has reported it (R489). -/
def levelRaise (l : Nat) (d : Dev) : Dev :=
  let mv := levelMv d l
  pwrMod (fun p => { p with raiseTo := some l, raiseReady := false, coreMv := mv }) d

/-- The level at a TICK edge (R23, R489): a lower level at once, a higher one when its voltage is there. -/
def levelTick (d : Dev) : Dev :=
  let w := levelWanted d
  if d.host.limp || !domOn d 1 then d
  else if w < d.pwr.level then levelSet w d
  else if w = d.pwr.level then
    if d.pwr.raiseTo.isSome then
      let mv := levelMv d w
      pwrMod (fun p => { p with raiseTo := none, raiseReady := false, coreMv := mv }) d
    else d
  else match d.pwr.raiseTo with
    | none => levelRaise w d
    | some l => if l < w then levelRaise w d else if d.pwr.raiseReady then levelSet w d else d

/-- The regulator reports the raised voltage (R489). -/
def regulatorReady (d : Dev) : Dev :=
  if d.pwr.raiseTo.isSome then pwrMod (fun p => { p with raiseReady := true }) d else d

/-! ## The edge -/

/-- Edges whose DT the device keeps for the stamps of field events. -/
def edgesKept : Nat := 8192

/-- A tick ends: the next is numbered and its DT recorded (R24, R439, R440). The field die counts it while it recovers FCLK; frames
are counted from the edge (R103); what READ parameters show and the epochs in force are noted (R93, R595). -/
def tickNext (d : Dev) : Dev :=
  let d := epochsUsed (readsNote d)
  let runs := fieldRuns d
  let d := liftMod (fun l => { l with frames := 0, fTick := if runs then l.fTick + 1 else l.fTick }) d
  let t := d.time.tick + 1
  let dt := d.time.nextDt
  { d with time := { d.time with
    tick := t
    dtFs := dt
    tickDt := dt
    nextDt := dt + 1000000000000 + d.time.steer
    edges := ((t, dt) :: d.time.edges).take edgesKept } }

/-- Waits whose own boundary cannot come and that a TICK edge ends instead: a channel that converts nothing (R187) and time
pulses that are off (R478); and a dither setting at the first edge in or after the period it waits for (R300, log entry 52). -/
def edgeWaits (d : Dev) (w : Wait) : Bool :=
  match w.bnd with
  | .tick => true
  | .dither vd => ditherBegins d vd
  | .pulse => pget d kGnsPulseHz 0 == 0
  | .convEnd ch => !(d.afe.ch.get ch).on
  | _ => false

/-- What happens at a TICK edge. -/
def tickEdge (d : Dev) : Dev :=
  if !d.time.running then d
  else
    let d := vlvDither (imgApplyTick (batchTick (tickNext d)))
    let d := atBoundary (edgeWaits d) d
    let d := dlxTick (gnsTick (ctlTick (fioLatchCounts d)))
    let d := if downOn d then applySend d else d
    healthCheck (levelTick (flashNext d))

def execTickEdge (s : State) := taking tickEdge s
def execRegulatorReady (s : State) := quiet regulatorReady s

end Sys2Proof.Machine
end

