-- ==== Sys2Proof/Machine/Power.lean ====
section
/-!
DEFINITION. Machine/Power.lean: the Sideslip ladders (R505-R509), domains, sleep, pad holds and wake (R486, R498-R504), limp
mode (R496, R497) and the brownouts (R485).
-/
namespace Sys2Proof.Machine

/-! ## The field ladder (R505-R508) -/

/-- The threshold in mV below which a field step begins; it ends 500 mV above (R506). -/
def fieldThreshold (k : Nat) : Nat := [19000, 17500, 16000, 14000, 12000].getD (k - 1) 0

/-- What the field die does as a step begins (R506). -/
def fieldStepActs (k : Nat) (d : Dev) : Dev :=
  match k with
  | 1 => dlxPause d
  | 2 => vlvF2Begin d
  | 3 =>
    let d := pwrMod (fun p => { p with f3Ended := false, relClass := PwrSt.reset.relClass }) d
    if vAt d.pwr.shed 3 false then d else shedClass 3 d
  | 4 => svcSuspend allObjects (stopAll { d with svc := { d.svc with spoiled := true, release := none } })
  | _ => d

/-- The next step of the field ladder begins. F5 sends its report first, where the Lift carries it, and then holds the field
die in reset (R506). -/
def fieldStepBegin (mv : Nat) (d : Dev) : Dev :=
  let k := d.pwr.fStep + 1
  if 5 < k || !d.pwr.fieldPow || fieldThreshold k ≤ mv then d
  else
    let d := pwrMod (fun p => { p with vfldField := mv, fStep := k }) d
    let d := shedReport (k - 1) (fieldStepActs k d)
    let d := if k = 5 then
        fieldOff .svcRelease (match (List.range 40).find? fun p => upIs (.urg 4) (p + 1) d with
          | some p => urgRow 4 (p + 1) d
          | none => d)
      else d
    healthCheck d

/-- What the field die does as a step ends (R506, R507). F4's end releases nothing (R508). -/
def fieldStepEnds (k : Nat) (d : Dev) : Dev :=
  match k with
  | 2 => vlvF2End d
  | 3 => pwrMod (fun p => { p with f3Ended := true, relClass := p.relClass.set 1 (p.shed.get 1) }) d
  | 4 => excUpdate d
  | 5 => pwrMod (fun p => { p with fieldPow := true }) d
  | _ => d

/-- The highest step of the field ladder ends. -/
def fieldStepEnd (mv : Nat) (d : Dev) : Dev :=
  let k := d.pwr.fStep
  if k = 0 || mv < fieldThreshold k + 500 then d
  else
    let d := pwrMod (fun p => { p with vfldField := mv, fStep := k - 1 }) d
    healthCheck (shedReport (8 + (k - 1)) (fieldStepEnds k d))

/-- A class falls due while F3 is in force (R507); class 0 is never shed. -/
def f3Shed (c : Fin 4) (d : Dev) : Dev :=
  if c = 0 || d.pwr.fStep < 3 || !d.pwr.fieldPow || d.pwr.shed.get c then d else healthCheck (shedClass c d)

/-- A class's release falls due after F3 has ended; it takes place at the next APPLY (R507). -/
def f3Release (c : Fin 4) (d : Dev) : Dev :=
  if d.pwr.f3Ended && d.pwr.fStep < 3 && d.pwr.shed.get c then
    pwrMod (fun p => { p with relClass := p.relClass.set c true }) d
  else d

/-! ## The logic ladder (R509) -/

/-- The threshold in mV below which a logic step begins; it ends 50 mV above. -/
def logicThreshold (k : Nat) : Nat := [3100, 3020, 2950, 2850, 2750].getD (k - 1) 0

/-- EV_PWR_STEP of the logic ladder. -/
def logicEvent (k what mv : Nat) (d : Dev) : Dev :=
  raise 6 0x9001 (diePath 9 0) (le 1 (0x10 + k) ++ le 1 what ++ [0, 0] ++ le 4 mv) d

/-- The flash operation whose record is open as step L3 begins may complete; an erase may not (R509). -/
def flashFreeze (d : Dev) : Dev :=
  let open_ := match d.hlt.flash.head? with
    | some f => f.kind != 2 && f.kind != 5
    | none => false
  { d with hlt := { d.hlt with flashOpen := open_ } }

/-- The next step of the logic ladder begins; L5 resets the control die. -/
def logicStepBegin (mv : Nat) (d : Dev) : Dev :=
  let k := d.pwr.lStep + 1
  if 5 < k || !d.pwr.powered || logicThreshold k ≤ mv then d
  else
    let d := logicEvent k 0 mv (pwrMod (fun p => { p with vlog := mv, lStep := k }) d)
    match k with
    | 1 => healthCheck (gnsHold d)
    | 3 => healthCheck (flashFreeze d)
    | 5 => controlReset 0x05 d
    | _ => healthCheck d

/-- The highest step of the logic ladder ends; L5 has no end. -/
def logicStepEnd (mv : Nat) (d : Dev) : Dev :=
  let k := d.pwr.lStep
  if k = 0 || 4 < k || mv < logicThreshold k + 50 then d
  else
    let d := logicEvent k 1 mv (pwrMod (fun p => { p with vlog := mv, lStep := k - 1 }) d)
    healthCheck (if k = 1 then gnsUnhold d else d)

/-- VFLD above 33.0 V, or back below 32.5 V (R483). -/
def vfldHigh (mv : Nat) (d : Dev) : Dev :=
  let ev := fun (what : Nat) (d : Dev) => raise 6 0x9009 (subPath 9) (le 1 what ++ [0, 0, 0] ++ le 4 mv) d
  if !d.pwr.vfldHigh && 33000 < mv then ev 0 (pwrMod (fun p => { p with vfldHigh := true }) d)
  else if d.pwr.vfldHigh && mv < 32500 then ev 1 (pwrMod (fun p => { p with vfldHigh := false }) d)
  else d

/-! ## Domains (R486, R487) -/

/-- A range of domains is all in RETENTION or OFF. -/
def asleep (p : PwrSt) (lo hi : Nat) : Bool := (List.range 11).all fun n => n < lo || hi < n || vAt p.dom n 2 != 0

/-- Regulator mode and PLL follow the domains (R484, R487). -/
def clocks (d : Dev) : Dev :=
  if d.host.limp then d
  else
    let lp := asleep d.pwr 1 6 && pget d kPwrLpAllow 0 == 1 && !d.pwr.lpBarred
    let mv := levelMv d d.pwr.level
    pwrMod (fun p =>
      { p with
        lowPower := lp
        pll := !asleep p 1 10 || vAt p.dom 7 2 == 1
        coreMv := if lp then 800 else if p.lowPower then mv else p.coreMv }) d

/-- EV_PWR_DOMAIN and the new state of a domain. -/
def domMove (n st cause : Nat) (d : Dev) : Dev :=
  let old := domState d n
  raise 6 0x9004 (subPath 9) (le 1 n ++ le 1 st ++ le 1 old ++ le 1 cause)
    (pwrMod (fun p => { p with dom := vModN p.dom n fun _ => st }) d)

/-- The pads at the edge of a domain that leaves ON are held, HIRQn at its level (R502). -/
def padsHold (n : Nat) (d : Dev) : Dev :=
  let h := hirq d
  pwrMod (fun p =>
    { p with
      pads := if [3, 6, 7, 8, 9, 10].contains n then vModN p.pads n fun _ => true else p.pads
      hirqHeld := if n = 6 && !vAt p.pads 6 false then h else p.hirqHeld }) d

/-- The queue registers at their reset values, every ring disabled (R486): slots are reserved no more, and tags whose
completion the host has not taken are free. -/
def queuesOff (d : Dev) : Dev :=
  { d with
    rings := Dev.reset.rings
    laidOut := false
    gate := { d.gate with loss := none }
    host := { d.host with badWords := [] }
    cmd := { d.cmd with
      live := d.cmd.live.filter fun c => c.commander != 0
      resv := CmdSt.reset.resv } }

/-- What a domain's state means for its blocks as it leaves ON (R486). -/
def domLeaves (n st : Nat) (d : Dev) : Dev :=
  match n with
  | 3 => if st = 2 then gnsOff d else toHoldover (chReleaseAll d)
  | 4 => if st = 2 then { d with bus := { d.bus with ch := d.bus.ch.map fun c => { BusCh.reset with down := c.down } } } else d
  | 6 =>
    let d := { d with host := { d.host with hrdy := false } }
    if st = 2 then queuesOff d else d
  | 7 =>
    let d := liftMod (fun l => { l with up := .lost }) d
    if st = 2 then fieldOff .padRelease d else dlxPause (liftMod (fun l => { l with down := .keepalive }) d)
  | 10 => dlxPause d
  | _ => d

/-- A domain enters RETENTION or OFF. -/
def domSleep (n st : Nat) (d : Dev) : Dev := clocks (domMove n st 0 (domLeaves n st (excUpdate (padsHold n d))))

/-- What a domain's return to ON means for its blocks (R502, R504): the bus pads are free with D4 and D7 ON, the host's pads with
D1 and D6, and the field die relocks, from OFF by its start-up. -/
def domReturns (n old : Nat) (d : Dev) : Dev :=
  let d := if n = 7 then
      let d := liftMod (fun l => { l with up := .lost, down := .lost }) d
      pwrMod (fun p => { p with
          fieldPow := p.fieldPow || ((old == 2 || old == 3) && p.fStep < 5 && !d.hlt.fieldLatch) }) d
    else d
  let d := when (domOn d 4 && domOn d 7) (pwrMod fun p => { p with pads := p.pads.set 7 false }) d
  if domOn d 1 && domOn d 6 then { d with host := { d.host with hrdy := true } } else d

/-- A domain is ON again, for a wake (1) or a rollback (2); a rollback releases its pads (R501). -/
def domWake (n cause : Nat) (d : Dev) : Dev :=
  let old := domState d n
  let d := domReturns n old (domMove n 0 cause d)
  let d := pwrMod (fun p => { p with domRetry := vModN p.domRetry n fun _ => 0 }) d
  clocks (if cause = 2 then excUpdate (pwrMod (fun p => { p with pads := vModN p.pads n fun _ => false }) d) else d)

/-! ## Sleep (R498-R501) -/

/-- The order in which domains are asked (R499). -/
def askOrder : List Nat := [10, 9, 8, 7, 4, 3, 2, 5, 6, 1]

/-- The target state of a domain in `SLEEP_REQ`: 1 RETENTION, 2 OFF. -/
def sleepTarget (target n : Nat) : Nat := if bitOf target n then 1 else 2

/-- The states `SLEEP_REQ` allows a domain (R486). -/
def targetAllowed (n st : Nat) : Bool :=
  match n with
  | 0 => false
  | 1 => st == 1
  | 5 => st == 2
  | 8 => st == 2
  | _ => true

/-- A mask and target that no device state allows, or that leave a domain behind another needs (R498). -/
def sleepRange (d : Dev) (mask target : Nat) : Bool :=
  2 ^ 11 ≤ mask || bitOf mask 0 || ((List.range 11).any fun n => bitOf mask n && !targetAllowed n (sleepTarget target n)) ||
    (bitOf mask 7 && !bitOf mask 4) || (bitOf mask 7 && [8, 9, 10].any fun n => !bitOf mask n && domOn d n) ||
    (bitOf mask 1 && !bitOf mask 6)

/-- Why a domain refuses (R499): 0 it agrees, 1 an object is in use, 2 an operation is in progress. HCS is high between
transactions, so D6 agrees. -/
def sleepAnswer (d : Dev) (id : CmdId) (n : Nat) : Nat :=
  match n with
  | 10 => if (List.finRange 4).any fun k => (d.dlx.ch.get k).mode != 0 || pget d kDlxEnable k != 0 then 1 else 0
  | 9 => if (List.range 32).any fun k => pget d kAfeEnable k != 0 then 1 else 0
  | 8 =>
    if ((List.range 80).any fun k => claimed d k) ||
        ((List.finRange 64).any fun k => isOutput (pinMode d k) && (d.fio.pin.get k).cmd != 0) then 1
    else if (List.finRange 16).any fun k => (vlvCh d k).phase != .idle && (vlvCh d k).phase != .off then 2
    else 0
  | 7 => if [8, 9, 10].any fun k => domOn d k then 1 else 0
  | 4 =>
    if (List.finRange 2).any fun ch => busMode d ch == 3 then 1
    else if (List.finRange 2).any fun ch => !(outstanding (busCh d ch)).isEmpty || !(busCh d ch).inner.isEmpty then 2
    else 0
  | 3 =>
    if pget d kGnsEnable 0 == 1 then 1 else if d.gns.snap.st == 1 || d.gns.snap.st == 3 then 2 else 0
  | 2 => if anyLoopRuns d then 1 else 0
  | 5 => if d.hlt.flash.isEmpty then 0 else 2
  | 1 =>
    if (d.cmd.live.any fun c => !(c.id = id && !c.dup)) || (d.cmd.remoteLane.toList.any fun l => !l.isEmpty) ||
        !d.cmd.batches.isEmpty then 2
    else if ((List.finRange 6).any fun i => dryRuns i (dryOf d i)) ||
        ((List.finRange 2).any fun i => (watOf d i).phase != 0) || (d.svc.cnv.toList.any (·.on)) ||
        (d.svc.brn.toList.any fun b => b.st != 0) || ((List.range 12).any fun b => pget d kSvcAerEnable b != 0) then 1
    else 0
  | _ => 0

/-- The domains of a mask asked one after another: the first that refuses, with its reason (R499). -/
def sleepAsk (id : CmdId) (mask target : Nat) : List Nat → Dev → Option (Nat × Nat) × Dev
  | [], d => (none, d)
  | n :: rest, d =>
    let st := sleepTarget target n
    if !bitOf mask n || domState d n == st then sleepAsk id mask target rest d
    else
      let a := sleepAnswer d id n
      if a ≠ 0 then (some (n, a), d)
      else if n = 6 then sleepAsk id mask target rest (pwrMod (fun p => { p with enterD6 := some st }) d)
      else if n = 1 then sleepAsk id mask target rest (pwrMod (fun p => { p with enterD1 := some st }) d)
      else sleepAsk id mask target rest
        (pwrMod (fun p => { p with stopped := p.stopped ++ [(n, st)] }) (domSleep n st d))

/-- The domains a list names, as a mask. -/
def domMask (ns : List (Nat × Nat)) : Nat := packBits 11 fun n => ns.any fun x => x.1 == n

/-- A refused request: its domains return in reverse order, and it completes when the last of them has its bib (R501). Where
none had stopped there is no restart, and the bib of the result is a free value (log entry 4). -/
def sleepRollback (c : Cmd) (n why : Nat) (d : Dev) : Dev :=
  let back := d.pwr.stopped.reverse
  let m := domMask back
  let d := groomResume (pwrMod (fun p => { p with stopped := [], enterD6 := none, enterD1 := none }) d)
  let d := forEach back (fun x d => domWake x.1 2 d) d
  let said := raise 6 0x900A (subPath 9) (le 1 n ++ le 1 why ++ le 2 m)
  if back.isEmpty then
    let bib := Config.freeWord d.free
    said (complete c stRefused n (le 1 n ++ le 1 why ++ le 2 0 ++ le 4 bib.toNat) (takeFree d))
  else said (pwrMod (fun p => { p with sleepCmd := some c.id })
    (cmdMod c.id (fun x => { x with note := n + 16 * why + 256 * m }) (begin_ c.id d)))

/-- `SLEEP_REQ`. Grooming is abandoned (R533). -/
def cmdSleepReq (c : Cmd) (d : Dev) : Dev :=
  let mask := field c.payload 0 2
  let target := field c.payload 2 2
  let d := groomAbandon true d
  if sleepRange d mask target then refuse c ⟨stRange, 0⟩ (groomResume d)
  else
    let d := pwrMod (fun p =>
      { p with stopped := [], enterD6 := none, enterD1 := none, sleepSlot := false, sleepCmd := some c.id }) d
    match sleepAsk c.id mask target askOrder (begin_ c.id d) with
    | (some (n, why), d) => sleepRollback c n why d
    | (none, d) =>
      let m := domMask d.pwr.stopped + 64 * b2n d.pwr.enterD6.isSome + 2 * b2n d.pwr.enterD1.isSome
      completeId c.id 0 0 (le 2 m) d

/-- A domain that waits for the completion enters its state (R500). -/
def sleepLast (n : Nat) (st : Option Nat) (d : Dev) : Dev :=
  match st with
  | none => d
  | some st => pwrMod (fun p => { p with stopped := p.stopped ++ [(n, st)] }) (domSleep n st d)

/-- After the completion D6 enters its state, with HCS high, and D1 follows (R500). -/
def sleepEntry (d : Dev) : Dev :=
  if !d.pwr.sleepSlot then d
  else
    let a := d.pwr.enterD6
    let b := d.pwr.enterD1
    let d := pwrMod (fun p => { p with sleepSlot := false, enterD6 := none, enterD1 := none }) d
    sleepLast 1 b (sleepLast 6 a d)

/-! ## Pad holds (R502) -/

/-- `PAD_RELEASE`. One that names D8 takes effect at the next APPLY, and sends the RELEASE of the start-up hold where D7 was
OFF. -/
def cmdPadRelease (c : Cmd) (d : Dev) : Dev :=
  let m0 := field c.payload 0 2
  let m := if m0 = 0 then 2 ^ 11 - 1 else m0
  let d8 := bitOf m 8 && (m0 != 0 || vAt d.pwr.pads 8 false)
  if 2 ^ 11 ≤ m then refuse c ⟨stRange, 0⟩ d
  else if d8 && releaseBarred d then refuse c (refused 0x66) d
  else
    let d := excUpdate (pwrMod (fun p =>
      { p with pads := Vector.ofFn fun n => p.pads.get n && (!bitOf m n || n.val == 7 || n.val == 8) }) d)
    if d8 then
      let d := when (d.pwr.hold && d.pwr.holdEnd == .padRelease) (askRelease { scope := 0, object := 0 } none) d
      begin_ c.id d
    else complete c 0 0 [] d

/-- `PWR_READ`. -/
def cmdPwrRead (c : Cmd) (d : Dev) : Dev :=
  complete c 0 0 (le 4 (mirPwr d) ++ le 4 (mirShed d) ++ le 2 d.pwr.vlog ++ le 2 (d.pwr.vfld / 10) ++ tickBytes d) d

/-! ## Wake (R503, R504) -/

/-- The source of a wake is enabled (R503): the buses' only with D7 in RETENTION. -/
def wakeEnabled (d : Dev) (src : Fin 6) : Bool :=
  let en := pget d kPwrWakeSrc 0
  let ret := domState d 7 == 1
  match src.val with
  | 0 => bitOf en 0
  | 1 => bitOf en 1
  | 2 => bitOf en 2 && ret
  | 3 => bitOf en 3 && ret
  | 4 => bitOf (pget d kBusOptions 0) 1 && ret
  | _ => bitOf (pget d kBusOptions 1) 1 && ret

/-- The device wakes: every domain of the last `SLEEP_REQ` in the reverse order, but for those that `late` names, which have
not returned yet and are changing (R504, R497). -/
def wakeUp (src late : Nat) (d : Dev) : Dev :=
  let back := d.pwr.stopped.reverse
  let d := pwrMod (fun p => { p with stopped := [], lowPower := false, pll := true, wakeRetry := 0 }) d
  let d := forEach back (fun x d =>
    if bitOf late x.1 then pwrMod (fun p => { p with dom := vModN p.dom x.1 fun _ => 3 }) d else domWake x.1 1 d) d
  intSet (2 ^ 28) (raise 6 0x9005 (subPath 9) (le 1 src ++ [0] ++ le 2 (domMask back)) (groomResume d))

/-- A wake by one of the sources but brownout. -/
def wake (src : Fin 6) (late : BitVec 11) (d : Dev) : Dev :=
  if d.pwr.stopped.isEmpty || !wakeEnabled d src then d else wakeUp src late.toNat d

/-! ## Failures (R496, R497) -/

/-- The boot ROM's first step (R491, step 2): the boot count of a D0 that has powered up, and the host interface (R40). -/
def bootRom (d : Dev) : Dev :=
  let d := pwrMod (fun p => { p with bootCount := if p.fresh then (p.bootCount + 1) % 2 ^ 32 else p.bootCount, fresh := false }) d
  { d with host := { d.host with stage := max d.host.stage 0x10, hrdy := true }, cmd := cmdReset d.cmd }

/-- The device enters limp mode after so many failed attempts of a unit: 0 the regulator, 1 the oscillator, 2 the PLL, 3 a
domain (R496, R497). -/
def enterLimp (unit dom attempts : Nat) (linkRuns : Bool) (d : Dev) : Dev :=
  let d := if d.host.stage < 0x80 then bootRom d else d
  let d := forEach (List.finRange 64) (fun i d => when (ctlRuns (ctlInst d i)) (ctlStop i) d) d
  let d := pwrMod (fun p =>
    { p with
      pll := false
      xin := false
      level := 0
      coreMv := 800
      raiseTo := none
      raiseReady := false
      wakeRetry := 0
      dom := ((p.dom.set 1 0).set 5 0).set 6 0 }) d
  let d := { d with
    host := { d.host with limp := true, stage := 0xE0, wakeFail := d.host.wakeFail || !linkRuns, hrdy := linkRuns }
    time := { d.time with running := true }
    svc := { d.svc with running := false }
    lift := { d.lift with up := .lost } }
  raise 6 0x9006 (subPath 9) (le 1 unit ++ le 1 dom ++ le 1 attempts) (intSet (2 ^ 29) (gnsLimp d))

/-- The attempts of R496 may be running: the device starts, or its regulator and clocks return at a wake. -/
def attempting (d : Dev) : Bool :=
  d.pwr.powered && !d.host.limp && d.host.stage != 0xF0 && (d.host.stage != 0x80 || !d.pwr.stopped.isEmpty)

/-- An attempt fails and is retried; after the third retry the device enters limp mode (R496). -/
def wakeAttemptFail (unit : Fin 3) (linkRuns : Bool) (d : Dev) : Dev :=
  if !attempting d then d
  else if d.pwr.wakeRetry < 3 then pwrMod (fun p => { p with wakeRetry := p.wakeRetry + 1 }) d
  else enterLimp unit 0 4 linkRuns d

/-- A domain that is changing has not returned within 1 ms (R497): the retry brings it back, or fails too. After the third
retry it stays OFF; a D1 that does not return leads to limp mode. -/
def domainTimeout (n : Fin 11) (back : Bool) (d : Dev) : Dev :=
  if domState d n != 3 then d
  else
    let k := vAt d.pwr.domRetry n 0 + 1
    if back then domWake n 1 d
    else if k < 4 then pwrMod (fun p => { p with domRetry := p.domRetry.set n k }) d
    else
      let d := pwrMod (fun p => { p with domRetry := p.domRetry.set n 0 }) d
      if n = 1 then enterLimp 3 1 4 true d
      else
        raise 6 0x9006 (subPath 9) (le 1 3 ++ le 1 n ++ le 1 4)
          (pwrMod (fun p => { p with dom := p.dom.set n 2, domDead := p.domDead.set n true }) (domLeaves n 2 d))

/-- The core rail sags in low-power mode (R485): the regulator goes to full mode and the device wakes. -/
def brownoutLow (asleepMs : Nat) (late : BitVec 11) (d : Dev) : Dev :=
  if !d.pwr.lowPower then d
  else
    let d := setParam (addrOf kPwrLpAllow 0) [0] (pwrMod (fun p => { p with lowPower := false, lpBarred := true }) d)
    wakeUp 6 late.toNat (raise 6 0x9007 (subPath 9) (le 4 0 ++ le 4 asleepMs) d)

/-- The core rail sags in full mode (R485): the control die resets. -/
def brownoutFull (d : Dev) : Dev := if d.pwr.lowPower || !d.pwr.powered then d else controlReset 0x03 d

/-! ## Meanings of the rows -/

/-- The snapshot buffer's bytes after the device changes to `d`: it returns to EMPTY as D3 goes OFF (R474). -/
def snapAfter (s : State) (d : Dev) : Mem := if domState s.dev 3 != 2 && domState d 3 == 2 then [] else s.snap

def execFieldStepBegin (mv : Nat) (s : State) := quiet (fieldStepBegin mv) s
def execFieldStepEnd (mv : Nat) (s : State) := quiet (fieldStepEnd mv) s
def execF3ClassShed (c : Fin 4) (s : State) := quiet (f3Shed c) s
def execF3ClassRelease (c : Fin 4) (s : State) := quiet (f3Release c) s
def execLogicStepBegin (mv : Nat) (s : State) :=
  if s.dev.pwr.lStep = 4 && s.dev.pwr.powered && mv < logicThreshold 5 then losingSnap (logicStepBegin mv) s
  else quiet (logicStepBegin mv) s
def execLogicStepEnd (mv : Nat) (s : State) := taking (logicStepEnd mv) s
def execVfldHigh (mv : Nat) (s : State) := quiet (vfldHigh mv) s
def execSleepReq (c : CmdId) (s : State) : Host.Outcome State Fault Refusal :=
  let d := withCmd 0x1901 c cmdSleepReq s.dev
  .next { s with snap := snapAfter s d, dev := d }
def execSleepEntry (s : State) := quiet sleepEntry s
def execPadRelease (c : CmdId) (s : State) := quiet (withCmd 0x1902 c cmdPadRelease) s
def execPwrRead (c : CmdId) (s : State) := quiet (withCmd 0x1903 c cmdPwrRead) s
def execWake (src : Fin 6) (late : BitVec 11) (s : State) := taking (wake src late) s
def execWakeAttemptFail (unit : Fin 3) (linkRuns : Bool) (s : State) := taking (wakeAttemptFail unit linkRuns) s
def execDomainReturnTimeout (n : Fin 11) (back : Bool) (s : State) :=
  taking (domainTimeout n back) { s with snap := snapAfter s (domainTimeout n back s.dev) }
def execCoreBrownoutLowPower (asleepMs : Nat) (late : BitVec 11) (s : State) := taking (brownoutLow asleepMs late) s
def execCoreBrownoutFull (s : State) :=
  if s.dev.pwr.lowPower || !s.dev.pwr.powered then quiet id s else losingSnap brownoutFull s

end Sys2Proof.Machine
end

