-- ==== Sys2Proof/Machine/Boot.lean ====
section
/-!
DEFINITION. Machine/Boot.lean: power-on, NRST and start-up (R490-R495): firmware bank, Lift, self-test, configuration and
autostart (R97, R98), and the flash replay (R546).
-/
namespace Sys2Proof.Machine

/-! ## Power and reset -/

/-- D0 leaves power-on reset and samples the boot pins (R490, R97); a latched control die stays off (R542). -/
def powerOn (pins : Fin 4) (d : Dev) : Dev :=
  if d.pwr.powered || d.hlt.ctlLatch then d
  else
    { d with
      pwr := { d.pwr with powered := true, bootPins := pins }
      host := { d.host with bootMode := pins, cause := 0x00 } }

/-- D0 enters power-on reset, which clears the control die's shut-down latch (R490, R541). -/
def powerOff (d : Dev) : Dev := chaletReset 0x00 false d

/-- NRST is released: both dies reset, and the boot pins are sampled (R490, R97). -/
def nrstRelease (pins : Fin 4) (d : Dev) : Dev := bothReset 0x01 (pwrMod (fun p => { p with bootPins := pins }) d)

/-! ## The field die's start (R491 steps 6 and 7, R493, R494) -/

/-- Both receivers are in lock. -/
def lockBoth (d : Dev) : Dev :=
  let d := pwrMod (fun p => { p with fieldPow := true }) d
  let d := if d.lift.down.inLock then d else fieldRelock (liftMod (fun l => { l with down := .locked l.downSeq }) d)
  if d.lift.up.inLock then d else liftMod (fun l => { l with up := .locked l.upSeq }) d

/-- PATH of an object of the self-test at its own level (R96): a pin, valve channel, modulator or excitation source is a channel,
HSn the bank of its pair, and the paired-word store is the field die's. -/
def selfTestPath (kind index : Nat) : Nat :=
  match kind with
  | 1 => chanPath 9 (index / 2) index
  | 3 => bankPath 9 index
  | 5 => diePath 9 1
  | _ => chanPath 9 (index / 8) index

/-- EV_PWR_SELFTEST of an object that fails; the spec gives no test numbers: a free value (log entry 4). -/
def selfTestEvent (kind index : Nat) (d : Dev) : Dev :=
  let n := (Config.freeWord d.free).toNat
  raise 6 0x9008 (selfTestPath kind index) (le 1 kind ++ le 1 index ++ le 1 n) (takeFree d)

/-- The self-test's findings (R494): an object that fails stays OFF; a high-side switch takes its pair's channels with it,
and a failed modulator has its group spare. A channel whose calibration record fails its check converts with nominal
calibration until the next boot, and EV_AFE_UNCAL says so (R170). -/
def selfTest (t : FieldTest) (d : Dev) : Dev :=
  let hs := packBits 16 fun n => bitOf t.highs.toNat (n / 2)
  let d := pwrMod (fun p =>
    { p with
      pinFail := t.pins.toNat
      vdFail := t.valves.toNat ||| hs
      modFail := t.mods.toNat
      excFail := t.excs.toNat }) d
  let each := fun (kind n mask : Nat) (d : Dev) => forEach (bitsOf n mask) (selfTestEvent kind) d
  let d := each 4 32 t.excs.toNat (each 3 8 t.highs.toNat (each 2 32 t.mods.toNat (each 1 16 t.valves.toNat
    (each 0 64 t.pins.toNat d))))
  let d := when t.pairStore (selfTestEvent 5 0) d
  let d := { d with afe := { d.afe with ch := Vector.ofFn fun n => { d.afe.ch.get n with uncal := bitOf t.uncal.toNat n } } }
  let d := forEach (bitsOf 32 t.uncal.toNat) (fun n => raise 6 0x2009 (chanPath 2 (n / 8) n) (le 1 n)) d
  forEach ((List.finRange 32).filter fun (n : Fin 32) => bitOf t.mods.toNat n) modulatorFault d

/-- Autostart (R97, R98): EV_SYS_AUTOSTART, then as `RUN`; the services resume (R394). -/
def autostart (slot : Nat) (d : Dev) : Dev :=
  let d := pwrMod (fun p => { p with autoWait := none }) d
  let d := raise 6 0x0001 (subPath 0) (le 1 slot ++ [0, 0, 0] ++ le 4 (generation d slot)) d
  svcBoot true (startBlocks d)

/-- The field die has passed step 7; an autostart that waited for it proceeds (R493). -/
def fieldPassed (d : Dev) : Dev :=
  let d := pwrMod (fun p => { p with fieldUp := true }) d
  match d.pwr.autoWait with
  | some slot => autostart slot d
  | none => d

/-- The field die locks the Lift and tests itself. One that has run on through a reset of the control die alone only locks. -/
def fieldStart (t : FieldTest) (d : Dev) : Dev :=
  let was := d.pwr.fieldUp
  let d := lockBoth d
  if was then d else fieldPassed (selfTest t d)

/-! ## Configuration (R98, R546) -/

/-- Results of the replay of data flash, and a SHUTDOWN word newer than the last boot (R546, R547). -/
def flashReplay (d : Dev) : Dev :=
  let d := raise 6 0xA013 (subPath 0xA) (le 1 d.hlt.replay.1 ++ le 1 d.hlt.replay.2 ++ le 1 0)
    { d with hlt := { d.hlt with replay := (0, 0) } }
  match d.hlt.shutdownWord with
  | none => d
  | some w => demandBegin 3 (raise 6 0xA011 (diePath 0xA 0) w { d with hlt := { d.hlt with shutdownWord := none } })

/-- The valid slot with the higher generation (R98). -/
def bootSlot (d : Dev) : Option Nat :=
  match (imageRecords d 0).isSome, (imageRecords d 1).isSome with
  | true, true => some (if generation d 0 < generation d 1 then 1 else 0)
  | true, false => some 0
  | false, true => some 1
  | false, false => none

/-- What ran under the old configuration has ended: channels that the new one does not enable are off. -/
def enablesOff (d : Dev) : Dev :=
  let d := forEach (List.range 32) (fun n d => afeHook (addrOf kAfeEnable n) d) d
  forEach (List.range 4) (fun n d => dlxHook (addrOf kDlxEnable n) d) d

/-- The logic steps that VLOG puts in force at a start: those whose end thresholds it has not reached (R509). -/
def logicFresh (mv : Nat) : Nat := ((List.range 4).takeWhile fun k => mv < logicThreshold (k + 1) + 50).length

/-- Step 8 (R491): the replay, the persistent words (R51), the configuration, STAGE 0x80, and autostart
where the boot mode and the image ask for it. -/
def bootFinish (d : Dev) : Dev :=
  let d := pairsUse (pairsHeld d persists) (flashReplay d)
  let slot := bootSlot d
  let d := match slot with
    | some n => applyImage true n d
    | none => raise 6 0x0002 (subPath 0) (le 1 d.host.bootMode) { d with host := { d.host with imgErr := true } }
  let d := intSet (2 ^ 27) { d with host := { d.host with stage := 0x80 } }
  let d := pwrMod (fun p => { p with started := true }) { d with hlt := { d.hlt with groomBoot := true } }
  let d := svcBoot false d
  let auto := d.host.bootMode == 1 || d.host.bootMode == 2
  let d := match slot with
    | some n =>
      if !(auto && imageAutostart d n) then d
      else if d.pwr.fieldUp then autostart n d
      else pwrMod (fun p => { p with autoWait := some n }) d
    | none => d
  healthRefresh d

/-! ## Start-up (R491, R492) -/

/-- Domains that run while the maintenance loader does (R97): the cores, the flash and the host interface. -/
def loaderStart (d : Dev) : Dev :=
  let d := pwrMod (fun p => { p with dom := ((p.dom.set 1 0).set 5 0).set 6 0 }) d
  { d with host := { d.host with stage := 0xF0, loaderNext := false } }

/-- The firmware bank that runs, and the one that failed where the boot ROM had to take the other (R492). -/
def bankChoice (d : Dev) (sigA sigB : Bool) : Option (Bool × Option Bool) :=
  let want := d.cmd.fw.nextBank
  let ok := fun (b : Bool) => if b then sigB else sigA
  if ok want then some (want, none) else if ok (!want) then some (!want, some want) else none

/-- Steps 2 to 5: the boot ROM, the clocks, and the firmware. -/
def firmwareStart (bank : Bool) (failed : Option Bool) (keyOk : Bool) (vlogMv : Nat) (d : Dev) : Dev :=
  let d := pwrMod (fun p =>
    { p with
      xin := true
      pll := true
      wakeRetry := 0
      vlog := vlogMv
      lStep := logicFresh vlogMv
      dom := Vector.replicate 11 0 }) d
  let d := { d with
    time := { d.time with running := true }
    host := { d.host with fwBank := bank, stage := 0x30 } }
  let d := if 1 ≤ d.pwr.lStep then gnsHold d else d
  let l := levelWanted d
  let mv := levelMv d l
  let d := pwrMod (fun p => { p with level := l, coreMv := mv }) (enablesOff d)
  let d := match failed with
    | some b => raise 6 0x0003 (subPath 0) (le 1 (b2n bank) ++ le 1 (b2n b)) d
    | none => d
  idnBoot keyOk d

/-- Start-up from reset (R491). `sigA` and `sigB` say whether the banks' signatures hold, `keyOk` whether the key test
passes, `vlogMv` is VLOG, and `test` what the field die's self-test finds; without it no Lift has locked yet. -/
def startUp (keyOk sigA sigB : Bool) (vlogMv : Nat) (test : Option FieldTest) (d : Dev) : Dev :=
  if !d.pwr.powered || d.host.limp || d.host.stage != 0 then d
  else
    let d := bootRom d
    if d.host.bootMode = 3 || d.host.loaderNext then loaderStart d
    else match bankChoice d sigA sigB with
      | none => loaderStart d
      | some (bank, failed) =>
        let d := firmwareStart bank failed keyOk vlogMv d
        match test with
        | some t => if d.hlt.fieldLatch then d else bootFinish (fieldStart t d)
        | none => d

/-- No locked Lift 100 ms after step 6 began: start-up goes on with the field die down (R493). -/
def liftTimeout (d : Dev) : Dev := if d.host.stage = 0x30 && !d.lift.up.inLock then bootFinish d else d

/-- VFLD comes up: the field die runs steps 6 and 7 (R493, R508). -/
def fieldDieStartUp (t : FieldTest) (d : Dev) : Dev :=
  if d.pwr.fieldUp || d.hlt.fieldLatch || d.pwr.fStep = 5 || !downOn d then d
  else
    let d := fieldStart t d
    if d.host.stage = 0x30 then bootFinish d else d

/-- The field-die watchdog resets the field die (R530, R495). -/
def fieldWatchdog (d : Dev) : Dev := if d.pwr.fieldPow then fieldReset .svcRelease d else d

/-! ## Meanings of the rows -/

def execPowerOn (pins : Fin 4) (s : State) := quiet (powerOn pins) s
def execPowerOnReset (s : State) := losing powerOff s
def execNrstRelease (pins : Fin 4) (s : State) := if s.dev.pwr.powered then losingSnap (nrstRelease pins) s else quiet id s
def execStartUp (keyOk sigA sigB : Bool) (vlogMv : Nat) (test : Option FieldTest) (s : State) :=
  taking (startUp keyOk sigA sigB vlogMv test) s
def execLiftStartTimeout (s : State) := taking liftTimeout s
def execFieldDieStartUp (t : FieldTest) (s : State) := taking (fieldDieStartUp t) s
def execFieldWatchdogReset (s : State) := quiet fieldWatchdog s
def execChaletContentLoss (s : State) := if s.dev.pwr.powered then losing (chaletReset 0x03 true) s else quiet id s

end Sys2Proof.Machine
end

