-- ==== Sys2Proof/Machine/Health.lean ====
section
/-!
DEFINITION. Machine/Health.lean: Patrol's housekeeping round (R515), references, sensors and throttling (R519, R537-R540), the
PAIRED scan (R47-R51), supervisors, quarantine and ECC (R516-R527, R531), the shut-downs (R541-R543) and flash operations
(R544).
-/
namespace Sys2Proof.Machine

/-- Changes the state of chapter 13. -/
def hltMod (f : HltSt → HltSt) (d : Dev) : Dev := { d with hlt := f d.hlt }

/-! ## PAIRED words (R47, R518) -/

/-- A copy of a PAIRED parameter spoiled by an uncorrectable error: its first pair fails its check (R518). -/
def pairSpoil (addr : Nat) (shadow : Bool) (d : Dev) : Dev :=
  match findDef addr with
  | none => d
  | some q =>
    if q.cls != .paired then d
    else
      let p := pairOf d addr
      let bad : List (Word × Word) → List (Word × Word)
        | (v, _) :: rest => (v, v) :: rest
        | [] => []
      if shadow then pairPut addr p.prim (bad p.shad) d else pairPut addr (bad p.prim) p.shad d

/-! ## References (R519) -/

/-- Median of three. -/
def median3I (a b c : Int) : Int := max (min a b) (min (max a b) c)

/-- The references of a round, judged. -/
def refsJudge (r : Vector Int 3) (d : Dev) : Dev :=
  let good := (List.finRange 3).filter fun k => !(d.hlt.refs.get k).failed
  if good.length = 3 then
    let m := median3I (r.get 0) (r.get 1) (r.get 2)
    forEach good (fun k d =>
      let dev := r.get k - m
      let n := if 3000 < dev.natAbs then (d.hlt.refs.get k).rounds + 1 else 0
      let d := hltMod (fun h => { h with refs := h.refs.set k { h.refs.get k with ppm := dev, rounds := n } }) d
      if n < 3 then d
      else
        let d := hltMod (fun h => { h with refs := h.refs.set k { h.refs.get k with failed := true } }) d
        let d := unitMod (49 + k) (fun u => { u with faults := satAdd u.faults 1 0xFFFF }) d
        raise 6 0xA00B (subPath 0xA) (le 1 k ++ [0, 0, 0] ++ le 4 (toBits 32 dev)) d) d
  else match good with
    | [a, b] =>
      let apart := 3000 < (r.get a - r.get b).natAbs
      if !apart || d.hlt.refsDisagree then d
      else
        doubleFault 5 (hltMod (fun h =>
          { h with
            refsDisagree := true
            refs := (h.refs.set a { h.refs.get a with suspect := true }).set b { h.refs.get b with suspect := true } }) d)
    | _ => d

/-- The value in use: the median of three, the mean of two, of two that disagree the one nearer its factory value, or the one that
is left. -/
def refValue (r : Vector Int 3) (d : Dev) : Int :=
  match (List.finRange 3).filter fun k => !(d.hlt.refs.get k).failed with
  | [_, _, _] => median3I (r.get 0) (r.get 1) (r.get 2)
  | [a, b] =>
    if !d.hlt.refsDisagree then (r.get a + r.get b) / 2
    else if (r.get b).natAbs < (r.get a).natAbs then r.get b else r.get a
  | a :: _ => r.get a
  | [] => d.hlt.refUsed

/-- The references of a round (R519). -/
def refsRound (r : Vector Int 3) (d : Dev) : Dev :=
  let d := refsJudge r d
  hltMod (fun h => { h with refUsed := refValue r d }) d

/-! ## Sensors (R537, R538) -/

/-- The die of a sensor: 0 control, 1 field; and the sensors of a die. -/
def sensorDie (s : Fin 14) : Nat := if s.val < 6 then 0 else 1
def dieSensors (die : Nat) : List (Fin 14) := (List.finRange 14).filter fun s => sensorDie s == die

/-- The hottest value of the working sensors of a die. -/
def hottest (d : Dev) (die : Nat) : Option Int :=
  let vs := ((dieSensors die).filter fun s => !(d.hlt.sensors.get s).failed).map fun s => (d.hlt.sensors.get s).value
  match vs with
  | [] => none
  | v :: rest => some (rest.foldl max v)

/-- A sensor's reading lies outside its range, or has stayed the same to the last bit while another of its die has moved by
2 K or more. `base` holds the die's readings at the moment this sensor last changed. -/
def sensorOdd (now base : List Int) (k : Nat) : Bool :=
  let r := now.getD k 0
  r < -5500 || 20000 < r ||
    (base.length == now.length && base.getD k 0 == r && (List.range now.length).any fun j =>
      200 ≤ (now.getD j 0 - base.getD j 0).natAbs)

/-- One sensor's reading in a round; after 3 odd rounds it has failed. -/
def sensorTake (now : List Int) (k : Nat) (s : Fin 14) (d : Dev) : Dev :=
  let x := d.hlt.sensors.get s
  let r := now.getD k 0
  let base := if x.history.getD k (r + 1) = r then x.history else now
  let n := if sensorOdd now base k then x.rounds + 1 else 0
  let x :=
    { x with
      value := if x.failed || 3 ≤ n then x.value else r
      rounds := n
      failed := x.failed || 3 ≤ n
      history := base }
  hltMod (fun h => { h with sensors := h.sensors.set s x }) d

/-- The substitute of a failed sensor: the hottest working sensor of its die plus 10 K; where none works the spec gives no
value: a free value (log entry 4). The first use raises EV_HLT_SENSOR_FAIL. -/
def sensorSubst (was : Bool) (s : Fin 14) (d : Dev) : Dev :=
  let x := d.hlt.sensors.get s
  if !x.failed then d
  else
    let (v, d) := match hottest d (sensorDie s) with
      | some v => (v + 1000, d)
      | none => ((Config.freeWord d.free).toInt, takeFree d)
    let d := hltMod (fun h => { h with sensors := h.sensors.set s { x with value := v } }) d
    if was then d
    else raise 6 0xA010 (diePath 0xA (sensorDie s)) (le 1 s ++ [0] ++ le 2 (toBits 16 v)) d

/-- Fewer than two sensors of a die work. -/
def dieBlind (d : Dev) (die : Nat) : Bool := ((dieSensors die).filter fun s => !(d.hlt.sensors.get s).failed).length < 2

/-- The sensors of a die in a round. -/
def sensorsRound (die : Nat) (now : List Int) (d : Dev) : Dev :=
  let ss := dieSensors die
  let was := ss.map fun s => (d.hlt.sensors.get s).failed
  let blind := dieBlind d die
  let d := forEach (ss.zipIdx) (fun (x : Fin 14 × Nat) d => sensorTake now x.2 x.1 d) d
  let d := forEach (ss.zip was) (fun (x : Fin 14 × Bool) d => sensorSubst x.2 x.1 d) d
  if dieBlind d die && !blind then doubleFault 6 d else d

/-! ## Throttling (R539, R540) -/

/-- A sensor's own margin, warning offsets applied, in 0.01 K. -/
def ownMargin (d : Dev) (s : Fin 14) : Int :=
  let x := d.hlt.sensors.get s
  (if s.val < 6 then 15000 else 17000) - (x.value - x.ofs)

/-- The throttle margin in 0.01 K. -/
def marginNow (d : Dev) : Int := ((List.finRange 14).map (ownMargin d)).foldl min (ownMargin d 0)

/-- The margin in 0.01 K at or below which step n begins. -/
def stepMargin (d : Dev) (n : Nat) : Int := 100 * ((pget d kHltThrMarginK 0 : Int) - 5 * ((n : Int) - 1))

/-- What begins or ends with a throttle step. -/
def throttleActs (old new : Nat) (d : Dev) : Dev :=
  let d := gnsCap (2 ≤ new) d
  let d := if old < 3 && 3 ≤ new then
      let floor := if anyLoopRuns d then 1 else 0
      hltMod (fun h => { h with capOn := true, capLevel := max floor (d.pwr.level - 1), capMargin := h.margin }) d
    else d
  if new < 4 then hltMod (fun h => { h with sensors := h.sensors.map fun x => { x with warn := false } }) d else d

/-- One step more or less, with its event. -/
def throttleTo (new : Nat) (d : Dev) : Dev :=
  let old := d.hlt.thrStep
  let d := throttleActs old new (hltMod (fun h => { h with thrStep := new }) d)
  raise 6 0xA00E (subPath 0xA) (le 1 new ++ le 1 old ++ le 2 (toBits 16 (d.hlt.margin / 10))) d

/-- Steps begin in ascending order. -/
def throttleUp : (n : Nat) → Dev → Dev
  | 0, d => d
  | n + 1, d =>
    let k := d.hlt.thrStep
    let blind := dieBlind d 0 || dieBlind d 1
    if k < 4 && (2 ≤ vAt d.hlt.thrBelow k 0 || (blind && k < 3)) then throttleUp n (throttleTo (k + 1) d) else d

/-- Steps end in descending order, none while a substitute is in use. -/
def throttleDown : (n : Nat) → Dev → Dev
  | 0, d => d
  | n + 1, d =>
    let k := d.hlt.thrStep
    if k != 0 && 125 ≤ vAt d.hlt.thrAbove (k - 1) 0 && !d.hlt.sensors.toList.any (·.failed) then
      throttleDown n (throttleTo (k - 1) d)
    else d

/-- EV_HLT_TEMP_WARN, once an episode for each sensor whose own margin is 15 K or less in step 4. -/
def tempWarn (d : Dev) : Dev :=
  if d.hlt.thrStep < 4 then d
  else forEach ((List.finRange 14).filter fun (s : Fin 14) => ownMargin d s ≤ 1500 && !(d.hlt.sensors.get s).warn) (fun s d =>
    let d := hltMod (fun h => { h with sensors := h.sensors.set s { h.sensors.get s with warn := true } }) d
    raise 6 0xA00F (diePath 0xA (sensorDie s)) (le 1 s ++ [0] ++ le 2 (toBits 16 (d.hlt.sensors.get s).value)) d) d

/-- The throttle in a round. -/
def throttleRound (d : Dev) : Dev :=
  let m := marginNow d
  let lo := fun (k : Nat) => decide (m ≤ stepMargin d (k + 1))
  let hi := fun (k : Nat) => decide (stepMargin d (k + 1) + 500 < m)
  let d := hltMod (fun h =>
    { h with
      margin := m
      thrBelow := Vector.ofFn fun k => if lo k.val then h.thrBelow.get k + 1 else 0
      thrAbove := Vector.ofFn fun k => if hi k.val then h.thrAbove.get k + 1 else 0 }) d
  tempWarn (throttleDown 4 (throttleUp 4 d))

/-- Every 2 s (R540): in step 3 the cap falls a level where the margin has not risen by 1 K; after it, the cap rises until it no
longer limits. -/
def capStep (d : Dev) : Dev :=
  if !d.hlt.capOn then d
  else if 3 ≤ d.hlt.thrStep then
    let floor := if anyLoopRuns d then 1 else 0
    if d.hlt.capMargin + 100 ≤ d.hlt.margin then hltMod (fun h => { h with capMargin := h.margin }) d
    else hltMod (fun h =>
      { h with capLevel := if floor < h.capLevel then h.capLevel - 1 else h.capLevel, capMargin := h.margin }) d
  else
    let free := min (pget d kPwrPlReq 0) (min (if 2 ≤ d.pwr.lStep then 1 else 3) (if d.hlt.pl3 then 3 else 2))
    hltMod (fun h => { h with capLevel := min 3 (h.capLevel + 1), capOn := h.capLevel + 1 < free }) d

/-! ## The housekeeping round (R515, R520) -/

/-- ROOT outside 960 MHz ± 2 % for so many rounds. -/
def clockRound (khz : Nat) (d : Dev) : Dev :=
  let bad := khz < 940800 || 979200 < khz
  hltMod (fun h => { h with clockRounds := if bad then h.clockRounds + 1 else 0, clockFault := bad && 1 ≤ h.clockRounds }) d

/-- Two rounds outside the limit: a clock fault, which Patrol answers with a demand and a reset of the control die (R520). -/
def clockFails (r : HouseRound) (d : Dev) : Bool :=
  d.pwr.pll && !d.hlt.patrolLost && 1 ≤ d.hlt.clockRounds && (r.rootKhz < 940800 || 979200 < r.rootKhz)

/-- The round of a device whose Patrol runs: the PAIRED scan and the clock check are Patrol's (R516). ECC counts what it corrects
(R518). -/
def houseRound (r : HouseRound) (d : Dev) : Dev :=
  if !d.pwr.powered then d
  else
    let d := atBoundary (fun w => w.bnd == .round) (pwrMod (fun p => { p with vlog := r.vlogMv }) d)
    let d := hltCount 5 r.flashFixed (hltCount 0 r.sramFixed d)
    let d := if d.hlt.patrolLost then d
      else
        let d := forEach (d.cmd.pairs.map (·.1)) (pairFix 1) d
        if d.pwr.pll then clockRound r.rootKhz d else d
    let d := refsRound r.refs d
    let d := sensorsRound 0 r.temps.toList d
    let d := sensorsRound 1 d.lift.temps.toList d
    healthRefresh (throttleRound d)

/-- The clock fault of R520: EV_HLT_CLOCK, a demand, and the reset. -/
def clockReset (r : HouseRound) (d : Dev) : Dev :=
  let d := demandBegin 1 (raise 1 0xA00A (subPath 0xA) (le 4 r.rootKhz) (clockRound r.rootKhz d))
  controlReset 0x04 d

/-! ## Supervisors (R523, R524, R531) -/

/-- EV_HLT_ROLLBACK: both cores restored the last checkpoint. -/
def rollback (us : Nat) (d : Dev) : Dev :=
  let t := d.time.tick
  let n := d.hlt.rollbacks + 1
  let d := hltMod (fun h => { h with rollback := some t, rollbacks := n }) d
  hltCount 3 1 (raise 1 0xA004 (subPath 0xA) (le 1 n ++ [0, 0, 0] ++ le 4 us) d)

/-- SA and SB run in lockstep. -/
def lockstep (d : Dev) : Bool := (unitOf d 0).st == 0 && (unitOf d 1).st == 0

/-- The active supervisor where the pair does not run in lockstep. -/
def supActive (d : Dev) : Nat := if d.hlt.scActive then 2 else if (unitOf d 0).st = 0 then 0 else 1

/-- The supervisor that stands by: SC for the pair or for the one of it that runs, or that one for SC (R524, R527). -/
def standby (d : Dev) : Option Nat :=
  if !d.hlt.scActive then (if (unitOf d 2).st = 1 then some 2 else none)
  else if (unitOf d 0).st = 1 && (unitOf d 1).st = 3 then some 0
  else if (unitOf d 1).st = 1 && (unitOf d 0).st = 3 then some 1
  else none

/-- A persistent supervisor fault with a unit standing by: it becomes the active supervisor (R524). -/
def supMove (new : Nat) (d : Dev) : Dev :=
  let t := d.time.tick
  let pair := lockstep d
  let d := crossover (if pair then 0 else supActive d) new 0 d
  let d := if pair then
      unitMod 1 (fun u =>
        { u with st := 2, role := 255, faults := satAdd u.faults 1 0xFFFF, replaced := some t,
                 again := match u.replaced with
                   | none => false
                   | some r => t - r ≤ ticks30d }) d
    else d
  hltMod (fun h => { h with scActive := new == 2, supSingle := true, rollback := none }) d

/-- A supervisor fault with no unit standing by: a double fault, a Patrol demand, and the reset of the control die (R531). -/
def supDouble (d : Dev) : Dev := controlReset 0x04 (demandBegin 0 (doubleFault 0 d))

/-- A supervisor fault that persists resets the control die; with Patrol lost nobody sees one (R516). -/
def supResets (d : Dev) : Bool := d.pwr.powered && !d.hlt.patrolLost && (standby d).isNone

/-- A persistent supervisor fault. -/
def supFault (d : Dev) : Dev :=
  if !d.pwr.powered || d.hlt.patrolLost then d
  else match standby d with
    | some new => supMove new d
    | none => supDouble d

/-- A mismatch persists (R524): the second within 100 ms, or an effect that differs from the replay log. -/
def mismatchPersists (differs : Bool) (d : Dev) : Bool :=
  differs || match d.hlt.rollback with
    | some t => d.time.tick ≤ t + 100
    | none => false

/-- A mismatch has a meaning: the pair runs, and Patrol compares it. -/
def mismatchSeen (d : Dev) : Bool := d.pwr.powered && lockstep d && !d.hlt.patrolLost

/-- A lockstep mismatch: rolled back, or persistent. -/
def mismatch (us : Nat) (differs : Bool) (d : Dev) : Dev :=
  if !mismatchSeen d then d
  else if mismatchPersists differs d then supFault d
  else rollback us d

/-! ## Patrol's own failure (R516) -/

/-- Ticks in an hour. -/
def ticksHour : Nat := 3600000

/-- Patrol's count has stalled for 3 rounds: it is restarted once, and given up at a second stall within 1 h. -/
def patrolStall (d : Dev) : Dev :=
  if d.hlt.patrolLost then d
  else
    let t := d.time.tick
    let lost := match d.hlt.patrolRestart with
      | some r => t - r ≤ ticksHour
      | none => false
    let d := raise 1 0xA009 (subPath 0xA) (le 1 (b2n lost)) d
    if lost then healthCheck (hltMod (fun h => { h with patrolLost := true }) d)
    else hltCount 7 1 (hltMod (fun h => { h with patrolRestart := some t }) d)

/-! ## Quarantine (R527) -/

/-- A unit is retired, which power loss does not undo. -/
def retire (u why : Nat) (d : Dev) : Dev :=
  raise 1 0xA007 (unitPath u) (le 1 u ++ le 1 why) (unitMod u (fun x => { x with st := 3, role := 255 }) d)

/-- SA and SB have both passed: they resume as the lockstep pair, SUP advances, and SC stands by. -/
def pairResumes (d : Dev) : Dev :=
  let us := (Config.freeWord d.free).toNat
  let d := takeFree d
  let back : UnitSt → UnitSt := fun u => { u with st := 0, role := 0 }
  let d := unitMod 0 back (unitMod 1 back (unitMod 2 (fun u => { u with st := 1, role := 255 }) d))
  let d := hltMod (fun h => { h with scActive := false, supSingle := false, subs := satAdd h.subs 1 0xFFFF }) (advanceEpoch 0 d)
  raise 1 0xA005 (unitPath 2) (le 1 2 ++ le 1 0 ++ le 1 0 ++ le 1 0 ++ le 4 (epochOf d 0) ++ le 4 us) (hltCount 4 1 d)

/-- What a unit's return as a spare means for its block. -/
def spareAgain (u : Nat) (d : Dev) : Dev :=
  if u < 3 then
    if (unitOf d 0).st = 1 && (unitOf d 1).st = 1 && d.hlt.scActive then pairResumes d else d
  else if u < 6 then { d with ctl := { d.ctl with faulty := vModN d.ctl.faulty (u - 3) fun _ => false } }
  else if u < 38 then
    let g : Fin 4 := ⟨(u - 6) / 8 % 4, by omega⟩
    afeGrpMod g (fun x => { x with spare := some u, serves := none }) d
  else if u < 42 then
    let g : Fin 4 := ⟨(u - 38) % 4, by omega⟩
    afeGrpMod g (fun x => { x with unavailable := false }) d
  else if u = 46 then { d with dlx := { d.dlx with spareFree := true } }
  else d

/-- A supervisor's outcome once both of the pair have one: the one that passed is SC's standby. -/
def supSettled (d : Dev) : Dev :=
  if (standby d).isSome then hltMod (fun h => { h with supSingle := false }) d else d

/-- The test of a unit in quarantine has ended. -/
def quarantineDone (u : Fin 52) (passed : Bool) (d : Dev) : Dev :=
  let x := unitOf d u
  if x.st ≠ 2 || d.hlt.patrolLost then d
  else
    let d := raise 1 0xA006 (unitPath u) (le 1 u ++ le 1 (b2n (!passed))) d
    let d := if passed && !x.again then spareAgain u (unitMod u (fun x => { x with st := 1 }) d)
      else retire u (b2n passed) d
    healthCheck (supSettled d)

/-! ## Uncorrectable errors (R518) -/

/-- A coefficient set fails its check: one in use as R340 has it, its computed CRC a free value (log entry 4). -/
def setSpoil (addr : Nat) (d : Dev) : Dev :=
  if h : instOf addr < 64 then
    if !isCoefSet addr then d
    else
      let i : LI := ⟨instOf addr, h⟩
      let s := keyOf addr - kCtlCoefSet
      if ctlRuns (ctlInst d i) && (ctlInst d i).setUse = s then ctlIntegrity i (Config.freeWord d.free) (takeFree d)
      else ctlSetMod i s (fun c => { c with valid := false }) d
  else d

/-- A closed record of data flash is lost: of an image slot (0, 1), of a stored lot or enrolment record (bit 31 and its
CHAIN_INDEX), of a recipe or of a persistent pair by its parameter address. -/
def recordSpoil (addr : Nat) (d : Dev) : Dev :=
  if addr < 2 then slotMod addr (fun s => { s with closed := false, header := [] }) d
  else if 2 ^ 31 ≤ addr then { d with idn := { d.idn with records := d.idn.records.filter fun r => r.1 != addr - 2 ^ 31 } }
  else if keyOf addr = kSvcRecipe then { d with cmd := { d.cmd with params := alDel d.cmd.params addr } }
  else if persists addr then
    let d := if keyOf addr = kIdnBinding then idnMod (fun x => { x with lost := true }) d else d
    { d with cmd := { d.cmd with pairs := alSet d.cmd.pairs addr { pairOf d addr with flash := none } } }
  else d

/-- Supervisor data, or a code-flash word that no other bank supplies (R518): a rollback, whose length in µs is measured: a
free value (log entry 4). -/
def eccRollback (d : Dev) : Dev :=
  let us := (Config.freeWord d.free).toNat
  rollback us (takeFree d)

/-- An uncorrectable error: EV_HLT_ECC, counted, and handled by its region in the order of R518's table: 0 parameter store, 1
coefficient sets, 2 states and checkpoints of an engine, 3 supervisor data, 4 and 5 queue region, 6 snapshot buffer, 7 code
flash, 8 data flash. `other` is the shadow copy of a pair, or a code-flash bank that supplies the word. -/
def eccError (region : Fin 9) (addr : BitVec 32) (other : Bool) (d : Dev) : Dev :=
  let a := addr.toNat
  let d := hltCount 1 1 (raise 6 0xA003 (mkPath 0xA 2 0xFFFFFF) (le 4 a ++ le 1 region) d)
  match region.val with
  | 0 => pairSpoil (a % 2 ^ 24) other d
  | 1 => setSpoil (a % 2 ^ 24) d
  | 2 => engineFault ⟨a % 3, by omega⟩ d
  | 3 => eccRollback d
  | 4 => { d with host := { d.host with badWords := a / 4 * 4 :: d.host.badWords.filter (· != a / 4 * 4) } }
  | 5 => { d with host := { d.host with badWords := a / 4 * 4 :: d.host.badWords.filter (· != a / 4 * 4) } }
  | 7 => if other then d else eccRollback d
  | 8 => recordSpoil a d
  | _ => d

/-! ## Shut-down (R541-R543, R547) -/

/-- A control-die trip: the SHUTDOWN word is programmed, then the regulator and D0 go off and the latch is set. -/
def controlShutdown (sensor : Fin 6) (value : Int) (d : Dev) : Dev :=
  let w := le 8 (dtNs d) ++ le 1 sensor ++ [0] ++ le 2 (toBits 16 value)
  let d := chaletReset 0x00 false (hltMod (fun h => { h with shutdownWord := some w }) d)
  hltMod (fun h => { h with ctlLatch := true }) d

/-- A field-die trip: every switch opens and the die latches with the Lift silent. -/
def fieldShutdown (d : Dev) : Dev :=
  if !d.pwr.fieldPow then d else fieldOff .svcRelease (hltMod (fun h => { h with fieldLatch := true }) d)

/-- VFLD has been below 5.0 V for 10 ms. -/
def fieldLatchClear (d : Dev) : Dev := hltMod (fun h => { h with fieldLatch := false }) d

/-! ## Flash (R87, R509, R534, R544) -/

/-- What closes with a flash operation. -/
def flashActs (f : FlashOp) (d : Dev) : Dev :=
  match f.kind with
  | 1 => slotMod f.ref (fun s => { s with closed := true, header := s.bytes.take 32 }) d
  | 2 => slotMod f.ref (fun _ => ImgSlot.reset) { d with hlt := { d.hlt with erases := d.hlt.erases + 16 } }
  | 3 => match f.wr with
    | some w => enrolDone w.2 f.ref (field f.result 4 4) d
    | none => d
  | 4 => fwMod (fun x => { x with checked := true }) d
  | _ => match f.wr with
    | some w => applyParam w.1 w.2 d
    | none => d

/-- The operation at the front may go on: D5 is ON, and at L3 only a record that was open completes (R509). -/
def flashRuns (d : Dev) : Bool := domOn d 5 && (d.pwr.lStep < 3 || d.hlt.flashOpen)

/-- The oldest flash operation is done: its record closes and its command completes, a write of a parameter with its tick; then the
next command begins. -/
def flashDone (d : Dev) : Dev :=
  match d.hlt.flash with
  | [] => d
  | f :: rest =>
    if !flashRuns d || f.kind == 5 then d
    else
      let d := flashActs f (hltMod (fun h => { h with flash := rest, flashOpen := false }) d)
      let res := if f.kind = 0 && f.wr.isSome then tickBytes d else f.result
      flashNext (match f.cmd with
        | some id => completeId id 0 0 res d
        | none => d)

/-- A partition's refresh: closed records move to fresh space and sectors are erased (R534). -/
def flashRefresh (sectors discarded : Nat) (d : Dev) : Dev :=
  if !domOn d 5 || 3 ≤ d.pwr.lStep then d
  else
    raise 6 0xA013 (subPath 0xA) (le 1 sectors ++ le 1 discarded ++ le 1 1)
      (hltMod (fun h => { h with erases := h.erases + sectors }) d)

/-! ## Commands (R551) -/

/-- `HLT_READ`. -/
def cmdHltRead (c : Cmd) (d : Dev) : Dev :=
  complete c 0 0 (le 4 (mirHealth d) ++ le 4 (mirXover d) ++ le 4 (throttleWord d) ++ tickBytes d) d

/-- The cause of a demand still holds: a clock fault, an echo that still disagrees, or a control die still at its limit. -/
def causeHolds (d : Dev) (k : Fin 4) : Bool :=
  match k.val with
  | 0 => false
  | 1 => d.hlt.clockFault
  | 2 => 8 ≤ d.hlt.echoCycles
  | _ => (List.finRange 14).any fun (s : Fin 14) => s.val < 6 && 15000 ≤ (d.hlt.sensors.get s).value

/-- `HLT_DEMAND_CLEAR` (R517). -/
def cmdDemandClear (c : Cmd) (d : Dev) : Dev :=
  let ks := (List.finRange 4).filter fun (k : Fin 4) => d.hlt.causes.get k
  if ks.any (causeHolds d) then refuse c (refused 0xA2) d
  else
    let d := hltMod (fun h => { h with demand := false, causes := HltSt.reset.causes }) d
    let d := forEach ks (fun k d => raise 1 0xA014 (subPath 0xA) (le 1 k ++ [1]) d) d
    healthCheck (complete c 0 0 (tickBytes d) d)

/-! ## Meanings of the rows -/

def execHousekeepingRound (r : HouseRound) (s : State) :=
  if s.dev.pwr.powered && clockFails r s.dev then losingSnap (clockReset r) s else taking (houseRound r) s
def execThermalCapStep (s : State) := quiet capStep s
def execLockstepMismatch (us : Nat) (differs : Bool) (s : State) :=
  if mismatchSeen s.dev && mismatchPersists differs s.dev && supResets s.dev then losingSnap supDouble s
  else quiet (mismatch us differs) s
def execSupervisorHeartbeatMiss (s : State) := if supResets s.dev then losingSnap supDouble s else quiet supFault s
def execPatrolStall (s : State) := quiet patrolStall s
def execEccUncorrectable (region : Fin 9) (addr : BitVec 32) (other : Bool) (s : State) := quiet (eccError region addr other) s
def execQuarantineDone (u : Fin 52) (passed : Bool) (s : State) := quiet (quarantineDone u passed) s
def execControlDieShutdown (sensor : Fin 6) (value : Int) (s : State) :=
  if s.dev.pwr.powered then losing (controlShutdown sensor value) s else quiet id s
def execFieldDieShutdown (s : State) := quiet fieldShutdown s
def execFieldLatchClear (s : State) := quiet fieldLatchClear s
def execFlashOperationDone (s : State) := taking flashDone s
def execFlashRefreshDue (sectors discarded : Nat) (s : State) := quiet (flashRefresh sectors discarded) s
def execHltRead (c : CmdId) (s : State) := quiet (withCmd 0x1A01 c cmdHltRead) s
def execHltLogRead (c : CmdId) (s : State) := loud (withCmd 0x1A03 c (flashTurn cmdLogRead)) s
def execHltDemandClear (c : CmdId) (s : State) := quiet (withCmd 0x1A04 c cmdDemandClear) s

end Sys2Proof.Machine
end

