-- ==== Sys2Proof/Machine/Groom.lean ====
section
/-!
DEFINITION. Machine/Groom.lean: Grooming (R532-R536): when a pass runs, what its plan changes, and the ageing record.
-/
namespace Sys2Proof.Machine

/-- A pass must wait: a quarantine test is in progress (R533). -/
def groomDeferred (d : Dev) : Bool := d.hlt.units.toList.any fun u => u.st == 2

/-- The repeat of an abandoned pass is due (R533). -/
def repeatDue (d : Dev) : Bool :=
  match d.hlt.groomRepeat with
  | some (some t) => t ≤ d.time.tick
  | _ => false

/-- A pass is due: at boot, on repeat, for a command, or `HLT_GROOM_H` hours after the last one was completed. -/
def groomDue (d : Dev) : Bool :=
  d.hlt.groomBoot || repeatDue d || d.hlt.groomCmd.isSome ||
    d.hlt.groomLast + pget d kHltGroomH 0 * ticksHour ≤ d.time.tick

/-- A pass begins; `groomReason` is 1 for the boot pass and 2 for one that `HLT_GROOM_NOW` asked for. -/
def groomPass (d : Dev) : Dev :=
  if d.hlt.groomRun || groomDeferred d || !groomDue d || d.host.stage != 0x80 then d
  else hltMod (fun h =>
    { h with
      groomRun := true
      groomReason := if h.groomBoot then 1 else if h.groomCmd.isSome then 2 else 0
      groomBoot := false
      groomRepeat := none }) d

/-- `HLT_GROOM_NOW` completes at the commit of its pass (R551). -/
def cmdGroomNow (c : Cmd) (d : Dev) : Dev :=
  if d.hlt.groomRun || d.hlt.groomCmd.isSome then refuse c (refused 0xA1) d
  else groomPass (hltMod (fun h => { h with groomCmd := some c.id }) (begin_ c.id d))

/-- The larger slowdown of D1 and D2 in 0.01 %. -/
def slowCore (p : GroomPlan) : Int := max (p.slow.get 0) (p.slow.get 1)

/-- V3 in mV (R534): V3F and 10 mV for each 1 % of slowdown, rounded up to a 5 mV step, and at least 1.050 V. -/
def planV3 (p : GroomPlan) : Nat :=
  let x : Int := 10 * (Config.v3Factory : Int) + slowCore p
  let steps := if x < 0 then 0 else ceilDiv x.toNat 50
  max 1050 (5 * steps)

/-- The items that keep their last plan, with object type and index (R535); the index of an eye is 0 for the uplink and 1 for the
downlink. -/
def planOut (p : GroomPlan) : List (Nat × Nat × Nat) :=
  (if 800 < slowCore p then [(0, 0, 0)] else []) ++
    p.trimsOut.map (fun x => (1, x.1.val, x.2.toNat)) ++ p.resistOut.map (fun x => (2, x.1.val, x.2.toNat)) ++
    (if 380 < p.progTime then [(3, 0, 0)] else []) ++ (if 80000 < p.eraseCount then [(4, 0, 0)] else []) ++
    (if p.openUp < 4 then [(5, 0, 0)] else []) ++ (if p.openDown < 4 then [(5, 0, 1)] else [])

/-- The domain of the largest slowdown: D1 to D4, or D7. -/
def slowDomain (p : GroomPlan) : Nat × Int :=
  (List.finRange 5).foldl (fun a k => if a.2 < p.slow.get k then ([1, 2, 3, 4, 7].getD k 0, p.slow.get k) else a)
    (1, p.slow.get 0)

/-- Byte 15 of R536: PL3 offered, margin exhausted, boot pass, `HLT_GROOM_NOW`. -/
def groomFlags (d : Dev) : Nat :=
  b2n d.hlt.pl3 + 2 * b2n d.hlt.exhausted + 4 * b2n (d.hlt.groomReason == 1) + 8 * b2n (d.hlt.groomReason == 2)

/-- Refresh interval in minutes of a partition with so many corrections per 10⁶ words (R534): 365 days, halved for each doubling
above 100, and never below 7 days. -/
def refreshMin (rate : Nat) : Nat := if rate < 200 then 525600 else max 10080 (525600 / 2 ^ min 6 (Nat.log2 (rate / 100)))

/-- The plan items of R534 take effect, each but those that keep their last plan. -/
def planApply (p : GroomPlan) (d : Dev) : Dev :=
  let out := planOut p
  let keep := fun (item : Nat) => out.any fun x => x.1 == item
  let v := if keep 0 then d.hlt.v3 else planV3 p
  let d := hltMod (fun h =>
    { h with
      v3 := v
      pl3 := v ≤ 1150
      exhausted := !out.isEmpty
      refresh := if keep 3 || keep 4 then h.refresh else p.rates.map refreshMin }) d
  let d := if d.pwr.level = 3 && d.pwr.coreMv < v then pwrMod (fun q => { q with coreMv := v, pl3Mv := v }) d else d
  let d := match p.offsets with
    | some o =>
      if d.hlt.groomReason = 1 then
        hltMod (fun h => { h with sensors := Vector.ofFn fun s => { h.sensors.get s with ofs := clampI (-200) 500 (o.get s) } }) d
      else d
    | none => d
  let d := liftMod (fun l =>
    { l with
      goalUp := if p.openUp < 4 then l.goalUp else p.phaseUp
      goalDown := if p.openDown < 4 then l.goalDown else p.phaseDown
      eyeUp := p.eyeUp
      eyeDown := p.eyeDown }) d
  gnsGroom d

/-- The ageing record of R536 without its bib and CRC, which follow at admission. -/
def ageRecord (p : GroomPlan) (d : Dev) : List Byte :=
  let s := slowDomain p
  let top := (d.hlt.sensors.toList.map (·.ofs)).foldl (fun a x => if a.natAbs < x.natAbs then x else a) 0
  padTo 60 (le 8 d.hlt.planDt ++ le 2 (timeWord d) ++ le 2 d.hlt.groomPass ++ le 2 (toBits 16 s.2) ++ le 1 s.1 ++
    le 1 (groomFlags d) ++ le 2 d.hlt.v3 ++ le 2 p.drift ++ le 1 p.driftType ++ le 1 p.driftIndex.toNat ++ le 2 p.refPpm ++
    le 4 (toBits 32 p.tcxo) ++ le 4 (toBits 32 d.gns.a) ++ le 1 p.eyeUp ++ le 1 p.eyeDown ++ le 1 p.phaseUp ++
    le 1 p.phaseDown ++ le 2 p.progTime ++ le 2 p.corrections ++ le 2 (p.eraseCount / 100) ++ le 2 (toBits 16 top))

/-- A pass commits its plan at a TICK edge (R533): EV_HLT_GROOM, an event for each item left out, the record
in the ageing log of 24 sectors of 85 records (R28), and the end of `HLT_GROOM_NOW`. -/
def groomCommit (p : GroomPlan) (d : Dev) : Dev :=
  if !d.hlt.groomRun then d
  else
    let t := d.time.tick
    let dt := dtNs d
    let d := planApply p (hltMod (fun h =>
      { h with groomPass := (h.groomPass + 1) % 65536, planDt := dt, groomLast := t, groomRun := false }) d)
    let n := d.hlt.groomPass
    let fl := groomFlags d
    let r := ageRecord p d
    let d := if d.pwr.lStep < 3 then
        hltMod (fun h => { h with ageLog := logKeep 24 85 (h.ageLog ++ [r]) }) d
      else d
    let d := raise 6 0xA00C (subPath 0xA) (le 2 n ++ le 1 fl ++ [0] ++ le 2 d.hlt.v3) d
    let d := forEach (planOut p) (fun x d => raise 6 0xA00D (subPath 0xA) (le 1 x.1 ++ le 1 x.2.1 ++ le 1 x.2.2) d) d
    let d := match d.hlt.groomCmd with
      | some id => completeId id 0 0 (le 2 n ++ le 1 fl) (hltMod (fun h => { h with groomCmd := none }) d)
      | none => d
    healthCheck d

def execGroomingPass (s : State) := quiet groomPass s
def execGroomingCommit (p : GroomPlan) (s : State) := quiet (groomCommit p) s
def execHltGroomNow (c : CmdId) (s : State) := quiet (withCmd 0x1A02 c cmdGroomNow) s

end Sys2Proof.Machine
end

