-- ==== Sys2Proof/Machine/Host.lean ====
section
/-!
DEFINITION. Machine/Host.lean: the host link (R54-R63), the host window (R64-R70), the queue registers and doorbells (R69-R78)
and the ring and snapshot windows (R75, R471).
-/
namespace Sys2Proof.Machine

/-! ## Registers as they read -/

/-- The level of the HIRQn pad, true for asserted; held while D6's pads are (R65, R502). -/
def hirqPin (d : Dev) : Bool := if vAt d.pwr.pads 6 false then d.pwr.hirqHeld else hirq d

/-- `HST_BOOT_STATUS`. -/
def bootStatus (d : Dev) : Nat :=
  let h := d.host
  2 ^ 31 * b2n h.wakeFail + 2 ^ 30 * b2n h.limp + 2 ^ 29 * b2n h.layoutErr + 2 ^ 28 * b2n h.imgErr + 2 ^ 20 * (h.bootMode % 4) +
    65536 * b2n h.fwBank + 256 * (h.stage % 256) + h.cause % 256

/-- `Q_STATUS` (R69, R73). -/
def qStatus (r : Ring) : Nat :=
  8 * b2n r.cfgErr + 4 * b2n r.dbErr + 2 * b2n (r.count == r.size) + b2n (r.head == r.tail)

/-- The registers of Q18, the downlink, and Q19, the uplink (R136). -/
def liftReg (d : Dev) (up : Bool) (ofs : Nat) : Nat :=
  let l := d.lift
  match ofs with
  | 0 => if up then l.rcvd else l.sent
  | 1 => if up then 65536 * l.depthMaxUp + depthUp d else 65536 * l.depthMaxDown + depthDown d
  | 2 => if up then l.upDisc else l.echoErr
  | 3 => if up then l.appliedRep else l.applySent
  | 4 => if up then l.fencedRep else l.missRep
  | 5 => if up then l.up.code else l.down.code
  | 6 => if up then 256 * (l.phaseUp % 32) + l.eyeUp % 128 else 256 * (l.phaseDown % 32) + l.eyeDown % 128
  | _ => if up then 65536 * l.cycUpMax + l.cycUp else 65536 * l.cycDownMax + l.cycDown

/-- A queue register. -/
def queueReg (d : Dev) (q ofs : Nat) : Nat :=
  if q = 18 then liftReg d false ofs
  else if q = 19 then liftReg d true ofs
  else
    let r := ringOf d q
    match ofs with
    | 0 => r.base
    | 1 => r.size
    | 2 => r.head
    | 3 => r.tail
    | 4 => 0
    | 5 => 2 ^ 31 * b2n r.en + 4096 * r.irqTime + r.irqCount
    | 6 => qStatus r
    | _ => r.aux

/-- A word of memory from its byte offset, the lowest byte in bits [7:0]. -/
def wordAt (m : Mem) (ofs : Nat) : Nat := de (memRead m ofs 4)

/-- Byte offset in the queue region of a word of the ring window (R75), and in the snapshot buffer of one of its window
(R471). -/
def ringOfs (d : Dev) (a : Nat) : Nat := d.host.winPage * 65536 + (a - 0x8000) * 4
def snapOfs (d : Dev) (a : Nat) : Nat := d.host.snapPage * 65536 + (a - 0xC000) * 4

/-- The identity, bootstrap and interrupt registers. `first` is the word address its transaction starts at: a read of LO latches
HI, so a burst from LO reads the HI of the same moment. -/
def lowReg (d : Dev) (first a : Nat) : Nat :=
  let h := d.host
  match a with
  | 0x0 => 0x9640
  | 0x1 => Config.hstRev.toNat
  | 0x2 => Config.hstFwVer.toNat
  | 0x3 => bootStatus d
  | 0x5 => d.gate.bib.toNat
  | 0x6 => d.gate.wrap.toNat
  | 0x7 => d.pwr.bootCount
  | 0x8 => dtNs d
  | 0x9 => if first = 8 then dtNs d / 2 ^ 32 else h.dtHi.toNat
  | 0xA => d.time.tick
  | 0xB => if first = 10 then d.time.tick / 2 ^ 32 else h.tickHi.toNat
  | 0xC => 65536 * h.crcCount + h.faCount
  | 0xD => h.winPage
  | 0xE => h.snapPage
  | 0xF => h.scratch.toNat
  | 0x10 => h.intStatus.toNat
  | 0x11 => h.intEnable.toNat
  | _ => 0

/-- A word of the host window, and whether it is mapped (R66). The snapshot buffer cannot be read while D3 is OFF (R474). -/
def windowRead (s : State) (first a : Nat) : Word × Bool :=
  let d := s.dev
  if a < 0x13 then (w32 (lowReg d first a), true)
  else if 0x100 ≤ a && a < 0x1A0 then (w32 (queueReg d ((a - 0x100) / 8) (a % 8)), true)
  else if 0x200 ≤ a && a < 0x240 then (vAt d.host.fieldMir (a - 0x200) 0, true)
  else if 0x240 ≤ a && a < 0x280 then (vAt d.host.healthMir (a - 0x240) 0, true)
  else if 0x8000 ≤ a && a < 0xC000 then (w32 (wordAt s.mem (ringOfs d a)), true)
  else if 0xC000 ≤ a then
    if domState d 3 = 2 then (0, false) else (w32 (wordAt s.snap (snapOfs d a)), true)
  else (0, false)

/-- A word read through the ring window holds an uncorrectable error (R61, R518). -/
def windowBad (d : Dev) (a : Nat) : Bool := 0x8000 ≤ a && a < 0xC000 && badIn d (ringOfs d a) 4

/-- The rows of the layout of R66 that hold more than one word. -/
def layoutRows : List (Nat × Nat) :=
  [(0x8, 0x9), (0xA, 0xB), (0x100, 0x19F), (0x200, 0x23F), (0x240, 0x27F), (0x8000, 0xBFFF), (0xC000, 0xFFFF)]

/-- A burst lies within one row of the layout (R67). -/
def inRow (a n : Nat) : Bool := n == 1 || layoutRows.any fun r => r.1 ≤ a && a + n ≤ r.2 + 1

/-! ## Queue registers written (R69, R72, R74, R78) -/

/-- CFG_ERR of a queue, with its interrupt and event. -/
def cfgError (q : Nat) (d : Dev) : Dev := ringError q 2 (ringMod q (fun r => { r with cfgErr := true }) d)

/-- DB_ERR of a queue. -/
def dbError (q : Nat) (d : Dev) : Dev := ringError q 0 (ringMod q (fun r => { r with dbErr := true }) d)

/-- Some ring of Q0-Q17 is enabled. -/
def anyEnabled (d : Dev) : Bool := (List.range 18).any fun q => (ringOf d q).en

/-- A power of two from 4 to 4096. -/
def sizeOk (n : Nat) : Bool := [4, 8, 16, 32, 64, 128, 256, 512, 1024, 2048, 4096].contains n

/-- A write of `Q_SIZE` (R72). -/
def sizeWrite (q v : Nat) (d : Dev) : Dev :=
  let n := v % 65536
  if anyEnabled d || !sizeOk n then cfgError q d else ringMod q (fun r => { r with size := n }) d

/-- The size of a ring in bytes. -/
def ringBytes (d : Dev) (q : Nat) : Nat := (ringOf d q).size * ringEntry q

/-- Queue numbers in descending order of ring size, ties in ascending number: insertion. -/
def bySize (d : Dev) (q : Nat) : List Nat → List Nat
  | [] => [q]
  | p :: rest => if ringBytes d p < ringBytes d q then q :: p :: rest else p :: bySize d q rest

/-- Offsets of rings placed one after another, each aligned to its own size, and the bytes used; none where a ring is larger than
a page. -/
def placeRings (d : Dev) : List Nat → (ofs : Nat) → Option (List (Nat × Nat) × Nat)
  | [], ofs => some ([], ofs)
  | q :: rest, ofs =>
    let n := ringBytes d q
    if 65536 < n then none
    else
      let b := ceilDiv ofs n * n
      match placeRings d rest (b + n) with
      | none => none
      | some (xs, top) => some ((q, b) :: xs, top)

/-- The layout of all eighteen rings (R72): their offsets, or none where it is refused. -/
def layout (d : Dev) : Option (List (Nat × Nat)) :=
  match placeRings d ((List.range 18).foldl (fun a q => bySize d q a) []) 0 with
  | none => none
  | some (xs, top) => if 262144 < top then none else some xs

/-- A layout sets every index to 0, refused or not. -/
def indexesZero (d : Dev) : Dev :=
  { d with
    rings := d.rings.map fun r => { r with head := 0, tail := 0, aux := 0, aged := false }
    gate := { d.gate with loss := none } }

/-- The layout done, when the host enables a ring while all are disabled; false where it is refused. -/
def layoutDo (q : Nat) (d : Dev) : Bool × Dev :=
  match layout d with
  | none => (false, ringError q 1 (let e := indexesZero d; { e with host := { e.host with layoutErr := true } }))
  | some xs => (true, forEach xs (fun x d => ringMod x.1 (fun r => { r with base := x.2 }) d) { indexesZero d with laidOut := true })

/-- The ring cannot be disabled now (R78). -/
def enStays (d : Dev) (q : Nat) : Bool :=
  if 4 ≤ q && q < 8 then d.cmd.live.any fun c => c.commander == 0 && c.ring.val + 4 == q
  else if q = 12 then !(outstanding (busCh d 0)).isEmpty
  else if q = 14 then !(outstanding (busCh d 1)).isEmpty
  else false

/-- What an enabled or emptied ring lets in: a waiting snapshot descriptor or record copies. -/
def ringOpens (q : Nat) (d : Dev) : Dev := if q = 11 then snapFlush d else if q = 16 then copyFlush d else d

/-- A write of `Q_CTRL`. -/
def ctrlWrite (q v : Nat) (d : Dev) : Dev :=
  let r := ringOf d q
  let en := bitOf v 31
  if r.en && !en && enStays d q then cfgError q d
  else
    let t := fld v 12 12
    let d := ringMod q (fun r => { r with irqTime := t, irqCount := fld v 0 12, aged := r.aged && t ≤ r.irqTime }) d
    let (ok, d) := if en && !anyEnabled d then layoutDo q d else (true, d)
    irqCheck q (ringOpens q (ringMod q (fun r => { r with en := en && ok }) d))

/-- Live tags whose completions the host has consumed are free (R83): `n` slots from `from_`. -/
def tagsFree (r : Fin 4) (from_ n : Nat) (d : Dev) : Dev :=
  { d with cmd := { d.cmd with live := d.cmd.live.filter fun c =>
      !(c.commander == 0 && c.ring == r && c.written && (c.slot + 65536 - from_) % 65536 < n) } }

/-- When the host frees an entry of a full event ring, EV_HST_EVENT_LOSS is raised (R77). -/
def lossRaise (d : Dev) : Dev :=
  match d.gate.loss with
  | none => d
  | some l =>
    if l.raised then d
    else raise 6 0xC003 (subPath 0xC) [] { d with gate := { d.gate with loss := some { l with raised := true } } }

/-- What follows when the host has consumed `n` entries of a device-produced ring. -/
def consumed (q from_ n : Nat) (d : Dev) : Dev :=
  if n = 0 then d
  else if h : 4 ≤ q ∧ q < 8 then tagsFree ⟨q - 4, by omega⟩ from_ n d
  else if q = 8 then lossRaise d
  else ringOpens q d

/-- A write of `Q_DOORBELL` (R74, R410). -/
def doorbell (q v : Nat) (d : Dev) : Dev :=
  let v := v % 65536
  let r := ringOf d q
  if hostProduced q then
    let have_ := (r.tail + 65536 - r.back q) % 65536
    let want := (v + 65536 - r.back q) % 65536
    if have_ ≤ want && want ≤ r.size then ringMod q (fun r => { r with tail := v }) d else dbError q d
  else
    let n := (v + 65536 - r.head) % 65536
    if n ≤ r.count then consumed q r.head n (ringMod q (fun r => { r with head := v, aged := r.aged && n == 0 }) d) else dbError q d

/-- A write of a queue register; false where the word is read-only. -/
def queueWrite (q ofs v : Nat) (d : Dev) : Bool × Dev :=
  if 18 ≤ q then (false, d)
  else match ofs with
    | 1 => (true, sizeWrite q v d)
    | 4 => (true, doorbell q v d)
    | 5 => (true, ctrlWrite q v d)
    | 6 => (true, ringMod q (fun r => { r with cfgErr := r.cfgErr && !bitOf v 3, dbErr := r.dbErr && !bitOf v 2 }) d)
    | _ => (false, d)

/-! ## The other registers written -/

/-- The bits of the interrupt registers that are not reserved. -/
def intBits : Nat := 0x3F03FFFF

/-- A write of `HST_INT_STATUS`: 1 clears; a queue's bit whose condition still holds is set again (R68). -/
def intClear (v : Nat) (d : Dev) : Dev :=
  let gone := d.host.intStatus.toNat &&& v
  let d := { d with host := { d.host with intStatus := d.host.intStatus &&& ~~~(w32 v) } }
  forEach (bitsOf 18 gone) irqCheck d

/-- A write of `HST_BOOT_CTRL` (R66, R97): LOADER is held for the next reset; false without the key. RESET acts once the
transaction is over. -/
def bootCtrl (v : Nat) (d : Dev) : Bool × Dev :=
  if v / 65536 != 0x7C19 then (false, d)
  else (true, if bitOf v 1 then { d with host := { d.host with loaderNext := true } } else d)

/-- A write of one of the registers below 0x0013; false where the word is read-only. -/
def lowWrite (a v : Nat) (d : Dev) : Bool × Dev :=
  let h := d.host
  match a with
  | 0x3 => (true, { d with host := { h with wakeFail := h.wakeFail && !bitOf v 31, layoutErr := h.layoutErr && !bitOf v 29 } })
  | 0x4 => bootCtrl v d
  | 0xD => (true, { d with host := { h with winPage := v % 4 } })
  | 0xE => (true, { d with host := { h with snapPage := v % 8 } })
  | 0xF => (true, { d with host := { h with scratch := w32 v } })
  | 0x10 => (true, intClear v d)
  | 0x11 => (true, { d with host := { h with intEnable := w32 (v &&& intBits) } })
  | 0x12 => (true, intSet (v &&& intBits) d)
  | _ => (false, d)

/-- The ring that holds a byte of the queue region (R72). -/
def ringAt (d : Dev) (b : Nat) : Option Nat :=
  (List.range 18).find? fun q => (ringOf d q).base ≤ b && b < (ringOf d q).base + ringBytes d q

/-- A slot between `Q_HEAD` and `Q_TAIL` (R75). -/
def published (r : Ring) (slot : Nat) : Bool := (slot + (r.size - r.head % r.size)) % r.size < r.count

/-- The host may write a word of the queue region (R75). -/
def ringWritable (d : Dev) (b : Nat) : Bool :=
  d.laidOut && match ringAt d b with
    | none => false
    | some q =>
      let r := ringOf d q
      hostProduced q && r.en && !published r ((b - r.base) / ringEntry q)

/-- A word written through the ring window. -/
def ringWrite (a v : Nat) (s : State) : Bool × State :=
  let b := ringOfs s.dev a
  if ringWritable s.dev b then (true, { s with mem := memWrite s.mem b (le 4 v), dev := badClear b 4 s.dev })
  else (false, s)

/-- A word of the host window written; false where the write is ignored and sets ADDR_ERR (R66). -/
def windowWrite (a v : Nat) (s : State) : Bool × State :=
  if a < 0x13 then
    let x := lowWrite a v s.dev
    (x.1, { s with dev := x.2 })
  else if 0x100 ≤ a && a < 0x1A0 then
    let x := queueWrite ((a - 0x100) / 8) (a % 8) v s.dev
    (x.1, { s with dev := x.2 })
  else if 0x8000 ≤ a && a < 0xC000 then ringWrite a v s
  else (false, s)

/-- The words of a write applied together (R60): whether every word took it. -/
def windowWrites : (a : Nat) → List Nat → State → Bool × State
  | _, [], s => (true, s)
  | a, v :: vs, s =>
    let x := windowWrite a v s
    let y := windowWrites (a + 1) vs x.2
    (x.1 && y.1, y.2)

/-! ## Transactions (R55-R63) -/

/-- How a transaction ended. -/
inductive LinkEnd where
  | good
  | addr
  | crc
  | frame
  deriving DecidableEq, Repr

/-- The status byte but for the previous transaction's errors (R63). -/
def statusBase (d : Dev) : Nat :=
  128 * b2n d.host.hrdy + 64 * b2n (hirqPin d) + 2 * b2n d.host.limp + b2n (d.host.stage == 0xF0)

/-- The status byte. -/
def statusByte (d : Dev) : Nat :=
  let h := d.host
  statusBase d + 32 * b2n h.crcErr + 16 * b2n h.frameErr + 8 * b2n h.addrErr + 4 * b2n h.resetSeen

/-- The end of a transaction (R63, R100): its errors shown to the next one, counted and signalled; one with a good CRC is heard
and ends a silence. -/
def linkEnd (e : LinkEnd) (miso : List Byte) (d : Dev) : Dev :=
  let h := d.host
  let bad := e != .good
  let d := { d with host := { h with
    resetSeen := false
    crcErr := e == .crc
    frameErr := e == .frame
    addrErr := e == .addr
    crcCount := if e = .crc then satAdd h.crcCount 1 0xFFFF else h.crcCount
    faCount := if e = .frame || e = .addr then satAdd h.faCount 1 0xFFFF else h.faCount
    miso := miso } }
  let d := if bad then intSet (2 ^ 25) d else d
  if e = .good || e = .addr then
    let was := d.host.silent
    let d := { d with host := { d.host with heard := true, silent := false } }
    if was then raise 6 0xC002 (subPath 0xC) [0] d else d
  else d

/-- The data words of a write transaction. -/
def wireWords : (n : Nat) → List Byte → List Nat
  | 0, _ => []
  | n + 1, bs => deBig (bs.take 4) :: wireWords n (bs.drop 4)

/-- A write transaction of `n` words (R57, R60). -/
def linkWrite (n : Nat) (mosi miso : List Byte) (s : State) : State :=
  let done := fun (e : LinkEnd) (s : State) => { s with dev := linkEnd e miso s.dev }
  if mosi.length ≠ 5 + 4 * n then done .frame s
  else if crc16 (mosi.take (3 + 4 * n)) ≠ deBig (mosi.drop (3 + 4 * n)) then done .crc s
  else
    let a := deBig ((mosi.drop 1).take 2)
    if !inRow a n then done .addr s
    else
      let x := windowWrites a (wireWords n (mosi.drop 3)) s
      done (if x.1 then .good else .addr) x.2

/-- What a good read leaves behind (R61, R63, R66): the latched halves, and the counts it has returned; one with an
uncorrectable word clears nothing. -/
def readEffects (a n : Nat) (bad : Bool) (d : Dev) : Dev :=
  let h := d.host
  { d with host := { h with
    dtHi := if a ≤ 8 && 8 < a + n then w32 (dtNs d / 2 ^ 32) else h.dtHi
    tickHi := if a ≤ 10 && 10 < a + n then w32 (d.time.tick / 2 ^ 32) else h.tickHi
    crcCount := if a ≤ 12 && 12 < a + n && !bad then 0 else h.crcCount
    faCount := if a ≤ 12 && 12 < a + n && !bad then 0 else h.faCount } }

/-- A read transaction of `n` words (R58, R61, R62). -/
def linkRead (n : Nat) (mosi : List Byte) (s : State) : State :=
  let d := s.dev
  let a := deBig ((mosi.drop 1).take 2)
  let asked := 5 ≤ mosi.length && crc16 (mosi.take 3) == deBig ((mosi.drop 3).take 2)
  let inside := asked && inRow a n
  let ws := (List.range n).map fun k => if inside then windowRead s a (a + k) else (0, false)
  let bad := inside && (List.range n).any fun k => windowBad d (a + k)
  let st : List Byte := le 1 (statusByte d)
  let data := ws.flatMap fun w => beBytes 4 w.1.toNat
  let c := crc16 (st ++ data)
  let c := if asked && !bad then c else 65535 - c
  let miso := padTo mosi.length (st ++ [0, 0, 0, 0, 0] ++ data ++ beBytes 2 c)
  let done := fun (e : LinkEnd) (d : Dev) => { s with dev := linkEnd e miso d }
  if mosi.length ≠ 8 + 4 * n then done .frame d
  else if !asked then done .crc d
  else if !inside then done .addr d
  else done (if ws.all (·.2) then .good else .addr) (readEffects a n bad d)

/-- One transaction, from the bytes on HMOSI (R56, R62, R64). -/
def transaction (mosi : List Byte) (s : State) : State :=
  let d := s.dev
  if !d.host.hrdy then
    { s with dev := { d with host := { d.host with miso := padTo mosi.length (le 1 (statusBase d)) } } }
  else
    let s := { s with dev := healthCheck d }
    let miso := padTo mosi.length (le 1 (statusByte s.dev))
    match mosi with
    | [] => { s with dev := linkEnd .frame [] s.dev }
    | op :: _ =>
      let n := op.toNat % 64 + 1
      if op.toNat / 64 % 2 = 0 ∧ n ≠ 1 then { s with dev := linkEnd .frame miso s.dev }
      else if 128 ≤ op.toNat then linkWrite n mosi miso s
      else linkRead n mosi s

/-- A good write of one word, as the bytes on HMOSI (R57). -/
def writeBytes (a : Nat) (vs : List Nat) : List Byte :=
  let n := vs.length
  let b := le 1 (if n = 1 then 0x80 else 0xC0 + (n - 1)) ++ beBytes 2 a ++ vs.flatMap (beBytes 4)
  b ++ beBytes 2 (crc16 b)

/-- A good read of one word (R58). -/
def readBytes (a : Nat) : List Byte :=
  let b := le 1 0 ++ beBytes 2 a
  b ++ beBytes 2 (crc16 b) ++ List.replicate 7 0

/-- A transaction resets the device: a write of one word, single or as a burst (R56), that has the key and RESET at 0x0004
(R66, R490). -/
def resetsDevice (mosi : List Byte) (d : Dev) : Bool :=
  d.host.hrdy && mosi.length == 9 && (byteAt mosi 0 == 0x80 || byteAt mosi 0 == 0xC0) &&
    (mosi.drop 1).take 2 == [0x00, 0x04] && crc16 (mosi.take 7) == deBig (mosi.drop 7) &&
    deBig ((mosi.drop 3).take 2) == 0x7C19 && bitOf (deBig ((mosi.drop 3).take 4)) 0

/-- A transaction and what follows at once: ring writes, entries that can be taken, and the reset it may ask for. -/
def linked (mosi : List Byte) (s : State) : Host.Outcome State Fault Refusal :=
  let t := transaction mosi s
  if resetsDevice mosi s.dev then losingSnap (bothReset 0x06) t else .next (takeAll (settle t))

/-- The oldest unconsumed entry of a device-produced ring is older than IRQ_TIME, until the host consumes it (R68). -/
def queueAge (q : Fin 18) (d : Dev) : Dev :=
  let r := ringOf d q
  if r.en && !hostProduced q && r.irqCount != 0 && r.irqTime != 0 && r.count != 0 then
    irqCheck q (ringMod q (fun r => { r with aged := true }) d)
  else d

/-! ## Meanings of the rows -/

/-- A write transaction of any form; bytes that are not one have no effect in this row (log entry 5). -/
def execRegisterWrite (mosi : List Byte) (s : State) :=
  if 128 ≤ byteAt mosi 0 then linked mosi s else quiet id s
/-- A read transaction of any form, or one without a byte. -/
def execReadTransaction (mosi : List Byte) (s : State) :=
  if byteAt mosi 0 < 128 then linked mosi s else quiet id s
def execHstBootCtrlReset (v : Word) (s : State) := linked (writeBytes 4 [v.toNat]) s
def execHstBootCtrlLoader (v : Word) (s : State) := linked (writeBytes 4 [v.toNat]) s
def execHstIntStatusWrite (v : Word) (s : State) := linked (writeBytes 0x10 [v.toNat]) s
def execHstIntForceWrite (v : Word) (s : State) := linked (writeBytes 0x12 [v.toNat]) s
def execHstLinkErrsRead (s : State) := linked (readBytes 0xC) s
def execHstDtLoRead (s : State) := linked (readBytes 8) s
def execHstTickLoRead (s : State) := linked (readBytes 0xA) s
def execQSizeWrite (q : Fin 20) (v : Word) (s : State) := linked (writeBytes (0x100 + 8 * q + 1) [v.toNat]) s
def execQCtrlWrite (q : Fin 20) (v : Word) (s : State) := linked (writeBytes (0x100 + 8 * q + 5) [v.toNat]) s
def execQDoorbellWrite (q : Fin 20) (v : Word) (s : State) := linked (writeBytes (0x100 + 8 * q + 4) [v.toNat]) s
/-- A burst of 1 to 64 words through the ring window. -/
def execRingWindowWrite (addr : BitVec 16) (words : List Word) (s : State) :=
  linked (writeBytes addr.toNat (words.map (·.toNat))) s
def execQueueAgeIrq (q : Fin 18) (s : State) := quiet (queueAge q) s

end Sys2Proof.Machine
end

