-- ==== Sys2Proof/Machine/Dispatch.lean ====
section
/-!
DEFINITION. Machine/Dispatch.lean: one arm per command, each a direct call of its meaning.
-/
namespace Sys2Proof.Machine

/-- The effect of a command on everything but the queue of waiting commands. -/
def exec (i : Instr) (s : State) : Host.Outcome State Fault Refusal :=
  match i with
  | .registerWrite mosi => Sys2Proof.Machine.execRegisterWrite mosi s
  | .hstBootCtrlReset v => Sys2Proof.Machine.execHstBootCtrlReset v s
  | .hstBootCtrlLoader v => Sys2Proof.Machine.execHstBootCtrlLoader v s
  | .hstIntStatusWrite v => Sys2Proof.Machine.execHstIntStatusWrite v s
  | .hstIntForceWrite v => Sys2Proof.Machine.execHstIntForceWrite v s
  | .hstLinkErrsRead => Sys2Proof.Machine.execHstLinkErrsRead s
  | .hstDtLoRead => Sys2Proof.Machine.execHstDtLoRead s
  | .hstTickLoRead => Sys2Proof.Machine.execHstTickLoRead s
  | .qSizeWrite q v => Sys2Proof.Machine.execQSizeWrite q v s
  | .qCtrlWrite q v => Sys2Proof.Machine.execQCtrlWrite q v s
  | .qDoorbellWrite q v => Sys2Proof.Machine.execQDoorbellWrite q v s
  | .ringWindowWrite addr words => Sys2Proof.Machine.execRingWindowWrite addr words s
  | .queueAgeIrq q => Sys2Proof.Machine.execQueueAgeIrq q s
  | .nop c => Sys2Proof.Machine.execNop c s
  | .devInfo c => Sys2Proof.Machine.execDevInfo c s
  | .run c => Sys2Proof.Machine.execRun c s
  | .stop c => Sys2Proof.Machine.execStop c s
  | .safeNow c => Sys2Proof.Machine.execSafeNow c s
  | .resetReq c => Sys2Proof.Machine.execResetReq c s
  | .paramRead c => Sys2Proof.Machine.execParamRead c s
  | .paramWrite c => Sys2Proof.Machine.execParamWrite c s
  | .paramWritePaired c => Sys2Proof.Machine.execParamWritePaired c s
  | .paramWriteBlob c => Sys2Proof.Machine.execParamWriteBlob c s
  | .paramInfo c => Sys2Proof.Machine.execParamInfo c s
  | .cfgBegin c => Sys2Proof.Machine.execCfgBegin c s
  | .cfgCommit c => Sys2Proof.Machine.execCfgCommit c s
  | .cfgAbort c => Sys2Proof.Machine.execCfgAbort c s
  | .cmdAbort c => Sys2Proof.Machine.execCmdAbort c s
  | .imgOpen c => Sys2Proof.Machine.execImgOpen c s
  | .imgData c => Sys2Proof.Machine.execImgData c s
  | .imgClose c => Sys2Proof.Machine.execImgClose c s
  | .imgApply c => Sys2Proof.Machine.execImgApply c s
  | .imgInfo c => Sys2Proof.Machine.execImgInfo c s
  | .imgErase c => Sys2Proof.Machine.execImgErase c s
  | .fwOpen c => Sys2Proof.Machine.execFwOpen c s
  | .fwData c => Sys2Proof.Machine.execFwData c s
  | .fwClose c => Sys2Proof.Machine.execFwClose c s
  | .fwSwitch c => Sys2Proof.Machine.execFwSwitch c s
  | .evtFetch c => Sys2Proof.Machine.execEvtFetch c s
  | .commandTimeout c => Sys2Proof.Machine.execCommandTimeout c s
  | .batchDiscard id => Sys2Proof.Machine.execBatchDiscard id s
  | .blobAssemblyDiscard addr commander => Sys2Proof.Machine.execBlobAssemblyDiscard addr commander s
  | .hostSilence => Sys2Proof.Machine.execHostSilence s
  | .remoteCommanderSilence ch cdr => Sys2Proof.Machine.execRemoteCommanderSilence ch cdr s
  | .startGateAdmit => Sys2Proof.Machine.execStartGateAdmit s
  | .tickEdge => Sys2Proof.Machine.execTickEdge s
  | .setClose => Sys2Proof.Machine.execSetClose s
  | .liftRotDownlink slot periods => Sys2Proof.Machine.execLiftRotDownlink slot periods s
  | .liftApply copy periods => Sys2Proof.Machine.execLiftApply copy periods s
  | .liftSafe periods => Sys2Proof.Machine.execLiftSafe periods s
  | .liftRelease periods => Sys2Proof.Machine.execLiftRelease periods s
  | .liftKeepaliveDownlink => Sys2Proof.Machine.execLiftKeepaliveDownlink s
  | .liftKeepaliveUplink => Sys2Proof.Machine.execLiftKeepaliveUplink s
  | .liftRotUplink slot periods meas => Sys2Proof.Machine.execLiftRotUplink slot periods meas s
  | .liftSafeReport periods => Sys2Proof.Machine.execLiftSafeReport periods s
  | .liftUrg code periods => Sys2Proof.Machine.execLiftUrg code periods s
  | .liftEvt code periods => Sys2Proof.Machine.execLiftEvt code periods s
  | .liftFrameDiscard up raw periods what => Sys2Proof.Machine.execLiftFrameDiscard up raw periods what s
  | .liftLockLoss up => Sys2Proof.Machine.execLiftLockLoss up s
  | .liftSilence => Sys2Proof.Machine.execLiftSilence s
  | .snowploughStop rcUs => Sys2Proof.Machine.execSnowploughStop rcUs s
  | .liftErrorSecond => Sys2Proof.Machine.execLiftErrorSecond s
  | .conversionEnd ch smp => Sys2Proof.Machine.execConversionEnd ch smp s
  | .polaritySwap ch => Sys2Proof.Machine.execPolaritySwap ch s
  | .spareSlotEnd g smp => Sys2Proof.Machine.execSpareSlotEnd g smp s
  | .modulatorStuck ch => Sys2Proof.Machine.execModulatorStuck ch s
  | .spareCalibrationEnd g => Sys2Proof.Machine.execSpareCalibrationEnd g s
  | .blankingEdge k edge => Sys2Proof.Machine.execBlankingEdge k edge s
  | .blankingStuck k => Sys2Proof.Machine.execBlankingStuck k s
  | .excitationComplianceBreak ch => Sys2Proof.Machine.execExcitationComplianceBreak ch s
  | .afeStale ch => Sys2Proof.Machine.execAfeStale ch s
  | .guardFault gd => Sys2Proof.Machine.execGuardFault gd s
  | .afeRead c => Sys2Proof.Machine.execAfeRead c s
  | .afeLeadNow c => Sys2Proof.Machine.execAfeLeadNow c s
  | .dlxSweepStart n => Sys2Proof.Machine.execDlxSweepStart n s
  | .sweepPointEnd n p => Sys2Proof.Machine.execSweepPointEnd n p s
  | .dxsReferenceCheck r => Sys2Proof.Machine.execDxsReferenceCheck r s
  | .dxsCalibrationEnd n => Sys2Proof.Machine.execDxsCalibrationEnd n s
  | .dlxStale n => Sys2Proof.Machine.execDlxStale n s
  | .dlxRead c => Sys2Proof.Machine.execDlxRead c s
  | .dlxPointRead c => Sys2Proof.Machine.execDlxPointRead c s
  | .dlxProbeCal c => Sys2Proof.Machine.execDlxProbeCal c s
  | .dlxRefCapture c => Sys2Proof.Machine.execDlxRefCapture c s
  | .dlxRefSet c => Sys2Proof.Machine.execDlxRefSet c s
  | .dlxFit c => Sys2Proof.Machine.execDlxFit c s
  | .dlxCalRead c => Sys2Proof.Machine.execDlxCalRead c s
  | .filterTick n smps => Sys2Proof.Machine.execFilterTick n smps s
  | .freqGate n => Sys2Proof.Machine.execFreqGate n s
  | .currentLimit n => Sys2Proof.Machine.execCurrentLimit n s
  | .currentLimitEnd n => Sys2Proof.Machine.execCurrentLimitEnd n s
  | .pinThermalShutoff n => Sys2Proof.Machine.execPinThermalShutoff n s
  | .pinThermalRestart n => Sys2Proof.Machine.execPinThermalRestart n s
  | .openLoad n => Sys2Proof.Machine.execOpenLoad n s
  | .overLoad n => Sys2Proof.Machine.execOverLoad n s
  | .shortToSupply n => Sys2Proof.Machine.execShortToSupply n s
  | .reverseBlocking n => Sys2Proof.Machine.execReverseBlocking n s
  | .bankLow b => Sys2Proof.Machine.execBankLow b s
  | .fioRead c => Sys2Proof.Machine.execFioRead c s
  | .fioClear c => Sys2Proof.Machine.execFioClear c s
  | .fioCntClear c => Sys2Proof.Machine.execFioCntClear c s
  | .fioBankRead c => Sys2Proof.Machine.execFioBankRead c s
  | .vlvDelayEnd n => Sys2Proof.Machine.execVlvDelayEnd n s
  | .deferReject n => Sys2Proof.Machine.execDeferReject n s
  | .peakReached n us => Sys2Proof.Machine.execPeakReached n us s
  | .peakEnd n deferUs => Sys2Proof.Machine.execPeakEnd n deferUs s
  | .holdEnd n => Sys2Proof.Machine.execHoldEnd n s
  | .decayEnd n deferUs => Sys2Proof.Machine.execDecayEnd n deferUs s
  | .vlvTrip n hs => Sys2Proof.Machine.execVlvTrip n hs s
  | .vlvThermalShutoff n hs => Sys2Proof.Machine.execVlvThermalShutoff n hs s
  | .vlvThermalRestart n hs => Sys2Proof.Machine.execVlvThermalRestart n hs s
  | .openCoil n => Sys2Proof.Machine.execOpenCoil n s
  | .regulatorFault n => Sys2Proof.Machine.execRegulatorFault n s
  | .dutyBin n => Sys2Proof.Machine.execDutyBin n s
  | .f2WaitExpired n => Sys2Proof.Machine.execF2WaitExpired n s
  | .vlvPulse c => Sys2Proof.Machine.execVlvPulse c s
  | .vlvRead c => Sys2Proof.Machine.execVlvRead c s
  | .vlvClear c => Sys2Proof.Machine.execVlvClear c s
  | .ctlGate k => Sys2Proof.Machine.execCtlGate k s
  | .ctlComputeDone k eng bad => Sys2Proof.Machine.execCtlComputeDone k eng bad s
  | .ctlDeadline k => Sys2Proof.Machine.execCtlDeadline k s
  | .coastExpired k => Sys2Proof.Machine.execCoastExpired k s
  | .startSeedTimeout k => Sys2Proof.Machine.execStartSeedTimeout k s
  | .engineFault e => Sys2Proof.Machine.execEngineFault e s
  | .carveHandover home => Sys2Proof.Machine.execCarveHandover home s
  | .ctlCoefWrite c => Sys2Proof.Machine.execCtlCoefWrite c s
  | .ctlSetWrite c => Sys2Proof.Machine.execCtlSetWrite c s
  | .ctlSetSeal c => Sys2Proof.Machine.execCtlSetSeal c s
  | .ctlSrcSelect c => Sys2Proof.Machine.execCtlSrcSelect c s
  | .ctlResume c => Sys2Proof.Machine.execCtlResume c s
  | .ctlStateWrite c => Sys2Proof.Machine.execCtlStateWrite c s
  | .ctlRead c => Sys2Proof.Machine.execCtlRead c s
  | .ctlClearFlags c => Sys2Proof.Machine.execCtlClearFlags c s
  | .ctlAdmitCheck c => Sys2Proof.Machine.execCtlAdmitCheck c s
  | .ctlSetRead c => Sys2Proof.Machine.execCtlSetRead c s
  | .serviceStep => Sys2Proof.Machine.execServiceStep s
  | .waterBlockJournalled k => Sys2Proof.Machine.execWaterBlockJournalled k s
  | .aerEvaluation => Sys2Proof.Machine.execAerEvaluation s
  | .resumeRecord => Sys2Proof.Machine.execResumeRecord s
  | .autoRelease => Sys2Proof.Machine.execAutoRelease s
  | .svcStart c => Sys2Proof.Machine.execSvcStart c s
  | .svcStop c => Sys2Proof.Machine.execSvcStop c s
  | .svcAbort c => Sys2Proof.Machine.execSvcAbort c s
  | .svcNext c => Sys2Proof.Machine.execSvcNext c s
  | .svcRead c => Sys2Proof.Machine.execSvcRead c s
  | .svcRelease c => Sys2Proof.Machine.execSvcRelease c s
  | .svcFaultClear c => Sys2Proof.Machine.execSvcFaultClear c s
  | .svcRecipeLoad c => Sys2Proof.Machine.execSvcRecipeLoad c s
  | .svcWaterDose c => Sys2Proof.Machine.execSvcWaterDose c s
  | .svcLedgerRead c => Sys2Proof.Machine.execSvcLedgerRead c s
  | .svcLotOpen c => Sys2Proof.Machine.execSvcLotOpen c s
  | .svcLotClose c => Sys2Proof.Machine.execSvcLotClose c s
  | .busFrameReceived ch f => Sys2Proof.Machine.execBusFrameReceived ch f s
  | .rosterHeartbeat ch f => Sys2Proof.Machine.execRosterHeartbeat ch f s
  | .rosterData ch f => Sys2Proof.Machine.execRosterData ch f s
  | .rosterMiss r => Sys2Proof.Machine.execRosterMiss r s
  | .assignTimeout r => Sys2Proof.Machine.execAssignTimeout r s
  | .standbyRepeat r node => Sys2Proof.Machine.execStandbyRepeat r node s
  | .ownHeartbeat ch => Sys2Proof.Machine.execOwnHeartbeat ch s
  | .rmbRequestSegment ch f => Sys2Proof.Machine.execRmbRequestSegment ch f s
  | .rmbSegmentTimeout ch c => Sys2Proof.Machine.execRmbSegmentTimeout ch c s
  | .busReferenceReceived ch f => Sys2Proof.Machine.execBusReferenceReceived ch f s
  | .timeInfoReceived ch f => Sys2Proof.Machine.execTimeInfoReceived ch f s
  | .referenceSend ch k => Sys2Proof.Machine.execReferenceSend ch k s
  | .ttTimeMark ch col => Sys2Proof.Machine.execTtTimeMark ch col s
  | .txEnableExpired ch => Sys2Proof.Machine.execTxEnableExpired ch s
  | .referenceLost ch => Sys2Proof.Machine.execReferenceLost ch s
  | .busTxTake ch => Sys2Proof.Machine.execBusTxTake ch s
  | .busTxDone ch out ago => Sys2Proof.Machine.execBusTxDone ch out ago s
  | .busErrorDetected ch transmitting e ago => Sys2Proof.Machine.execBusErrorDetected ch transmitting e ago s
  | .busRecovered ch us => Sys2Proof.Machine.execBusRecovered ch us s
  | .transceiverDown ch => Sys2Proof.Machine.execTransceiverDown ch s
  | .transceiverUp ch => Sys2Proof.Machine.execTransceiverUp ch s
  | .busModeApply ch => Sys2Proof.Machine.execBusModeApply ch s
  | .busIdleParamApply ch => Sys2Proof.Machine.execBusIdleParamApply ch s
  | .rateDwellEnd ch => Sys2Proof.Machine.execRateDwellEnd ch s
  | .rateDetectTimeout ch => Sys2Proof.Machine.execRateDetectTimeout ch s
  | .busRateDetect c => Sys2Proof.Machine.execBusRateDetect c s
  | .busRead c => Sys2Proof.Machine.execBusRead c s
  | .busTxFlush c => Sys2Proof.Machine.execBusTxFlush c s
  | .busFrameUs c => Sys2Proof.Machine.execBusFrameUs c s
  | .busRoleAssign c => Sys2Proof.Machine.execBusRoleAssign c s
  | .busRoleRead c => Sys2Proof.Machine.execBusRoleRead c s
  | .gnssEpoch k meas sol => Sys2Proof.Machine.execGnssEpoch k meas sol s
  | .navUnitComplete u => Sys2Proof.Machine.execNavUnitComplete u s
  | .solutionTimeout => Sys2Proof.Machine.execSolutionTimeout s
  | .dtStep => Sys2Proof.Machine.execDtStep s
  | .holdoverUpdate => Sys2Proof.Machine.execHoldoverUpdate s
  | .leapSecond ofs dt => Sys2Proof.Machine.execLeapSecond ofs dt s
  | .timePulse k => Sys2Proof.Machine.execTimePulse k s
  | .sampleCountCheck b n => Sys2Proof.Machine.execSampleCountCheck b n s
  | .gsclkGap b => Sys2Proof.Machine.execGsclkGap b s
  | .agcCheck b codes => Sys2Proof.Machine.execAgcCheck b codes s
  | .bandDrop n b => Sys2Proof.Machine.execBandDrop n b s
  | .snapCaptureStart => Sys2Proof.Machine.execSnapCaptureStart s
  | .snapCaptureEnd l1 l5 lead => Sys2Proof.Machine.execSnapCaptureEnd l1 l5 lead s
  | .snapProcessDone found => Sys2Proof.Machine.execSnapProcessDone found s
  | .gnsRead c => Sys2Proof.Machine.execGnsRead c s
  | .gnsTimeSet c => Sys2Proof.Machine.execGnsTimeSet c s
  | .gnsSurveyRestart c => Sys2Proof.Machine.execGnsSurveyRestart c s
  | .gnsSnap c => Sys2Proof.Machine.execGnsSnap c s
  | .gnsSnapRelease c => Sys2Proof.Machine.execGnsSnapRelease c s
  | .gnsChRead c => Sys2Proof.Machine.execGnsChRead c s
  | .powerOn pins => Sys2Proof.Machine.execPowerOn pins s
  | .powerOnReset => Sys2Proof.Machine.execPowerOnReset s
  | .nrstRelease pins => Sys2Proof.Machine.execNrstRelease pins s
  | .startUp keyOk sigA sigB vlogMv test => Sys2Proof.Machine.execStartUp keyOk sigA sigB vlogMv test s
  | .liftStartTimeout => Sys2Proof.Machine.execLiftStartTimeout s
  | .fieldDieStartUp t => Sys2Proof.Machine.execFieldDieStartUp t s
  | .fieldWatchdogReset => Sys2Proof.Machine.execFieldWatchdogReset s
  | .wakeAttemptFail unit linkRuns => Sys2Proof.Machine.execWakeAttemptFail unit linkRuns s
  | .domainReturnTimeout n back => Sys2Proof.Machine.execDomainReturnTimeout n back s
  | .coreBrownoutLowPower asleepMs late => Sys2Proof.Machine.execCoreBrownoutLowPower asleepMs late s
  | .coreBrownoutFull => Sys2Proof.Machine.execCoreBrownoutFull s
  | .chaletContentLoss => Sys2Proof.Machine.execChaletContentLoss s
  | .regulatorReady => Sys2Proof.Machine.execRegulatorReady s
  | .sleepReq c => Sys2Proof.Machine.execSleepReq c s
  | .sleepEntry => Sys2Proof.Machine.execSleepEntry s
  | .padRelease c => Sys2Proof.Machine.execPadRelease c s
  | .pwrRead c => Sys2Proof.Machine.execPwrRead c s
  | .wake src late => Sys2Proof.Machine.execWake src late s
  | .fieldStepBegin mv => Sys2Proof.Machine.execFieldStepBegin mv s
  | .fieldStepEnd mv => Sys2Proof.Machine.execFieldStepEnd mv s
  | .f3ClassShed c => Sys2Proof.Machine.execF3ClassShed c s
  | .f3ClassRelease c => Sys2Proof.Machine.execF3ClassRelease c s
  | .logicStepBegin mv => Sys2Proof.Machine.execLogicStepBegin mv s
  | .logicStepEnd mv => Sys2Proof.Machine.execLogicStepEnd mv s
  | .vfldHigh mv => Sys2Proof.Machine.execVfldHigh mv s
  | .housekeepingRound r => Sys2Proof.Machine.execHousekeepingRound r s
  | .thermalCapStep => Sys2Proof.Machine.execThermalCapStep s
  | .lockstepMismatch us differs => Sys2Proof.Machine.execLockstepMismatch us differs s
  | .supervisorHeartbeatMiss => Sys2Proof.Machine.execSupervisorHeartbeatMiss s
  | .patrolStall => Sys2Proof.Machine.execPatrolStall s
  | .eccUncorrectable region addr other => Sys2Proof.Machine.execEccUncorrectable region addr other s
  | .quarantineDone u passed => Sys2Proof.Machine.execQuarantineDone u passed s
  | .groomingPass => Sys2Proof.Machine.execGroomingPass s
  | .groomingCommit p => Sys2Proof.Machine.execGroomingCommit p s
  | .controlDieShutdown sensor value => Sys2Proof.Machine.execControlDieShutdown sensor value s
  | .fieldDieShutdown => Sys2Proof.Machine.execFieldDieShutdown s
  | .fieldLatchClear => Sys2Proof.Machine.execFieldLatchClear s
  | .flashOperationDone => Sys2Proof.Machine.execFlashOperationDone s
  | .hltRead c => Sys2Proof.Machine.execHltRead c s
  | .hltGroomNow c => Sys2Proof.Machine.execHltGroomNow c s
  | .hltLogRead c => Sys2Proof.Machine.execHltLogRead c s
  | .hltDemandClear c => Sys2Proof.Machine.execHltDemandClear c s
  | .lotRecordSigned => Sys2Proof.Machine.execLotRecordSigned s
  | .idAttest c => Sys2Proof.Machine.execIdAttest c s
  | .idRead c => Sys2Proof.Machine.execIdRead c s
  | .idEnrol c => Sys2Proof.Machine.execIdEnrol c s
  | .idRecordFetch c => Sys2Proof.Machine.execIdRecordFetch c s
  | .idNonce c => Sys2Proof.Machine.execIdNonce c s
  | .readTransaction mosi => Sys2Proof.Machine.execReadTransaction mosi s
  | .openLoadEnd n => Sys2Proof.Machine.execOpenLoadEnd n s
  | .overLoadEnd n => Sys2Proof.Machine.execOverLoadEnd n s
  | .shortToSupplyEnd n => Sys2Proof.Machine.execShortToSupplyEnd n s
  | .reverseBlockingEnd n => Sys2Proof.Machine.execReverseBlockingEnd n s
  | .openCoilEnd n => Sys2Proof.Machine.execOpenCoilEnd n s
  | .flashRefreshDue sectors discarded => Sys2Proof.Machine.execFlashRefreshDue sectors discarded s
  | .signalAcquisition sys sv elev bands => Sys2Proof.Machine.execSignalAcquisition sys sv elev bands s

end Sys2Proof.Machine
end

