-- ==== Sys2Proof/Safety.lean ====
section
/-!
DEFINITION. Safety.lean: what a good state, a completed command and a command ready to run are, in the terms the statements
use.
-/
namespace Sys2Proof

open Machine

/-- Both memories of the block are in canonical form. -/
def MemOk (s : State) : Prop := s.mem.wf ∧ s.snap.wf

/-- A command leaves the queue of waiting commands and both memories as they are. -/
def KeepsMemory (s t : State) : Prop := t.pending = s.pending ∧ t.mem = s.mem ∧ t.snap = s.snap

/-- A command answers a next state that differs in the device alone, which is then `d`. -/
def Moves (i : Instr) (s : State) (d : Dev) : Prop := exec i s = .next { s with dev := d }

/-- A command leaves the device as `d`, and its ring writes follow. -/
def Settles (i : Instr) (s : State) (d : Dev) : Prop := exec i s = .next (settle { s with dev := d })

/-- A command leaves the device as `d`; its ring writes follow, and the device takes the entries it can. -/
def Takes (i : Instr) (s : State) (d : Dev) : Prop := exec i s = .next (takeAll (settle { s with dev := d }))

/-- `c` is the live command an id names, it has an opcode, and it is next in order. -/
def Ready (s : State) (id : CmdId) (op : Nat) (c : Cmd) : Prop :=
  liveCmd s.dev id = some c ∧ c.opcode = op ∧ startable s.dev.cmd.live id = true

/-- A command row answers its ready command with ST_OK and a result, and changes nothing else. -/
def Answers (i : Instr) (s : State) (c : Cmd) (result : List Byte) : Prop := Moves i s (complete c stOk 0 result s.dev)

/-- A command row refuses its ready command with a status and detail, and changes nothing else. -/
def Refuses (i : Instr) (s : State) (c : Cmd) (status detail : Nat) : Prop := Moves i s (complete c status detail [] s.dev)

/-- A flash command may begin: no other flash operation is before it, and step L3 does not hold it (R86, R87, R509). -/
def FlashFree (s : State) : Prop := s.dev.hlt.flash = [] ∧ s.dev.pwr.lStep < 3

/-- A flash command that may not begin keeps its place among the flash operations and waits (R86, R87, R509). -/
def flashQueued (c : Cmd) (d : Dev) : Dev :=
  waitOn c.id { d with hlt := { d.hlt with
    flash := d.hlt.flash ++ [{ cmd := some c.id, kind := 5, ref := 0, result := [], wr := none }] } }

/-- The frame of a kind is the one the downlink sends, and the field die, in lock, finds it at the SEQ it expects so many frame
periods after the one before (R106, R107, R112). -/
def DownUsed (k : LiftFrame) (periods : Nat) (d : Dev) : Prop :=
  downOn d = true ∧ downIs k d = true ∧ d.pwr.fieldPow = true ∧
    ∃ x, d.lift.down = .locked x ∧ (x + periods) % 4096 = (d.lift.downSeq + periods) % 4096

/-- What a used downlink frame leaves of the link's own counts, before what it carries. -/
def downTaken (periods : Nat) (d : Dev) : Dev :=
  validNote (liftMod (fun l => { l with down := .locked ((d.lift.downSeq + periods) % 4096) }) (downCount periods d))

/-- The frame of a kind is the one the uplink sends so many frame periods on, and the control die, in lock, finds it at the SEQ it
expects (R106, R107, R111). -/
def UpUsed (k : LiftFrame) (periods : Nat) (d : Dev) : Prop :=
  fieldRuns d = true ∧ downOn d = true ∧ upIs k periods d = true ∧
    ∃ x, d.lift.up = .locked x ∧ (x + periods) % 4096 = (d.lift.upSeq + periods) % 4096

/-- What a used uplink frame leaves of the link's own counts, and the end of a silence, before what it carries; the mask frame that
is sent is closed (R121). -/
def upTaken (k : LiftFrame) (periods : Nat) (d : Dev) : Dev :=
  upValid (liftMod (fun l => { l with up := .locked ((d.lift.upSeq + periods) % 4096) }) (frameClose k (upCount periods d)))

/-- The rows that may write a ring or lose the content of a memory; every other row leaves both memories as they are. -/
def touchesMemory : Instr → Bool
  | .registerWrite _ | .hstBootCtrlReset _ | .hstBootCtrlLoader _ | .hstIntStatusWrite _ | .hstIntForceWrite _ |
    .hstLinkErrsRead | .hstDtLoRead | .hstTickLoRead | .qSizeWrite _ _ | .qCtrlWrite _ _ | .qDoorbellWrite _ _ |
    .ringWindowWrite _ _ | .readTransaction _ | .paramWrite _ | .paramWritePaired _ | .paramWriteBlob _ |
    .evtFetch _ | .startGateAdmit | .tickEdge | .liftRotDownlink _ _ | .liftApply _ _ | .liftRotUplink _ _ _ |
    .ctlComputeDone _ _ _ | .busFrameReceived _ _ | .rosterHeartbeat _ _ | .rosterData _ _ | .rmbRequestSegment _ _ |
    .busReferenceReceived _ _ | .timeInfoReceived _ _ | .busTxTake _ | .busTxDone _ _ _ | .busErrorDetected _ _ _ _ |
    .transceiverDown _ | .busModeApply _ | .busIdleParamApply _ | .busTxFlush _ | .gnssEpoch _ _ _ |
    .navUnitComplete _ | .sampleCountCheck _ _ | .gsclkGap _ | .snapCaptureEnd _ _ _ | .snapProcessDone _ |
    .powerOnReset | .nrstRelease _ | .startUp _ _ _ _ _ | .liftStartTimeout | .fieldDieStartUp _ |
    .wakeAttemptFail _ _ | .domainReturnTimeout _ _ | .coreBrownoutLowPower _ _ | .coreBrownoutFull |
    .chaletContentLoss | .sleepReq _ | .wake _ _ | .logicStepBegin _ | .logicStepEnd _ | .housekeepingRound _ |
    .lockstepMismatch _ _ | .supervisorHeartbeatMiss | .controlDieShutdown _ _ | .flashOperationDone |
    .hltLogRead _ | .lotRecordSigned | .idEnrol _ | .idRecordFetch _ => true
  | _ => false

/-- The rows that run a host or remote command, with the opcode each runs (R93 and group 0x10 + S of each chapter). -/
def commandRow : Instr → Option (CmdId × Nat)
  | .nop c => some (c, 0x0001)
  | .devInfo c => some (c, 0x0002)
  | .run c => some (c, 0x0010)
  | .stop c => some (c, 0x0011)
  | .safeNow c => some (c, 0x0012)
  | .resetReq c => some (c, 0x0013)
  | .paramRead c => some (c, 0x0100)
  | .paramWrite c => some (c, 0x0101)
  | .paramWritePaired c => some (c, 0x0102)
  | .paramWriteBlob c => some (c, 0x0103)
  | .paramInfo c => some (c, 0x0104)
  | .cfgBegin c => some (c, 0x0110)
  | .cfgCommit c => some (c, 0x0111)
  | .cfgAbort c => some (c, 0x0112)
  | .cmdAbort c => some (c, 0x0200)
  | .imgOpen c => some (c, 0x0300)
  | .imgData c => some (c, 0x0301)
  | .imgClose c => some (c, 0x0302)
  | .imgApply c => some (c, 0x0303)
  | .imgInfo c => some (c, 0x0304)
  | .imgErase c => some (c, 0x0305)
  | .fwOpen c => some (c, 0x0310)
  | .fwData c => some (c, 0x0311)
  | .fwClose c => some (c, 0x0312)
  | .fwSwitch c => some (c, 0x0313)
  | .evtFetch c => some (c, 0x0400)
  | .afeRead c => some (c, 0x1201)
  | .afeLeadNow c => some (c, 0x1202)
  | .dlxRead c => some (c, 0x1301)
  | .dlxPointRead c => some (c, 0x1302)
  | .dlxProbeCal c => some (c, 0x1303)
  | .dlxRefCapture c => some (c, 0x1304)
  | .dlxRefSet c => some (c, 0x1305)
  | .dlxFit c => some (c, 0x1306)
  | .dlxCalRead c => some (c, 0x1307)
  | .fioRead c => some (c, 0x1101)
  | .fioClear c => some (c, 0x1102)
  | .fioCntClear c => some (c, 0x1103)
  | .fioBankRead c => some (c, 0x1104)
  | .vlvPulse c => some (c, 0x1401)
  | .vlvRead c => some (c, 0x1402)
  | .vlvClear c => some (c, 0x1403)
  | .ctlCoefWrite c => some (c, 0x1501)
  | .ctlSetWrite c => some (c, 0x1502)
  | .ctlSetSeal c => some (c, 0x1503)
  | .ctlSrcSelect c => some (c, 0x1504)
  | .ctlResume c => some (c, 0x1505)
  | .ctlStateWrite c => some (c, 0x1506)
  | .ctlRead c => some (c, 0x1507)
  | .ctlClearFlags c => some (c, 0x1508)
  | .ctlAdmitCheck c => some (c, 0x1509)
  | .ctlSetRead c => some (c, 0x150A)
  | .svcStart c => some (c, 0x1601)
  | .svcStop c => some (c, 0x1602)
  | .svcAbort c => some (c, 0x1603)
  | .svcNext c => some (c, 0x1604)
  | .svcRead c => some (c, 0x1605)
  | .svcRelease c => some (c, 0x1606)
  | .svcFaultClear c => some (c, 0x1607)
  | .svcRecipeLoad c => some (c, 0x1608)
  | .svcWaterDose c => some (c, 0x1609)
  | .svcLedgerRead c => some (c, 0x160A)
  | .svcLotOpen c => some (c, 0x160B)
  | .svcLotClose c => some (c, 0x160C)
  | .busRateDetect c => some (c, 0x1701)
  | .busRead c => some (c, 0x1702)
  | .busTxFlush c => some (c, 0x1703)
  | .busFrameUs c => some (c, 0x1704)
  | .busRoleAssign c => some (c, 0x1705)
  | .busRoleRead c => some (c, 0x1706)
  | .gnsRead c => some (c, 0x1801)
  | .gnsTimeSet c => some (c, 0x1802)
  | .gnsSurveyRestart c => some (c, 0x1803)
  | .gnsSnap c => some (c, 0x1804)
  | .gnsSnapRelease c => some (c, 0x1805)
  | .gnsChRead c => some (c, 0x1806)
  | .sleepReq c => some (c, 0x1901)
  | .padRelease c => some (c, 0x1902)
  | .pwrRead c => some (c, 0x1903)
  | .hltRead c => some (c, 0x1A01)
  | .hltGroomNow c => some (c, 0x1A02)
  | .hltLogRead c => some (c, 0x1A03)
  | .hltDemandClear c => some (c, 0x1A04)
  | .idAttest c => some (c, 0x1B01)
  | .idRead c => some (c, 0x1B02)
  | .idEnrol c => some (c, 0x1B03)
  | .idRecordFetch c => some (c, 0x1B04)
  | .idNonce c => some (c, 0x1B05)
  | _ => none

end Sys2Proof
end

