-- ==== Sys2Proof/Certificates/Slice0/Obligations.lean ====
section
/-!
DEFINITION. Certificates/Slice0/Obligations.lean: what is claimed of the model, one statement each. A docstring names the rules of
spec/ a statement rests on; where a clause rests on a choice of the model it names the log entry.
-/
open Sys2Proof Sys2Proof.Machine

/-- A step runs the command that has waited longest; on an empty queue it idles (model choice, log entry 6)
(95_what_each_step_holds.md). -/
def Obligations.StepRunsFrontOrIdles : Prop :=
  (∀ (c : Instr) (rest : List Instr) (s : State), s.pending = c :: rest → step s = exec c { s with pending := rest }) ∧
  (∀ s : State, s.pending = [] → step s = .next s)

/-- The state after the power-on reset (R40, R24, R69, R71, R490). -/
def Obligations.ResetState : Prop :=
  State.reset.pending = [] ∧ MemOk State.reset ∧ State.reset.mem = [] ∧ State.reset.snap = [] ∧
    State.reset.dev.gate.bib = 0 ∧ State.reset.dev.gate.wrap = 0 ∧ (∀ p, State.reset.dev.gate.ports.get p = []) ∧
    State.reset.dev.time.tick = 0 ∧ State.reset.dev.cmd.live = [] ∧
    (∀ q : Fin 20, (State.reset.dev.rings.get q).en = false ∧ (State.reset.dev.rings.get q).head = 0 ∧
      (State.reset.dev.rings.get q).tail = 0 ∧ (State.reset.dev.rings.get q).size = ringDefault q) ∧
    State.reset.dev.host.intStatus = 0 ∧ State.reset.dev.host.intEnable = 0 ∧ State.reset.dev.host.hrdy = false ∧
    State.reset.dev.host.resetSeen = true ∧
    (∀ n : Fin 11, State.reset.dev.pwr.dom.get n = if n = 0 then 0 else 2)

/-- Every step keeps both memories in canonical form (02_host_mailboxes.md, 11_gnss_time.md). -/
def Obligations.MemoryStaysCanonical : Prop :=
  ∀ s t : State, MemOk s → step s = .next t → MemOk t

/-- Every command answers a next state and leaves the queue alone (95_what_each_step_holds.md). -/
def Obligations.EveryCommandCompletes : Prop :=
  ∀ (i : Instr) (s : State), ∃ t, exec i s = .next t ∧ t.pending = s.pending ∧
    (touchesMemory i = false → t.mem = s.mem ∧ t.snap = s.snap)

/-- A ring write changes the bytes of its slot alone, and taking entries changes no memory (R71, R72, R73, R76, R79,
R409). -/
def Obligations.RingWritesFrame : Prop :=
  (∀ (s : State) (q : Nat) (bytes : List Byte), q < 18 →
    let r := ringOf s.dev q
    let slot := r.slotAt q r.tail
    let t := settleOne s (.push q bytes)
    (r.en = false → t = s) ∧
    (r.en = true → r.free = 0 → t.mem = s.mem ∧ ringOf t.dev q = { r with aux := (r.aux + 1) % 2 ^ 32 }) ∧
    (r.en = true → r.free ≠ 0 → memRead t.mem slot (ringEntry q) = padTo (ringEntry q) bytes ∧
      (∀ a, a < slot ∨ slot + ringEntry q ≤ a → memGet t.mem a = memGet s.mem a) ∧
      ringOf t.dev q = { r with tail := (r.tail + 1) % 65536 })) ∧
  (∀ (s : State) (q n : Nat) (bytes : List Byte),
    let slot := (ringOf s.dev q).slotAt q n
    let t := settleOne s (.at q n bytes)
    ((ringOf s.dev q).en = false → t = s) ∧
    ((ringOf s.dev q).en = true → memRead t.mem slot (ringEntry q) = padTo (ringEntry q) bytes ∧
      ∀ a, a < slot ∨ slot + ringEntry q ≤ a → memGet t.mem a = memGet s.mem a)) ∧
  (∀ (s : State) (q n ofs : Nat) (bytes : List Byte),
    let first := (ringOf s.dev q).slotAt q n + ofs
    let t := settleOne s (.part q n ofs bytes)
    memRead t.mem first bytes.length = bytes ∧
      ∀ a, a < first ∨ first + bytes.length ≤ a → memGet t.mem a = memGet s.mem a) ∧
  (∀ s : State,
    (settle s).pending = s.pending ∧ (settle s).snap = s.snap ∧
      (settle s).dev = { s.dev with host := (settle s).dev.host, rings := (settle s).dev.rings, out := [] } ∧
    (takeAll s).pending = s.pending ∧ (takeAll s).mem = s.mem ∧ (takeAll s).snap = s.snap ∧
      (takeAll s).dev = { s.dev with
        host := (takeAll s).dev.host, rings := (takeAll s).dev.rings, gate := (takeAll s).dev.gate,
        cmd := (takeAll s).dev.cmd })

/-- A command row without its ready command has no effect (R80, R83, R93). -/
def Obligations.CommandRowsNeedTheirCommand : Prop :=
  ∀ (i : Instr) (id : CmdId) (op : Nat) (s : State), commandRow i = some (id, op) → (∀ c, ¬ Ready s id op c) →
    exec i s = .next s ∨ exec i s = .next (settle s)

/-- A well-formed host write is applied whole, and each write row is the write of its register (R57, R59, R60, R66, R67,
R68, R72, R73, R74, R75, R78, R97). -/
def Obligations.HostWritesAreApplied : Prop :=
  (∀ (s : State) (a : Nat) (vs : List Nat), s.dev.host.hrdy = true → a < 65536 → vs ≠ [] → vs.length ≤ 64 →
    (∀ v ∈ vs, v < 2 ^ 32) → inRow a vs.length = true → resetsDevice (writeBytes a vs) s.dev = false →
    exec (.registerWrite (writeBytes a vs)) s = .next (takeAll (settle
      (let x := windowWrites a vs { s with dev := healthCheck s.dev }
       let miso := padTo (5 + 4 * vs.length) (le 1 (statusByte (healthCheck s.dev)))
       { x.2 with dev := linkEnd (if x.1 then .good else .addr) miso x.2.dev })))) ∧
  (∀ (s : State) (v : Word) (q : Fin 20) (a : BitVec 16) (ws : List Word),
    exec (.hstBootCtrlLoader v) s = exec (.registerWrite (writeBytes 0x4 [v.toNat])) s ∧
    exec (.hstIntStatusWrite v) s = exec (.registerWrite (writeBytes 0x10 [v.toNat])) s ∧
    exec (.hstIntForceWrite v) s = exec (.registerWrite (writeBytes 0x12 [v.toNat])) s ∧
    exec (.qSizeWrite q v) s = exec (.registerWrite (writeBytes (0x100 + 8 * q + 1) [v.toNat])) s ∧
    exec (.qDoorbellWrite q v) s = exec (.registerWrite (writeBytes (0x100 + 8 * q + 4) [v.toNat])) s ∧
    exec (.qCtrlWrite q v) s = exec (.registerWrite (writeBytes (0x100 + 8 * q + 5) [v.toNat])) s ∧
    (ws ≠ [] → ws.length ≤ 64 →
      exec (.ringWindowWrite a ws) s = exec (.registerWrite (writeBytes a.toNat (ws.map (·.toNat)))) s)) ∧
  (∀ (s : State) (v : Nat) (q : Fin 18),
    windowWrite 0x10 v s = (true, { s with dev := intClear v s.dev }) ∧
    windowWrite 0x12 v s = (true, { s with dev := intSet (v &&& intBits) s.dev }) ∧
    windowWrite (0x100 + 8 * q + 1) v s = (true, { s with dev := sizeWrite q v s.dev }) ∧
    windowWrite (0x100 + 8 * q + 4) v s = (true, { s with dev := doorbell q v s.dev }) ∧
    windowWrite (0x100 + 8 * q + 5) v s = (true, { s with dev := ctrlWrite q v s.dev }) ∧
    (v / 65536 = 0x7C19 → bitOf v 1 = true →
      windowWrite 0x4 v s = (true, { s with dev := { s.dev with host := { s.dev.host with loaderNext := true } } })))

/-- A doorbell advances the host's index, or sets DB_ERR and nothing else of the ring (R73, R74). -/
def Obligations.DoorbellMovesTheIndex : Prop :=
  ∀ (d : Dev) (q : Fin 18) (v : Nat),
    (hostProduced q = true → ((ringOf d q).tail + 65536 - (ringOf d q).back q) % 65536 ≤
          (v % 65536 + 65536 - (ringOf d q).back q) % 65536 →
        (v % 65536 + 65536 - (ringOf d q).back q) % 65536 ≤ (ringOf d q).size →
        ringOf (doorbell q v d) q = { ringOf d q with tail := v % 65536 }) ∧
    (hostProduced q = false → (v % 65536 + 65536 - (ringOf d q).head) % 65536 ≤ (ringOf d q).count →
        (ringOf (doorbell q v d) q).head = v % 65536 ∧ (ringOf (doorbell q v d) q).tail = (ringOf d q).tail) ∧
    ((if hostProduced q then
        ¬(((ringOf d q).tail + 65536 - (ringOf d q).back q) % 65536 ≤ (v % 65536 + 65536 - (ringOf d q).back q) % 65536 ∧
          (v % 65536 + 65536 - (ringOf d q).back q) % 65536 ≤ (ringOf d q).size)
      else ¬((v % 65536 + 65536 - (ringOf d q).head) % 65536 ≤ (ringOf d q).count)) →
      ringOf (doorbell q v d) q = { ringOf d q with dbErr := true } ∧
        ∀ p : Fin 18, p ≠ q → ringOf (doorbell q v d) p = ringOf d p)

/-- A write of the key and RESET to HST_BOOT_CTRL resets both dies (R66, R490). -/
def Obligations.HostResetResetsTheDevice : Prop :=
  ∀ (s : State) (v : Word), s.dev.host.hrdy = true → v.toNat / 65536 = 0x7C19 → bitOf v.toNat 0 = true →
    ∃ t, exec (.hstBootCtrlReset v) s = .next t ∧ t.pending = s.pending ∧ t.snap = [] ∧ t.dev.host.cause = 0x06 ∧
      t.dev.host.stage = 0 ∧ t.dev.host.hrdy = false ∧ t.dev.host.resetSeen = true ∧ t.dev.cmd.live = [] ∧
      (∀ q : Fin 20, (t.dev.rings.get q).en = false) ∧ t.dev.pwr.fieldUp = false ∧ t.dev.pwr.dom.get 0 = 0

/-- A write with a bad CRC changes nothing but the link's error state (R57, R60, R63, R66). -/
def Obligations.BadCrcWritesNothing : Prop :=
  ∀ (s : State) (mosi : List Byte) (op : Byte) (rest : List Byte), s.dev.host.hrdy = true → mosi = op :: rest →
    128 ≤ op.toNat → (op.toNat / 64 % 2 = 0 → op.toNat % 64 = 0) → mosi.length = 5 + 4 * (op.toNat % 64 + 1) →
    crc16 (mosi.take (3 + 4 * (op.toNat % 64 + 1))) ≠ deBig (mosi.drop (3 + 4 * (op.toNat % 64 + 1))) →
    exec (.registerWrite mosi) s = .next (takeAll (settle
      { s with dev := linkEnd .crc (padTo mosi.length (le 1 (statusByte (healthCheck s.dev)))) (healthCheck s.dev) }))

/-- A well-formed host read returns the status byte, the word and their CRC (R58, R59, R61, R63, R66). -/
def Obligations.HostReadsReturnTheirWord : Prop :=
  (∀ (s : State) (a : Nat), s.dev.host.hrdy = true → a < 65536 →
    (windowRead { s with dev := healthCheck s.dev } a a).2 = true → windowBad (healthCheck s.dev) a = false →
    (let d := healthCheck s.dev
     let w := (windowRead { s with dev := d } a a).1
     let st := le 1 (statusByte d)
     let reply := st ++ [0, 0, 0, 0, 0] ++ beBytes 4 w.toNat ++ beBytes 2 (crc16 (st ++ beBytes 4 w.toNat))
     exec (.readTransaction (readBytes a)) s =
       .next (takeAll (settle { s with dev := linkEnd .good reply (readEffects a 1 false d) })))) ∧
  (∀ s : State, exec .hstLinkErrsRead s = exec (.readTransaction (readBytes 0xC)) s ∧
    exec .hstDtLoRead s = exec (.readTransaction (readBytes 8)) s ∧
    exec .hstTickLoRead s = exec (.readTransaction (readBytes 0xA)) s) ∧
  (∀ (s : State) (d : Dev), (windowRead s 8 8).1 = w32 (dtNs s.dev) ∧ (windowRead s 10 10).1 = w32 s.dev.time.tick ∧
    (windowRead s 12 12).1 = w32 (65536 * s.dev.host.crcCount + s.dev.host.faCount) ∧
    (readEffects 8 1 false d).host.dtHi = w32 (dtNs d / 2 ^ 32) ∧
    (readEffects 10 1 false d).host.tickHi = w32 (d.time.tick / 2 ^ 32) ∧
    (readEffects 12 1 false d).host.crcCount = 0 ∧ (readEffects 12 1 false d).host.faCount = 0)

/-- The read and information commands answer what the spec lays out and change nothing else (R188, R226, R266, R301, R355,
R437, R479, R512, R551, R566, R93, R593). -/
def Obligations.ReadAndInfoCommands : Prop :=
  ((∀ (s : State) (id : CmdId) (c : Cmd),
    (Ready s id 0x1201 c → (∀ ch : Fin 32, targetN c = ch → Answers (.afeRead id) s c
        (le 4 (s.dev.afe.ch.get ch).result.toNat ++ le 8 (s.dev.afe.ch.get ch).resTick ++ le 4 (afeState s.dev ch))) ∧
      (32 ≤ targetN c → Refuses (.afeRead id) s c stRange 0)) ∧
    (Ready s id 0x1301 c → (∀ n : Fin 4, targetN c = n → Answers (.dlxRead id) s c
        (le 4 (s.dev.dlx.ch.get n).result.toNat ++ le 8 (s.dev.dlx.ch.get n).resTick ++ le 2 (s.dev.dlx.ch.get n).density ++
          le 2 (accepted (s.dev.dlx.ch.get n)).length ++ le 4 (dlxState s.dev n))) ∧
      (4 ≤ targetN c → Refuses (.dlxRead id) s c stRange 0)) ∧
    (Ready s id 0x1101 c → (∀ n : Fin 64, targetN c = n → Answers (.fioRead id) s c
        (le 4 (fioState s.dev n) ++ le 4 (s.dev.fio.pin.get n).cdCount ++ le 4 (s.dev.fio.pin.get n).freq ++
          le 8 (max (s.dev.fio.bank.get (pinBank n)).imgTick (s.dev.fio.pin.get n).cntRcv))) ∧
      (64 ≤ targetN c → Refuses (.fioRead id) s c stRange 0)) ∧
    (Ready s id 0x1104 c → (∀ b : Fin 8, targetN c = b → Answers (.fioBankRead id) s c
        (((List.range 8).flatMap fun k => le 1 (imageByte (vAt s.dev.fio.pin (8 * b.val + k) Pin.reset).seen)) ++
          le 4 (vAt s.dev.pwr.vfb b 0 * 200) ++ le 1 (pairV s.dev kFioOutEn b) ++ [0, 0, 0] ++
          le 4 (s.dev.fio.bank.get b).imgTick)) ∧
      (8 ≤ targetN c → Refuses (.fioBankRead id) s c stRange 0)) ∧
    (Ready s id 0x1402 c → (∀ n : Fin 16, targetN c = n →
        (claimed s.dev (64 + n) = false → vlvSlave s.dev n = false → Answers (.vlvRead id) s c
          (le 4 (s.dev.vlv.ch.get n).status.toNat ++ le 4 (s.dev.vlv.ch.get n).last.toNat ++ le 2 (dutyNow s.dev n) ++ [0, 0] ++
            le 8 (s.dev.vlv.ch.get n).statTick)) ∧
        (claimed s.dev (64 + n) = true → Refuses (.vlvRead id) s c stRefused 0x40) ∧
        (claimed s.dev (64 + n) = false → vlvSlave s.dev n = true → Refuses (.vlvRead id) s c stRefused 0x43)) ∧
      (16 ≤ targetN c → Refuses (.vlvRead id) s c stRange 0))) ∧
  (∀ (s : State) (id : CmdId) (c : Cmd),
    (Ready s id 0x1507 c → (∀ i : Fin 64, targetN c = i → (ctlInst s.dev i).base ≠ .free → Answers (.ctlRead id) s c
        (le 4 (ctlStateWord s.dev i) ++ le 4 (ctlFlags s.dev i) ++ le 8 (ctlInst s.dev i).lastGate ++
          le 4 (toBits 32 ((((ctlInst s.dev i).next.map (·.1)).getD (ctlInst s.dev i).u).getD 0 0)))) ∧
      (∀ i : Fin 64, targetN c = i → (ctlInst s.dev i).base = .free → Refuses (.ctlRead id) s c 5 0x53) ∧
      (64 ≤ targetN c → Refuses (.ctlRead id) s c stRange 0)) ∧
    (Ready s id 0x1702 c → (∀ ch : Fin 2, c.target % 256 = ch → Answers (.busRead id) s c
        (le 4 (busState (busCh s.dev ch)) ++ le 4 ((busCh s.dev ch).stats.get 0) ++ le 4 ((busCh s.dev ch).stats.get 1) ++
          tickBytes s.dev)) ∧
      (2 ≤ c.target % 256 → Refuses (.busRead id) s c stRange 0)) ∧
    (Ready s id 0x1706 c → (c.target % 256 < 96 → Answers (.busRoleRead id) s c
        (bytesOf (busRead s.dev (addrOf kBusRoleState (c.target % 256))) ++ le 4 (roleEpoch s.dev (c.target % 256)) ++
          padTo 3 ((roleOf s.dev (c.target % 256)).spares.map fun n => BitVec.ofNat 8 n) ++ le 1 0 ++
          le 8 (roleOf s.dev (c.target % 256)).hbDt)) ∧
      (96 ≤ c.target % 256 → Refuses (.busRoleRead id) s c stRange 0)) ∧
    (Ready s id 0x1801 c → Answers (.gnsRead id) s c
      (le 8 (dtNs s.dev) ++ le 2 (timeWord s.dev) ++ le 1 (sat8 s.dev.gns.sats) ++ le 1 s.dev.gns.steps ++
        le 4 (gnsState s.dev) ++ le 4 (uncNs s.dev))) ∧
    (Ready s id 0x1806 c → (∀ n : Fin 32, byteAt c.payload 0 = n → Answers (.gnsChRead id) s c
        (le 4 (chState (s.dev.gns.chans.get n)) ++ le 4 (toBits 32 ((s.dev.gns.chans.get n).doppler.get 0)) ++
          le 4 (toBits 32 ((s.dev.gns.chans.get n).doppler.get 1)) ++ le 4 (lockSec (s.dev.gns.chans.get n) 0) ++
          le 4 (lockSec (s.dev.gns.chans.get n) 1))) ∧
      (32 ≤ byteAt c.payload 0 → Refuses (.gnsChRead id) s c stRange 0)) ∧
    (Ready s id 0x1903 c → Answers (.pwrRead id) s c
      (le 4 (mirPwr s.dev) ++ le 4 (mirShed s.dev) ++ le 2 s.dev.pwr.vlog ++ le 2 (s.dev.pwr.vfld / 10) ++ tickBytes s.dev)) ∧
    (Ready s id 0x1A01 c → Answers (.hltRead id) s c
      (le 4 (mirHealth s.dev) ++ le 4 (mirXover s.dev) ++ le 4 (throttleWord s.dev) ++ tickBytes s.dev)) ∧
    (Ready s id 0x1B02 c →
      (byteAt c.payload 0 = 0 → Answers (.idRead id) s c (Config.certificate.drop (field c.payload 2 2))) ∧
      (byteAt c.payload 0 = 1 → Answers (.idRead id) s c (partKey.drop (field c.payload 2 2))) ∧
      (byteAt c.payload 0 = 2 → Answers (.idRead id) s c ((binding s.dev).drop (field c.payload 2 2))) ∧
      (byteAt c.payload 0 = 4 → Answers (.idRead id) s c
        ((alGet s.dev.idn.statements c.commander []).drop (field c.payload 2 2))) ∧
      (4 < byteAt c.payload 0 → Refuses (.idRead id) s c stRange 0)))) ∧
  (∀ (s : State) (id : CmdId) (c : Cmd),
    (Ready s id 0x0001 c → Answers (.nop id) s c []) ∧
    (Ready s id 0x0002 c → Answers (.devInfo id) s c
      (le 4 0x9640 ++ le 4 Config.hstRev.toNat ++ le 4 Config.hstFwVer.toNat ++ le 8 Config.serial.toNat)) ∧
    (Ready s id 0x0304 c → byteAt c.payload 0 ≤ 1 → Answers (.imgInfo id) s c
      (let h := padTo 32 (slotOf s.dev (byteAt c.payload 0)).header
       (h.drop 8).take 4 ++ (h.drop 12).take 4 ++ (h.drop 6).take 2 ++ [0, 0] ++ (h.drop 16).take 8)) ∧
    (Ready s id 0x0304 c → 1 < byteAt c.payload 0 → Refuses (.imgInfo id) s c stRange 0) ∧
    (∀ p, Ready s id 0x0104 c → findDef (targetAddr c) = some p → Answers (.paramInfo id) s c
      (le 1 p.cls.code ++ le 1 p.ty.code ++ le 2 p.count ++
        le 4 (if p.ty.isBlob || p.cls == .read then 0 else (rangeMin (rangeRow s.dev (targetAddr c) p)).toNat) ++
        le 4 (if p.ty.isBlob || p.cls == .read then 0 else (rangeMax (rangeRow s.dev (targetAddr c) p)).toNat) ++
        le 4 ((p.reset (instOf (targetAddr c))).headD 0).toNat)) ∧
    (Ready s id 0x0104 c → findDef (targetAddr c) = none → Refuses (.paramInfo id) s c stRange 0))

/-- RUN, STOP, SAFE_NOW, SVC_RELEASE and RESET_REQ start what they command (R93, R230, R392, R493, R592,
02_host_mailboxes.md). -/
def Obligations.RunStopSafeRelease : Prop :=
  ∀ (s : State) (id : CmdId) (c : Cmd),
    (Ready s id 0x0010 c →
      (s.dev.pwr.fieldUp = true → Moves (.run id) s (complete c stOk 0 (tickBytes s.dev) (startBlocks s.dev))) ∧
      (s.dev.pwr.fieldUp = false → Refuses (.run id) s c stRefused 0x91)) ∧
    (Ready s id 0x0011 c →
      let d := stopBlocks (pairsUse (pairsHeld s.dev fun a => [kFioSafe, kVlvSafe, kVlvSafeMa].contains (keyOf a)) s.dev)
      (s.dev.pwr.fieldUp = true →
        Moves (.stop id) s (cmdMod c.id (fun x => { x with note := openTick d }) (begin_ c.id d))) ∧
      (s.dev.pwr.fieldUp = false → Moves (.stop id) s (complete c stOk 0 (tickBytes d)
        { d with svc := { d.svc with running := false, stopping := false } }))) ∧
    (Ready s id 0x0012 c →
      (∀ sc, targetScope c.target = some sc → Moves (.safeNow id) s (askSafe sc 0 (some c.id) (waitOn c.id s.dev))) ∧
      (targetScope c.target = none → Refuses (.safeNow id) s c stRange 0)) ∧
    (Ready s id 0x1606 c →
      (∀ sc, targetScope c.target = some sc →
        (s.dev.lift.up.inLock = true → s.dev.pwr.fStep < 4 → s.dev.hlt.demand = false →
          Moves (.svcRelease id) s (askRelease sc (some c.id) (waitOn c.id s.dev))) ∧
        (s.dev.lift.up.inLock = false ∨ 4 ≤ s.dev.pwr.fStep ∨ s.dev.hlt.demand = true →
          Refuses (.svcRelease id) s c stRefused 0x66)) ∧
      (targetScope c.target = none → Refuses (.svcRelease id) s c stRange 0)) ∧
    (Ready s id 0x0013 c →
      (field c.payload 0 4 = 0x7C19 → Answers (.resetReq id) s c []) ∧
      (field c.payload 0 4 ≠ 0x7C19 → Refuses (.resetReq id) s c stRange 0))

/-- An access to a parameter that does not exist is refused with ST_RANGE (R8). -/
def Obligations.UndefinedAddressIsRefused : Prop :=
  (∀ a : Nat, 13 ≤ a / 2 ^ 20 → findDef a = none) ∧
  (∀ a : Nat, findDef a = none ↔ ∀ p ∈ paramTable (a / 2 ^ 20),
    ¬(p.key ≤ keyOf a ∧ keyOf a < p.key + p.keys ∧ instOk p (instOf a) = true)) ∧
  (∀ (s : State) (id : CmdId) (c : Cmd), findDef (targetAddr c) = none →
    (Ready s id 0x0100 c → Refuses (.paramRead id) s c stRange 0) ∧
    (Ready s id 0x0104 c → Refuses (.paramInfo id) s c stRange 0) ∧
    (Ready s id 0x0103 c → c.flags % 2 = 0 → Settles (.paramWriteBlob id) s (complete c stRange 0 [] s.dev)) ∧
    (Ready s id 0x0101 c → c.flags % 2 = 0 → Settles (.paramWrite id) s (complete c stRange 0 [] s.dev)) ∧
    (Ready s id 0x0102 c → c.flags % 2 = 0 → Settles (.paramWritePaired id) s (complete c stRange 0 [] s.dev)) ∧
    (∀ b, batchOf s.dev c.batchId = some b → c.flags % 2 = 1 →
      let d := complete c stRange 0 [] (batchMod b.id (fun x => { x with failed := true }) s.dev)
      (Ready s id 0x0101 c → Settles (.paramWrite id) s d) ∧ (Ready s id 0x0102 c → Settles (.paramWritePaired id) s d) ∧
        (Ready s id 0x0103 c → Settles (.paramWriteBlob id) s d)) ∧
    (batchOf s.dev c.batchId = none → c.flags % 2 = 1 →
      let d := refuse c (noBatch s.dev c.batchId) s.dev
      (Ready s id 0x0101 c → Settles (.paramWrite id) s d) ∧ (Ready s id 0x0102 c → Settles (.paramWritePaired id) s d) ∧
        (Ready s id 0x0103 c → Settles (.paramWriteBlob id) s d)))

/-- PARAM_READ answers two words, class, type, size and the tick of the last change (R9, R14, R42, R93,
02_host_mailboxes.md). -/
def Obligations.ParameterReads : Prop :=
  ∀ (s : State) (id : CmdId) (c : Cmd) (p : PDef), Ready s id 0x0100 c → findDef (targetAddr c) = some p →
    (p.cls = .paired →
      let d := pairFix 6 (targetAddr c) s.dev
      Moves (.paramRead id) s (complete c stOk 0
        (le 4 ((pairOf d (targetAddr c)).prim.headD (0, 0)).1.toNat ++ le 4 ((pairOf d (targetAddr c)).prim.headD (0, 0)).2.toNat ++
          le 1 p.cls.code ++ le 1 p.ty.code ++ le 2 p.ty.words ++ le 8 (pairOf d (targetAddr c)).tick) d) ∧
      (pairsValid (pairOf s.dev (targetAddr c)).prim = true →
        (pairOf s.dev (targetAddr c)).shad = (pairOf s.dev (targetAddr c)).prim → d = s.dev)) ∧
    (p.cls ≠ .paired → p.cls ≠ .read → p.ty.isBlob = false → isCoefSet (targetAddr c) = false → Answers (.paramRead id) s c
      (le 4 ((pwords s.dev (targetAddr c)).headD 0).toNat ++ le 4 0 ++ le 1 p.cls.code ++ le 1 p.ty.code ++ le 2 p.ty.words ++
        le 8 (((s.dev.cmd.params.find? fun e => e.1 = targetAddr c).map (·.2.tick)).getD 0))) ∧
    (p.cls = .read → Answers (.paramRead id) s c
      (le 4 ((readWords s.dev (targetAddr c)).headD 0).toNat ++ le 4 ((readWords s.dev (targetAddr c)).getD 1 0).toNat ++
        le 1 p.cls.code ++ le 1 p.ty.code ++ le 2 p.ty.words ++ le 8 (readTick s.dev (targetAddr c))))

/-- A parameter write is refused with its first failing check, or has begun and waits for its boundary (R43, R86, R88,
R89, R90, R93, R594). -/
def Obligations.ParameterWrites : Prop :=
  ∀ (s : State) (id : CmdId) (c : Cmd),
    (Ready s id 0x0101 c → c.flags % 2 = 0 →
      (∀ r, writeCheck s.dev 0x0101 (targetAddr c) (wordsOf 1 c.payload) = some r →
        Settles (.paramWrite id) s (refuse c r s.dev)) ∧
      (∀ p b left, writeCheck s.dev 0x0101 (targetAddr c) (wordsOf 1 c.payload) = none → findDef (targetAddr c) = some p →
        boundaryOf (begin_ c.id s.dev) (targetAddr c) p = some (b, left) → keyOf (targetAddr c) ≠ kSvcRecipe →
        Settles (.paramWrite id) s (pairFirst (targetAddr c) (addWait
          { addr := targetAddr c, words := wordsOf 1 c.payload, bnd := b, left := left, cmd := some c.id }
          (openValue (targetAddr c) (wordsOf 1 c.payload)
            (when (b == .tick && left == 0) (cfgSend (targetAddr c)) (begin_ c.id s.dev))))))) ∧
    (Ready s id 0x0102 c → c.flags % 2 = 0 →
      let ws := wordsOf (c.length / 4) (c.payload.take c.length)
      (∀ r, writeCheck s.dev 0x0102 (targetAddr c) ws = some r → Settles (.paramWritePaired id) s (refuse c r s.dev)) ∧
      (writeCheck s.dev 0x0102 (targetAddr c) ws = none →
        Settles (.paramWritePaired id) s (writeValue c (targetAddr c) ws s.dev))) ∧
    (∀ b, batchOf s.dev c.batchId = some b → Ready s id 0x0101 c → c.flags % 2 = 1 →
      batchCheck s.dev b 0x0101 (targetAddr c) (wordsOf 1 c.payload) = none →
      Settles (.paramWrite id) s (complete c stOk 0 [] (batchMod b.id
        (fun x => { x with writes := x.writes ++ [{ addr := targetAddr c, words := wordsOf 1 c.payload }] }) s.dev))) ∧
    (∀ p, Ready s id 0x0103 c → findDef (targetAddr c) = some p → p.ty.isBlob = true → (p.cls = .live ∨ p.cls = .staged) →
      field c.payload 0 2 = 0 → bitOf c.target 24 = false →
      let d := blobDrop (targetAddr c) c.commander s.dev
      Settles (.paramWriteBlob id) s (complete c stOk 0 [] { d with cmd := { d.cmd with blobs := d.cmd.blobs ++
        [{ addr := targetAddr c, commander := c.commander, bytes := (c.payload.drop 4).take (field c.payload 2 2) }] } })) ∧
    (∀ p x, Ready s id 0x0103 c → findDef (targetAddr c) = some p → p.ty.isBlob = true → (p.cls = .live ∨ p.cls = .staged) →
      (s.dev.cmd.blobs.find? fun a => a.addr = targetAddr c && a.commander = c.commander) = some x →
      x.bytes.length = field c.payload 0 2 → field c.payload 0 2 ≠ 0 → bitOf c.target 24 = true →
      let bs := x.bytes ++ (c.payload.drop 4).take (field c.payload 2 2)
      let d := descAttempt (targetAddr c) bs (blobDrop (targetAddr c) c.commander s.dev)
      (bs.length ≠ blobSize d (targetAddr c) p → Settles (.paramWriteBlob id) s (refuseWrite c ⟨stRange, 0⟩ d)) ∧
      (bs.length = blobSize d (targetAddr c) p → c.flags % 2 = 0 →
        writeCheck d c.opcode (targetAddr c) (wordsOf (ceilDiv bs.length 4) bs) = none →
        Settles (.paramWriteBlob id) s (writeValue c (targetAddr c) (wordsOf (ceilDiv bs.length 4) bs) d)))

/-- A pair is valid exactly when V XOR C is all ones, and a bad pair is refused and changes nothing (R42). -/
def Obligations.BadPairIsRefused : Prop :=
  (∀ v c : Word, pairValid (v, c) = true ↔ v ^^^ c = 0xFFFFFFFF) ∧
  (∀ ps : List (Word × Word), pairsValid ps = true ↔ ∀ q ∈ ps, q.1 ^^^ q.2 = 0xFFFFFFFF) ∧
  (∀ (s : State) (id : CmdId) (c : Cmd) (p : PDef), Ready s id 0x0102 c → c.flags % 2 = 0 →
    findDef (targetAddr c) = some p → p.cls = .paired → deviceOnly (targetAddr c) = none →
    let ps := pairsOfWords (wordsOf (c.length / 4) (c.payload.take c.length))
    ps.length = p.ty.words → (∃ q ∈ ps, q.1 ^^^ q.2 ≠ 0xFFFFFFFF) →
    Settles (.paramWritePaired id) s (complete c stPairMismatch 0 [] s.dev)) ∧
  (∀ (s : State) (id : CmdId) (c : Cmd) (p : PDef) (b : Boundary) (left : Nat), Ready s id 0x0102 c → c.flags % 2 = 0 →
    let ws := wordsOf (c.length / 4) (c.payload.take c.length)
    findDef (targetAddr c) = some p → p.cls = .paired → keyOf (targetAddr c) ≠ kSvcRecipe →
    writeCheck s.dev 0x0102 (targetAddr c) ws = none →
    boundaryOf (begin_ c.id s.dev) (targetAddr c) p = some (b, left) →
    Settles (.paramWritePaired id) s (pairFirst (targetAddr c) (addWait
      { addr := targetAddr c, words := ws, bnd := b, left := left, cmd := some c.id }
      (openValue (targetAddr c) ws (when (b == .tick && left == 0) (cfgSend (targetAddr c)) (begin_ c.id s.dev)))))) ∧
  (∀ (d : Dev) (addr : Nat) (ws : List Word), findDef addr ≠ none → (∀ p, findDef addr = some p → p.cls = .paired) →
    (pairOf (applyValue addr ws d) addr).prim = pairsOfWords ws ∧
      (pairOf (applyValue addr ws d) addr).shad = pairsOfWords ws)

/-- CFG_BEGIN, CFG_COMMIT and CFG_ABORT, and the discard of batches and BLOB assemblies (R90, R91, R93, R594). -/
def Obligations.Batches : Prop :=
  ∀ (s : State) (id : CmdId) (c : Cmd),
    (Ready s id 0x0110 c →
      (4 ≤ (openBatches s.dev).length → Refuses (.cfgBegin id) s c stAdmission 0) ∧
      ((openBatches s.dev).length < 4 → Moves (.cfgBegin id) s (complete c stOk 0 (le 2 s.dev.cmd.nextId)
        { s.dev with cmd := { s.dev.cmd with
            batches := s.dev.cmd.batches ++ [{ id := s.dev.cmd.nextId, writes := [], failed := false, commit := none }]
            discarded := s.dev.cmd.discarded.filter (· != s.dev.cmd.nextId)
            nextId := s.dev.cmd.nextId % 65535 + 1 } }))) ∧
    (Ready s id 0x0111 c →
      (∀ b, batchOf s.dev (field c.payload 0 2) = some b →
        (batchGood s.dev b = true → Moves (.cfgCommit id) s
          (begin_ c.id (batchMod (field c.payload 0 2) (fun x => { x with commit := some c.id }) s.dev))) ∧
        (batchGood s.dev b = false → Moves (.cfgCommit id) s
          (complete c stRefused 0x03 [] (batchDrop (field c.payload 0 2) s.dev)))) ∧
      (batchOf s.dev (field c.payload 0 2) = none →
        Refuses (.cfgCommit id) s c (if s.dev.cmd.discarded.contains (field c.payload 0 2) then stRefused else stRange)
          (if s.dev.cmd.discarded.contains (field c.payload 0 2) then 0x04 else 0))) ∧
    (Ready s id 0x0112 c →
      (∀ b, batchOf s.dev (field c.payload 0 2) = some b →
        Moves (.cfgAbort id) s (complete c stOk 0 [] (batchDrop (field c.payload 0 2) s.dev))) ∧
      (batchOf s.dev (field c.payload 0 2) = none →
        Refuses (.cfgAbort id) s c (if s.dev.cmd.discarded.contains (field c.payload 0 2) then stRefused else stRange)
          (if s.dev.cmd.discarded.contains (field c.payload 0 2) then 0x04 else 0))) ∧
    (∀ (n : BitVec 16) (b : Batch), batchOf s.dev n.toNat = some b → Moves (.batchDiscard n) s
      { s.dev with cmd := { s.dev.cmd with
          batches := s.dev.cmd.batches.filter fun x => x.id != n.toNat
          discarded := s.dev.cmd.discarded.filter (· != n.toNat) ++ [n.toNat] } }) ∧
    (∀ (a : BitVec 24) (k : Fin 17), Moves (.blobAssemblyDiscard a k) s
      { s.dev with cmd := { s.dev.cmd with
          blobs := s.dev.cmd.blobs.filter fun x => !(x.addr = a.toNat && x.commander = k.val) } })

/-- CMD_ABORT and TIMEOUT end a command that has not begun to apply, and no other (R86, R93). -/
def Obligations.AbortsAndTimeouts : Prop :=
  ∀ (s : State) (id : CmdId) (c x : Cmd) ,
    (Ready s id 0x0200 c → c.id ≠ .host (c.payload.headD 0) →
      (liveCmd s.dev (.host (c.payload.headD 0)) = some x → x.phase = .taken ∨ x.phase = .waiting →
        Moves (.cmdAbort id) s (complete c stOk 0 []
          (dropWork (.host (c.payload.headD 0)) (complete x stAborted 0 [] s.dev)))) ∧
      ((∀ y, liveCmd s.dev (.host (c.payload.headD 0)) = some y → y.phase = .begun ∨ y.phase = .done) →
        Refuses (.cmdAbort id) s c stRefused 0x06)) ∧
    (Ready s id 0x0200 c → c.id = .host (c.payload.headD 0) → Refuses (.cmdAbort id) s c stRefused 0x06) ∧
    (liveCmd s.dev id = some x → x.timeout ≠ 0 → x.phase = .taken ∨ x.phase = .waiting →
      Moves (.commandTimeout id) s (dropWork id (complete x stTimeout 0 [] s.dev))) ∧
    ((∀ y, liveCmd s.dev id = some y → y.timeout = 0 ∨ y.phase = .begun ∨ y.phase = .done) →
      exec (.commandTimeout id) s = .next s)

/-- The image and firmware commands queue their flash operations, or are refused (R87, R93, R94, R28, R492). -/
def Obligations.ImageAndFirmwareCommands : Prop :=
  (∀ (s : State) (id : CmdId) (c : Cmd),
    (¬ FlashFree s →
      (Ready s id 0x0300 c → Moves (.imgOpen id) s (flashQueued c s.dev)) ∧
      (Ready s id 0x0301 c → Moves (.imgData id) s (flashQueued c s.dev)) ∧
      (Ready s id 0x0302 c → Moves (.imgClose id) s (flashQueued c s.dev)) ∧
      (Ready s id 0x0305 c → Moves (.imgErase id) s (flashQueued c s.dev))) ∧
    (FlashFree s → Ready s id 0x0300 c → byteAt c.payload 0 ≤ 1 → 32 ≤ field c.payload 4 4 → field c.payload 4 4 ≤ 131072 →
      Moves (.imgOpen id) s (queueFlash c 0 0 [] none (slotMod (byteAt c.payload 0)
        (fun x => { x with bytes := List.replicate (field c.payload 4 4) 0xFF, opened := some (field c.payload 4 4), closed := false })
        { s.dev with cmd := { s.dev.cmd with slots := s.dev.cmd.slots.map fun x => { x with opened := none } } }))) ∧
    (FlashFree s → Ready s id 0x0300 c → 1 < byteAt c.payload 0 ∨ field c.payload 4 4 < 32 ∨ 131072 < field c.payload 4 4 →
      Refuses (.imgOpen id) s c stRange 0) ∧
    (FlashFree s → Ready s id 0x0301 c →
      let data := (c.payload.drop 4).take (c.length - 4)
      (openSlot s.dev = none → Refuses (.imgData id) s c stRefused 0) ∧
      (∀ n len, openSlot s.dev = some (n, len) →
        (len < field c.payload 0 4 + data.length → Refuses (.imgData id) s c stRange 0) ∧
        (field c.payload 0 4 + data.length ≤ len → Moves (.imgData id) s (queueFlash c 0 0 [] none
          (slotMod n (fun x => { x with bytes := overwrite x.bytes (field c.payload 0 4) data }) s.dev))))) ∧
    (FlashFree s → Ready s id 0x0302 c →
      (openSlot s.dev = none → Refuses (.imgClose id) s c stRefused 0) ∧
      (∀ n len, openSlot s.dev = some (n, len) →
        (imgCrc (slotOf s.dev n).bytes ≠ field c.payload 0 4 → Refuses (.imgClose id) s c stIntegrity 0) ∧
        (imgCrc (slotOf s.dev n).bytes = field c.payload 0 4 →
          let gen := (max (generation s.dev 0) (generation s.dev 1) + 1) % 2 ^ 32
          let bs := overwrite (slotOf s.dev n).bytes 12 (le 4 gen)
          Moves (.imgClose id) s (queueFlash c 1 n (le 4 gen) none
            (slotMod n (fun x => { x with bytes := overwrite bs 28 (le 4 (imgCrc bs)), opened := none }) s.dev))))) ∧
    (Ready s id 0x0303 c →
      (1 < byteAt c.payload 0 → Refuses (.imgApply id) s c stRange 0) ∧
      (byteAt c.payload 0 ≤ 1 → imageRecords s.dev (byteAt c.payload 0) = none → Refuses (.imgApply id) s c stIntegrity 0) ∧
      (∀ rs, byteAt c.payload 0 ≤ 1 → imageRecords s.dev (byteAt c.payload 0) = some rs →
        ((∃ r ∈ rs, recordBusy s.dev r.1 = true) → Refuses (.imgApply id) s c stBusyRunning 0) ∧
        ((∀ r ∈ rs, recordBusy s.dev r.1 = false) → Moves (.imgApply id) s (begin_ c.id s.dev)))) ∧
    (FlashFree s → Ready s id 0x0305 c →
      (1 < byteAt c.payload 0 → Refuses (.imgErase id) s c stRange 0) ∧
      (byteAt c.payload 0 ≤ 1 → Moves (.imgErase id) s (queueFlash c 2 (byteAt c.payload 0) [] none
        (slotMod (byteAt c.payload 0) (fun x => { x with opened := none }) s.dev))))) ∧
  (∀ (s : State) (id : CmdId) (c : Cmd),
    (¬ FlashFree s →
      (Ready s id 0x0310 c → Moves (.fwOpen id) s (flashQueued c s.dev)) ∧
      (Ready s id 0x0311 c → Moves (.fwData id) s (flashQueued c s.dev)) ∧
      (Ready s id 0x0312 c → Moves (.fwClose id) s (flashQueued c s.dev)) ∧
      (Ready s id 0x0313 c → Moves (.fwSwitch id) s (flashQueued c s.dev))) ∧
    (FlashFree s → Ready s id 0x0310 c →
      (field c.payload 0 4 = 0 ∨ 2 ^ 21 < field c.payload 0 4 → Refuses (.fwOpen id) s c stRange 0) ∧
      (field c.payload 0 4 ≠ 0 → field c.payload 0 4 ≤ 2 ^ 21 → Moves (.fwOpen id) s (queueFlash c 0 0 [] none
        { s.dev with cmd := { s.dev.cmd with fw := { s.dev.cmd.fw with
            opened := some (field c.payload 0 4), bytes := [], checked := false } } }))) ∧
    (FlashFree s → Ready s id 0x0311 c →
      let ofs := field c.payload 0 4
      let data := (c.payload.drop 4).take (c.length - 4)
      (s.dev.cmd.fw.opened = none → Refuses (.fwData id) s c stRefused 0) ∧
      (∀ len, s.dev.cmd.fw.opened = some len →
        (len < ofs + data.length → Refuses (.fwData id) s c stRange 0) ∧
        (ofs + data.length ≤ len → Moves (.fwData id) s (queueFlash c 0 0 [] none
          { s.dev with cmd := { s.dev.cmd with fw := { s.dev.cmd.fw with
              bytes := overwrite (s.dev.cmd.fw.bytes ++ List.replicate (ofs - s.dev.cmd.fw.bytes.length) 0xFF) ofs data } } })))) ∧
    (FlashFree s → Ready s id 0x0312 c →
      (s.dev.cmd.fw.opened = none → Refuses (.fwClose id) s c stRefused 0) ∧
      (∀ len, s.dev.cmd.fw.opened = some len →
        let bs := s.dev.cmd.fw.bytes ++ List.replicate (len - s.dev.cmd.fw.bytes.length) 0xFF
        (Config.fwImage bs = none → Refuses (.fwClose id) s c stIntegrity 0) ∧
        (∀ v, Config.fwImage bs = some v → Moves (.fwClose id) s (queueFlash c 4 0 (le 4 v.toNat) none
          { s.dev with cmd := { s.dev.cmd with fw := { s.dev.cmd.fw with opened := none } } })))) ∧
    (FlashFree s → Ready s id 0x0313 c →
      (s.dev.cmd.fw.checked = false → Refuses (.fwSwitch id) s c stRefused 0) ∧
      (s.dev.cmd.fw.checked = true → Moves (.fwSwitch id) s (queueFlash c 0 0 [] none
        { s.dev with cmd := { s.dev.cmd with fw := { s.dev.cmd.fw with nextBank := !s.dev.host.fwBank } } }))))

/-- EVT_FETCH, HLT_LOG_READ and ID_RECORD_FETCH place what they name and answer how many (R77, R96, R551, R564, R566). -/
def Obligations.ReplayCommands : Prop :=
  ∀ (s : State) (id : CmdId) (c : Cmd),
    (¬ FlashFree s → (Ready s id 0x1A03 c → Settles (.hltLogRead id) s (flashQueued c s.dev)) ∧
      (Ready s id 0x1B04 c → Settles (.idRecordFetch id) s (flashQueued c s.dev))) ∧
    (Ready s id 0x0400 c →
      let rs := s.dev.gate.buffer.filter fun a =>
        bibFrom (w32 (field c.payload 0 4)) a.bib && bibFrom a.bib (w32 (field c.payload 4 4))
      let n := if (ringOf s.dev 17).en then min (ringOf s.dev 17).free rs.length else 0
      Settles (.evtFetch id) s (complete c stOk 0 (le 4 n) (forEach rs (fun a d => emit (.push 17 (eventBytes a)) d) s.dev))) ∧
    (FlashFree s → Ready s id 0x1A03 c → 1 < byteAt c.payload 0 → Settles (.hltLogRead id) s (complete c stRange 0 [] s.dev)) ∧
    (FlashFree s → Ready s id 0x1A03 c → byteAt c.payload 0 ≤ 1 →
      let log := if byteAt c.payload 0 = 0 then s.dev.hlt.healthLog else s.dev.hlt.ageLog
      let old := log.take (log.length - field c.payload 4 4)
      let rs := old.drop (old.length - field c.payload 8 4)
      let n := if (ringOf s.dev 17).en then min rs.length ((ringOf s.dev 17).free / (byteAt c.payload 0 + 1)) else 0
      Settles (.hltLogRead id) s (queueFlash c 0 0 (le 4 n) none
        (forEach ((rs.take n).flatMap logEntries) (fun b d => emit (.push 17 b) d) s.dev))) ∧
    (FlashFree s → Ready s id 0x1B04 c → field c.payload 4 4 = 0 ∨ 1800 < field c.payload 4 4 →
      Settles (.idRecordFetch id) s (complete c stRange 0 [] s.dev)) ∧
    (FlashFree s → Ready s id 0x1B04 c → field c.payload 4 4 ≠ 0 → field c.payload 4 4 ≤ 1800 →
      let is := (s.dev.idn.records.map (·.1)).filter fun i =>
        field c.payload 0 4 ≤ i && i < field c.payload 0 4 + field c.payload 4 4
      Settles (.idRecordFetch id) s (copyFlush (queueFlash c 0 0 (le 4 is.length) none
        (idnMod (fun x => { x with copies := x.copies ++ is }) s.dev))))

/-- Silence of a commander is raised once, and the age of a ring sets its interrupt bit (R100, R435, R68). -/
def Obligations.SilenceAndQueueAge : Prop :=
  (∀ (s : State) (ch : Fin 2) (k : Fin 8),
    (pget s.dev kHstSilenceMs 0 ≠ 0 → s.dev.host.heard = true → s.dev.host.silent = false → domOn s.dev 6 = true →
      Moves .hostSilence s (ctlSilence 0 (raise 6 0xC001 (subPath 0xC) [0]
        { s.dev with host := { s.dev.host with silent := true } }))) ∧
    (pget s.dev kHstSilenceMs 0 = 0 ∨ s.dev.host.heard = false ∨ s.dev.host.silent = true ∨ domOn s.dev 6 = false →
      exec .hostSilence s = .next s) ∧
    (pget s.dev kHstRmbSilenceMs 0 ≠ 0 → (8 * ch.val + k.val) ∈ s.dev.host.rmbHeard → (8 * ch.val + k.val) ∉ s.dev.host.rmbSilent →
      Moves (.remoteCommanderSilence ch k) s (ctlSilence (1 + (8 * ch.val + k.val)) (raise 6 0xC001 (subPath 0xC) (le 1 (1 + ch.val))
        { s.dev with host := { s.dev.host with rmbSilent := s.dev.host.rmbSilent ++ [8 * ch.val + k.val] } }))) ∧
    (pget s.dev kHstRmbSilenceMs 0 = 0 ∨ (8 * ch.val + k.val) ∉ s.dev.host.rmbHeard ∨ (8 * ch.val + k.val) ∈ s.dev.host.rmbSilent →
      exec (.remoteCommanderSilence ch k) s = .next s)) ∧
  (∀ (s : State) (q : Fin 18),
    ((ringOf s.dev q).en = true → hostProduced q = false → (ringOf s.dev q).irqCount ≠ 0 → (ringOf s.dev q).irqTime ≠ 0 →
      (ringOf s.dev q).count ≠ 0 →
      let d := ringMod q (fun r => { r with aged := true }) s.dev
      Moves (.queueAgeIrq q) s
        { d with host := { d.host with intStatus := s.dev.host.intStatus ||| w32 (2 ^ q.val) } } ∧
      irqCond q (ringOf d q) = true) ∧
    (∀ v : Nat, s.dev.host.intStatus.getLsbD q = true → irqCond q (ringOf s.dev q) = true →
      (intClear v s.dev).host.intStatus.getLsbD q = true) ∧
    ((ringOf s.dev q).en = false ∨ hostProduced q = true ∨ (ringOf s.dev q).irqCount = 0 ∨ (ringOf s.dev q).irqTime = 0 ∨
      (ringOf s.dev q).count = 0 → exec (.queueAgeIrq q) s = .next s))

/-- The Start Gate admits the oldest item of the lowest port, and numbers it one above the last (R30, R39, R40). -/
def Obligations.AdmissionOrderAndBibs : Prop :=
  ∀ s : State,
    (nextItem s.dev = none ↔ ∀ p, s.dev.gate.ports.get p = []) ∧
    (∀ p g, nextItem s.dev = some (p, g) ↔
      (∃ rest, s.dev.gate.ports.get p = g :: rest) ∧ ∀ q, q < p → s.dev.gate.ports.get q = []) ∧
    (nextItem s.dev = none → Takes .startGateAdmit s s.dev) ∧
    (∀ x, nextItem s.dev = some x → ∃ t, exec .startGateAdmit s = .next t ∧ t.pending = s.pending ∧
      t.dev.gate.bib = s.dev.gate.bib + 1 ∧
      t.dev.gate.wrap = if s.dev.gate.bib + 1 = 0 then s.dev.gate.wrap + 1 else s.dev.gate.wrap)

/-- What an admission does with an event or a completion (R29, R30, R31, R33, R76, R77, R93). -/
def Obligations.AdmittedEventsArePublished : Prop :=
  ∀ (s : State) (p : Fin 8),
    (∀ e : EvRec, nextItem s.dev = some (p, .ev e) → e.code ≠ 0xC003 →
      let bib := s.dev.gate.bib + 1
      let a : Admitted := { bib := bib, ev := e }
      let d : Dev := { s.dev with gate := { s.dev.gate with
        ports := vMod s.dev.gate.ports p (·.drop 1)
        bib := bib
        wrap := if bib = 0 then s.dev.gate.wrap + 1 else s.dev.gate.wrap } }
      Takes .startGateAdmit s (admitHooks a (toEventRing a (toHealthLog a (toBuffer a d))))) ∧
    (∀ (c : Completion) (tag : Byte) (x : Cmd), nextItem s.dev = some (p, .comp c) → c.id = .host tag → c.opcode ≠ 0x0013 →
      let bib := s.dev.gate.bib + 1
      let d : Dev := { s.dev with gate := { s.dev.gate with
        ports := vMod s.dev.gate.ports p (·.drop 1)
        bib := bib
        wrap := if bib = 0 then s.dev.gate.wrap + 1 else s.dev.gate.wrap } }
      compCmd s.dev c = some x → Takes .startGateAdmit s (hostComplete c x bib d)) ∧
    (∀ (a : Admitted) (d : Dev),
      ((ringOf d 8).en = false ∨ bitOf (pget d kHstEvtMask 0) (a.ev.code / 0x1000) = false → toEventRing a d = d) ∧
      ((ringOf d 8).en = true → bitOf (pget d kHstEvtMask 0) (a.ev.code / 0x1000) = true →
        ((ringOf d 8).free = 0 ∨ d.gate.loss ≠ none → toEventRing a d = eventLost a.bib d) ∧
        ((ringOf d 8).free ≠ 0 → d.gate.loss = none → toEventRing a d = emit (.push 8 (eventBytes a)) d)))

/-- A TICK edge numbers the next tick, and the performance level follows it (R24, R115, R439, R440, R488, R489). -/
def Obligations.TickEdgeAndLevels : Prop :=
  (∀ s : State,
    (s.dev.time.running = false → Takes .tickEdge s s.dev) ∧
    (s.dev.time.running = true →
      let d := dlxTick (gnsTick (ctlTick (fioLatchCounts
        (let e := vlvDither (imgApplyTick (batchTick (tickNext s.dev))); atBoundary (edgeWaits e) e))))
      Takes .tickEdge s (healthCheck (levelTick (flashNext (if downOn d then applySend d else d)))))) ∧
  (∀ d : Dev, (tickNext d).time.tick = d.time.tick + 1 ∧ (tickNext d).time.dtFs = d.time.nextDt ∧
    (tickNext d).time.nextDt = d.time.nextDt + 1000000000000 + d.time.steer ∧ (tickNext d).lift.frames = 0 ∧
    (tickNext d).lift.fTick = if fieldRuns d then d.lift.fTick + 1 else d.lift.fTick) ∧
  (∀ d : Dev, d.host.limp = false → domOn d 1 = true →
    (levelWanted d < d.pwr.level → levelTick d = levelSet (levelWanted d) d) ∧
    (d.pwr.level < levelWanted d → d.pwr.raiseTo = none → levelTick d = levelRaise (levelWanted d) d) ∧
    (d.pwr.level < levelWanted d → d.pwr.raiseTo = some (levelWanted d) →
      levelTick d = if d.pwr.raiseReady then levelSet (levelWanted d) d else d)) ∧
  (∀ s : State,
    (s.dev.pwr.raiseTo ≠ none → Moves .regulatorReady s { s.dev with pwr := { s.dev.pwr with raiseReady := true } }) ∧
    (s.dev.pwr.raiseTo = none → exec .regulatorReady s = .next s)) ∧
  (∀ s : State,
    (s.dev.lift.closed = none → s.dev.time.running = true → s.dev.host.limp = false →
      let d := forEach (List.finRange 8) freqJoin (applyLapse (pairFix 6 (addrOf kHltEpoch 0) s.dev))
      let c : TickSet := { tick := d.time.tick + 1, mask := d.lift.openMask, epoch := epochOf d 0 % 256, vals := d.lift.opened }
      let e : Dev := { d with cmd := { d.cmd with waits := d.cmd.waits.map (waitClosed c) } }
      Moves .setClose s (nextPulses { e with lift := { e.lift with
        closed := some c
        openMask := 0
        opened := e.lift.opened.map withoutFreq } })) ∧
    (s.dev.lift.closed ≠ none ∨ s.dev.time.running = false ∨ s.dev.host.limp = true → exec .setClose s = .next s))

/-- A downlink frame that the field die uses completes and does what its slot or type says (R106, R109, R112, R114, R115,
R116, R123, R128, R130, R131). -/
def Obligations.DownlinkFrames : Prop :=
  (∀ (s : State) (p : Nat),
    (∀ slot : Fin 64,
      let d := if 36 ≤ slot.val ∧ slot.val < 52 then pairFix 6 (pairNext s.dev) s.dev else s.dev
      downOn s.dev = true → DownUsed (.rot slot) p d →
        Settles (.liftRotDownlink slot p) s (downSent (.rot slot) (rotDown slot (downTaken p d)))) ∧
    (∀ copy : Bool, s.dev.lift.applyLeft = (if copy then 1 else 2) → DownUsed .apply p s.dev →
      Settles (.liftApply copy p) s (downSent .apply (applyFrame copy (downTaken p s.dev)))) ∧
    (∀ copy : Bool, s.dev.lift.applyLeft ≠ (if copy then 1 else 2) → exec (.liftApply copy p) s = .next s) ∧
    (DownUsed .safe p s.dev → Moves (.liftSafe p) s
      (liftMod (fun l => { l with safeSent := true }) (safeFrame (downTaken p s.dev)))) ∧
    (DownUsed .release p s.dev → Moves (.liftRelease p) s (releaseSent (releaseFrame (downTaken p s.dev)))) ∧
    (downOn s.dev = false ∨ downIs .safe s.dev = false → exec (.liftSafe p) s = .next s) ∧
    (downOn s.dev = false ∨ downIs .release s.dev = false → exec (.liftRelease p) s = .next s)) ∧
  (∀ (d : Dev) (n : Fin 64),
    (∀ (h : n.val < 24) (ds : List Nat) (f : Option (Nat × Nat)), (sentSet d).vals.get ⟨n.val, h⟩ = .bank ds f →
      ((rotDown n d).lift.copies.get ⟨n.val, h⟩).get ⟨(sentSet d).tick % 4, by omega⟩ =
        some { val := .bank ds f, epoch := (sentSet d).epoch }) ∧
    (∀ (h : 24 ≤ n.val) (h' : n.val < 32),
      (rotDown n d).lift.excSlot.get ⟨n.val - 24, by omega⟩ = afePayload d (n.val - 24)) ∧
    (∀ (h : 32 ≤ n.val) (h' : n.val < 36),
      (rotDown n d).lift.sweepSlot.get ⟨n.val - 32, by omega⟩ = dlxPayload d (n.val - 32)) ∧
    (36 ≤ n.val → n.val < 52 →
      (pairSent d (pairNext d) = none → rotDown n d = d) ∧
      (∀ x, pairSent d (pairNext d) = some x →
        ∃ f, fieldPair (rotDown n d) (pairNext d) = some f ∧ f.pend = some x)) ∧
    (n.val = 60 → rotDown n d = { d with lift := { d.lift with fTick := d.time.tick } }) ∧
    (n.val = 61 → rotDown n d = { d with lift := { d.lift with fDt := tickDtNs d, fTq := d.gns.tq } }) ∧
    (n.val = 62 → rotDown n d = { d with lift := { d.lift with fTrim := d.hlt.groomPass } })) ∧
  (∀ s : State,
    (domState s.dev 7 = 1 → s.dev.pwr.pll = true → s.dev.pwr.fieldPow = true → Moves .liftKeepaliveDownlink s
      (validNote { s.dev with lift := { s.dev.lift with
          down := .keepalive, armed := true, fTick := s.dev.time.tick, fDom := s.dev.pwr.dom,
          sent := (s.dev.lift.sent + 1) % 2 ^ 32 } })) ∧
    (domState s.dev 7 = 1 → s.dev.lift.down = .keepalive → Moves .liftKeepaliveUplink s
      { s.dev with lift := { s.dev.lift with
          up := .keepalive, rcvd := (s.dev.lift.rcvd + 1) % 2 ^ 32, lastUpTick := s.dev.time.tick } }))

/-- An APPLY latches every slot of its set, or changes no output (R114, R117, R119, R522). -/
def Obligations.ApplyLatchesAllOrNothing : Prop :=
  ∀ (d : Dev) (c : TickSet) (copy : Bool), d.lift.apply = some c →
    let e := enablesLost (adoptPairs (liftMod (fun l => { l with fTick := c.tick }) d))
    let held := fpairV e kHltEpoch 0 % 256
    let bad := staleSlots e c.tick held
    (c.epoch ≠ held → (applyFrame copy d).lift.fenced = (e.lift.fenced + 1) % 256 ∧
      (applyFrame copy d).lift.fencedEpoch = c.epoch ∧ (applyFrame copy d).fio = e.fio ∧ (applyFrame copy d).vlv = e.vlv) ∧
    (c.epoch = held → (∃ n : Fin 24, bitOf c.mask n = true ∧ slotCopy e c.tick held n = none) →
      (applyFrame copy d).fio = e.fio ∧ (applyFrame copy d).vlv = e.vlv ∧
        (applyFrame copy d).lift.miss = (e.lift.miss + 1) % 256 ∧
        (applyFrame copy d).lift.openMask = e.lift.openMask ||| c.mask) ∧
    (c.epoch = held → (∀ n : Fin 24, bitOf c.mask n = true → slotCopy e c.tick held n ≠ none) →
      applyFrame copy d = applySet c held (liftMod (fun l =>
        { l with fenced := (l.fenced + bad.length) % 256, fencedEpoch := bad.getLastD l.fencedEpoch }) e))

/-- An uplink frame that the control die uses completes and does what its slot or type says (R106, R110, R111, R120, R121,
R125, R128, R129). -/
def Obligations.UplinkFrames : Prop :=
  (∀ (s : State) (p : Nat),
    (∀ (slot : Fin 64) (meas : List Int), UpUsed (.rot slot) p s.dev →
      Settles (.liftRotUplink slot p meas) s (upSent (.rot slot) (rotUp slot meas (upTaken (.rot slot) p s.dev)))) ∧
    (UpUsed .report p s.dev → Moves (.liftSafeReport p) s (upSent .report (safeReport (upTaken .report p s.dev)))) ∧
    (∀ (code : Fin 5) (f : MaskFrame), s.dev.lift.urg.get code = some f → UpUsed (.urg code) p s.dev →
      Moves (.liftUrg code p) s (urgFrame code f (upTaken (.urg code) p s.dev)) ∧
        (frameClose (.urg code) s.dev).lift.urg.get code = none) ∧
    (∀ code : Fin 5, s.dev.lift.urg.get code = none → exec (.liftUrg code p) s = .next s) ∧
    (∀ (code : Fin 8) (f : MaskFrame), s.dev.lift.evt.get code = some f → UpUsed (.evt code) p s.dev →
      Moves (.liftEvt code p) s (evtFrame code f (upTaken (.evt code) p s.dev)) ∧
        (code ≠ 7 → (frameClose (.evt code) s.dev).lift.evt.get code = none)) ∧
    (∀ code : Fin 8, s.dev.lift.evt.get code = none → exec (.liftEvt code p) s = .next s)) ∧
  (∀ (d : Dev) (k : LiftFrame) (p : Nat),
    (d.lift.reportLeft ≠ 0 → (upIs k p d = true ↔ k = .report)) ∧
    (d.lift.reportLeft = 0 → (d.lift.upSeq + p) % 16 = 15 → (upIs k p d = true ↔ ∃ n, k = .rot n))) ∧
  (∀ d : Dev,
    (d.lift.reported = true → safeReport d = d) ∧
    (d.lift.reported = false →
      let e := cancelReleases allObjects { d with lift := { d.lift with reported := true, stopSeen := true } }
      safeReport d = autoDue (svcSuspend allObjects (raiseAt 1 0x0012 (diePath 0 1)
        (toBits 64 ((edgeDt e d.lift.lastApply + 125 * d.lift.stopOfs : Nat) : Int))
        (timeCode e.gns.tq (e.gns.unc.map (· + 100 * d.lift.stopUs))) (le 4 d.lift.stopUs ++ le 4 d.lift.lastApply) e))))

/-- Discards, loss of lock, silence and the Snowplough stop (R106, R107, R124, R126, R127, R128, R392). -/
def Obligations.LiftDiscardsAndSilence : Prop :=
  ∀ (s : State) (raw : BitVec 128) (p x rcUs : Nat),
    (∀ k : LiftFrame, fieldRuns s.dev = true → downOn s.dev = true → upIs k p s.dev = true → s.dev.lift.up = .locked x →
      frameGood true raw.toNat = false ∨ frameSeq raw.toNat ≠ (x + p) % 4096 →
      Moves (.liftFrameDiscard true raw p k) s (upSent k (upLost
        (liftMod (fun l => { l with up := .locked ((x + p) % 4096) }) (frameClose k (upCount p s.dev)))))) ∧
    (∀ k : LiftFrame, downOn s.dev = true → s.dev.pwr.fieldPow = true → downIs k s.dev = true → s.dev.lift.down = .locked x →
      frameGood false raw.toNat = false ∨ frameSeq raw.toNat ≠ (x + p) % 4096 →
      Moves (.liftFrameDiscard false raw p k) s (downSent k (downLost k
        (liftMod (fun l => { l with down := .locked ((x + p) % 4096) }) (downCount p s.dev))))) ∧
    (∀ k : LiftFrame, (upLost s.dev).lift.upDisc = (s.dev.lift.upDisc + 1) % 2 ^ 32 ∧
      (upLost s.dev).lift.secUp = s.dev.lift.secUp + 1 ∧
      (downLost k s.dev).lift.downDisc = (s.dev.lift.downDisc + 1) % 65536) ∧
    (∀ k : LiftFrame, s.dev.lift.up = .locked x → frameGood true raw.toNat = true → frameSeq raw.toNat = (x + p) % 4096 →
      exec (.liftFrameDiscard true raw p k) s = .next s) ∧
    (∀ last, lockNext (.out 0 last) true x p = (.out 1 x, false) ∧
      lockNext (.out 1 last) true ((last + 1) % 4096) 1 = (.out 2 ((last + 1) % 4096), false) ∧
      lockNext (.out 2 last) true ((last + 1) % 4096) 1 = (.out 3 ((last + 1) % 4096), false) ∧
      lockNext (.out 3 last) true ((last + 1) % 4096) 1 = (.locked ((last + 1) % 4096), false) ∧
      (∀ run, x ≠ (last + 1) % 4096 → lockNext (.out run last) true x p = (.out 1 x, false)) ∧
      ∀ run, lockNext (.out run last) false x p = (.out 0 0, false)) ∧
    (s.dev.lift.up = .locked x → Moves (.liftLockLoss true) s { s.dev with lift := { s.dev.lift with up := .out 0 0 } }) ∧
    (s.dev.lift.down = .locked x → Moves (.liftLockLoss false) s
      (dlxPause { s.dev with lift := { s.dev.lift with down := .out 0 0 } })) ∧
    (s.dev.lift.silent = false → downOn s.dev = true → Moves .liftSilence s (fieldShutdownSeen (fioSilence
      (forEach (List.finRange 4) dlxMarkStale (forEach (List.finRange 32) afeMarkStale
        (raise 1 0x0010 (diePath 0 0) (le 8 s.dev.lift.lastUpTick)
          { s.dev with lift := { s.dev.lift with silent := true, silentFr := 10, staleSlots := 2 ^ 64 - 1 } })))))) ∧
    (s.dev.lift.silent = true ∨ downOn s.dev = false → exec .liftSilence s = .next s) ∧
    (s.dev.lift.armed = true → s.dev.pwr.fieldPow = true → s.dev.lift.down.inLock = false →
      1000 * silenceMs s.dev ≤ rcUs → Moves (.snowploughStop rcUs) s
      (stopAll { s.dev with lift := { s.dev.lift with
        armed := false, stopUs := rcUs % 2 ^ 32, stopOfs := (s.dev.lift.validOfs + rcUs * 8) % 2 ^ 32, reportLeft := 8,
        reported := false } })) ∧
    (s.dev.lift.armed = false ∨ s.dev.pwr.fieldPow = false ∨ s.dev.lift.down.inLock = true ∨
      rcUs < 1000 * silenceMs s.dev → exec (.snowploughStop rcUs) s = .next s) ∧
    (pget s.dev kSysLiftErrWarn 0 < max s.dev.lift.secUp s.dev.lift.secDown → Moves .liftErrorSecond s
      (liftMod (fun l => { l with secUp := 0, secDown := 0 }) (raise 1 0x0014 (diePath 0 0)
        (le 2 (min s.dev.lift.secUp 65535) ++ le 2 (min s.dev.lift.secDown 65535)) s.dev))) ∧
    (max s.dev.lift.secUp s.dev.lift.secDown ≤ pget s.dev kSysLiftErrWarn 0 → Moves .liftErrorSecond s
      { s.dev with lift := { s.dev.lift with secUp := 0, secDown := 0 } }) ∧
    (∀ ms, s.dev.svc.release = some ms →
      (s.dev.lift.up.inLock = true → s.dev.pwr.fStep < 4 → s.dev.hlt.demand = false → s.dev.svc.spoiled = false →
        s.dev.lift.stopped = true →
        Moves .autoRelease s (askRelease { scope := 0, object := 0 } none
          { s.dev with svc := { s.dev.svc with release := none } })) ∧
      (s.dev.lift.up.inLock = false ∨ 4 ≤ s.dev.pwr.fStep ∨ s.dev.hlt.demand = true ∨ s.dev.svc.spoiled = true →
        Moves .autoRelease s { s.dev with svc := { s.dev.svc with release := none } }))

/-- A result word holds VALUE, STATUS and SEQ, and SEQ advances at each conversion end (R165). -/
def Obligations.ResultWordLayout : Prop :=
  (∀ (v : Int) (st q : Nat), -8388608 ≤ v → v ≤ 8388607 → st < 16 → q < 16 →
    valueOf (resultWord v st q) = v ∧ statusOf (resultWord v st q) = st ∧ seqOf (resultWord v st q) = q ∧
    ((resultWord v st q).toNat / 256 : Int) = v % 16777216 ∧ (resultWord v st q).toNat / 16 % 16 = st ∧
    (resultWord v st q).toNat % 16 = q) ∧
  (∀ (s : State) (ch : Fin 32) (smp : AfeSample) (ofs : Nat), afeConverts s.dev ch = true →
    windowEnds s.dev ch (s.dev.afe.ch.get ch) = some ofs → (s.dev.afe.ch.get ch).abandoned = false →
    ∃ d, Moves (.conversionEnd ch smp) s d ∧ (d.afe.ch.get ch).seq = ((s.dev.afe.ch.get ch).seq + 1) % 16)

/-- A conversion end forms the channel's result word, before what waits for it applies (R143, R164, R165, R166, R169,
R179). -/
def Obligations.ConversionEndFormsResult : Prop :=
  (∀ (s : State) (ch : Fin 32) (smp : AfeSample) (ofs : Nat), afeConverts s.dev ch = true →
    windowEnds s.dev ch (s.dev.afe.ch.get ch) = some ofs →
    let c := s.dev.afe.ch.get ch
    (c.abandoned = true → Moves (.conversionEnd ch smp) s (boundary afeHook (fun w => w.bnd == .convEnd ch)
      (when c.restart (afeRestart ch) (afeMod ch (windowPass s.dev ch) s.dev)))) ∧
    (c.abandoned = false →
      let w := (filterWindow s.dev ch c ofs smp).2
      ∃ (e : Dev) (v : Int) (st : Nat),
        Moves (.conversionEnd ch smp) s (boundary afeHook (fun w => w.bnd == .convEnd ch)
          (when ((c.brk.isSome && (breakCond s.dev ch w).isNone) || c.restart) (afeRestart ch) e)) ∧
        (e.afe.ch.get ch).word = (if afeDelivers e ch then
          some (resultWord v st ((c.seq + 1) % 16), s.dev.lift.fTick) else none) ∧
        (e.afe.ch.get ch).brk = breakCond s.dev ch w ∧
        (breakCond s.dev ch w ≠ none → afeDep s.dev ch = none → st = sBroken ∧ v = c.settled) ∧
        (∀ x k, afeDep s.dev ch = some x → x ≠ ch.val → depStatus s.dev ch = some (x, k) →
          k = sBroken ∨ k = sStale ∨ k = sSettling → v = c.settled) ∧
        (∀ x, x ≠ ch → e.afe.ch.get x = s.dev.afe.ch.get x))) ∧
  (∀ (s : State) (ch : Fin 32) (smp : AfeSample),
    afeConverts s.dev ch = false ∨ windowEnds s.dev ch (s.dev.afe.ch.get ch) = none → exec (.conversionEnd ch smp) s = .next s)

/-- Spares, modulators and the conditions of the measurement channels (R144, R152, R154, R155, R156, R157, R168, R174,
R176, R177, R180, R188). -/
def Obligations.AfeStepsAndConditions : Prop :=
  (∀ (s : State) (ch : Fin 32) (g : Fin 4) (smp : SpareSample),
    ((s.dev.afe.ch.get ch).on = true → fieldRuns s.dev = true →
      Moves (.polaritySwap ch) s (afeMod ch (fun c => { c with swapped := true }) s.dev)) ∧
    (fieldRuns s.dev = true → domOn s.dev 9 = true → (s.dev.afe.grp.get g).serves = none →
      (s.dev.afe.grp.get g).unavailable = false → spareTarget s.dev g = some ch →
      let d := afeGrpMod g (fun x => { x with pos := (ch.val % 8 + 1) % 8 }) s.dev
      (pget s.dev kAfeLeadMode ch ≠ 1 → shadowAgrees s.dev ch smp.mean = true →
        Moves (.spareSlotEnd g smp) s (afeMod ch (fun c => { c with shadow := 0, leadTurn := false }) d)) ∧
      (pget s.dev kAfeLeadMode ch ≠ 1 → shadowAgrees s.dev ch smp.mean = false → (s.dev.afe.ch.get ch).shadow = 0 →
        Moves (.spareSlotEnd g smp) s (afeMod ch (fun c => { c with shadow := 1, leadTurn := false }) d)) ∧
      (pget s.dev kAfeLeadMode ch ≠ 1 → shadowAgrees s.dev ch smp.mean = false → (s.dev.afe.ch.get ch).shadow ≠ 0 →
        smp.spareFails = false → smp.channelFails = true → Moves (.spareSlotEnd g smp) s
          (modulatorFault ch (afeMod ch (fun c => { c with shadow := 0, leadTurn := false }) d))) ∧
      (pget s.dev kAfeLeadMode ch = 1 → (s.dev.afe.ch.get ch).leadTurn = false → (s.dev.afe.ch.get ch).leadCmd = [] →
        let leads := (leadMohm s.dev ch smp.leadUv :: (s.dev.afe.ch.get ch).leads).take 3
        Moves (.spareSlotEnd g smp) s (afeMod ch (fun c =>
          { c with leads := leads, leadNext := some (median3 leads), leadTurn := true, leadCmd := [] }) d))) ∧
    (∀ a b c : Nat, a ≤ b → b ≤ c → median3 [a, b, c] = b ∧ median3 [a, c, b] = b ∧ median3 [b, a, c] = b ∧
      median3 [b, c, a] = b ∧ median3 [c, a, b] = b ∧ median3 [c, b, a] = b) ∧
    ((s.dev.afe.ch.get ch).on = true → fieldRuns s.dev = true → (s.dev.afe.ch.get ch).sub = .none →
      ((s.dev.afe.grp.get (afeGroup ch)).serves = none → (s.dev.afe.grp.get (afeGroup ch)).unavailable = false →
        s.dev.hlt.patrolLost = false → let new := spareUnit s.dev (afeGroup ch)
        Moves (.modulatorStuck ch) s (afeMod ch (fun c => { c with sub := .declared, conv := some new, shadow := 0 })
          (afeGrpMod (afeGroup ch) (fun x => { x with serves := some ⟨ch.val % 8, by omega⟩ })
            (crossover ((s.dev.afe.ch.get ch).conv.getD (6 + ch)) new (3 + afeGroup ch) s.dev)))) ∧
      ((s.dev.afe.grp.get (afeGroup ch)).serves ≠ none ∨ (s.dev.afe.grp.get (afeGroup ch)).unavailable = true →
        Moves (.modulatorStuck ch) s (doubleFault 2 (raise 6 0x2006 (chanPath 2 (afeGroup ch) ch)
          (le 1 ch ++ le 1 (afeGroup ch)) (afeMod ch (fun c => { c with sub := .dead, word := none }) s.dev))))) ∧
    (∀ k : Fin 8, (s.dev.afe.grp.get g).serves = some k → ∀ ch' : Fin 32, ch'.val = 8 * g.val + k.val →
      (s.dev.afe.ch.get ch').sub = .calibrating → Moves (.spareCalibrationEnd g) s
        (afeMod ch' (fun c => { c with sub := .calibrated, fit := refFit ch' c.refs }) s.dev))) ∧
  (∀ (s : State) (k : Fin 2) (level : Bool) (ch : Fin 32) (gd : Fin 8) (id : CmdId) (c : Cmd),
    (∀ period : Fin 8000, ∃ e : List (Nat × Bool),
      Moves (.blankingEdge k ⟨level, period⟩) s { s.dev with afe := { s.dev.afe with blk := vMod s.dev.afe.blk k fun b =>
        { level := level, stuck := b.stuck && (level == bitOf (pget s.dev kAfeBlkPol 0) k), edges := e } } } ∧
      (level = (s.dev.afe.blk.get k).level → e = (s.dev.afe.blk.get k).edges) ∧
      (level ≠ (s.dev.afe.blk.get k).level → e.head? = some (s.dev.lift.fTick * 8000 + period.val, level))) ∧
    (blkActive s.dev k = true → (∃ g : Fin 4, bitOf (pget s.dev kAfeBlkSel g) k = true) → (s.dev.afe.blk.get k).stuck = false →
      fieldRuns s.dev = true → Moves (.blankingStuck k) s
        (raise 6 0x2007 (subPath 2) (le 1 k ++ [0, 0, 0] ++ le 4 (pget s.dev kAfeBlkStuckMs 0))
          { s.dev with afe := { s.dev.afe with blk := vMod s.dev.afe.blk k fun b => { b with stuck := true } } })) ∧
    (blkActive s.dev k = false ∨ (s.dev.afe.blk.get k).stuck = true ∨ fieldRuns s.dev = false →
      exec (.blankingStuck k) s = .next s) ∧
    (afeConverts s.dev ch = true → (s.dev.afe.ch.get ch).excOff = false → (s.dev.afe.ch.get ch).brk = none →
      let broken (cause : Nat) : Dev := afeMod ch (fun a =>
        { a with
          brk := some cause
          seq := (a.seq + 1) % 16
          abandoned := true
          depWhy := none
          word := if afeDelivers s.dev ch then
            some (resultWord a.settled sBroken ((a.seq + 1) % 16), windowTag s.dev ch a) else none
          wordOfs := 0 }) s.dev
      (pget s.dev kAfeExcMode ch = 1 → Moves (.excitationComplianceBreak ch) s
        (when (afeDelivers s.dev ch) (urgent 3 ch) (broken 0))) ∧
      (pget s.dev kAfeExcMode ch = 2 → Moves (.excitationComplianceBreak ch) s (broken 3))) ∧
    (afeConverts s.dev ch = false ∨ (s.dev.afe.ch.get ch).excOff = true ∨ (s.dev.afe.ch.get ch).brk ≠ none ∨
      (pget s.dev kAfeExcMode ch ≠ 1 ∧ pget s.dev kAfeExcMode ch ≠ 2) →
      exec (.excitationComplianceBreak ch) s = .next s) ∧
    ((s.dev.afe.ch.get ch).stale = false → pget s.dev kAfeWiring ch ≠ 5 → Moves (.afeStale ch) s
      (raise 6 0x2005 (chanPath 2 (afeGroup ch) ch) (le 1 ch ++ [0, 0, 0] ++ le 8 (s.dev.afe.ch.get ch).resTick)
        (afeMod ch (fun a =>
          { a with stale := true, result := withStatus a.result (worse (statusOf a.result) sStale) }) s.dev))) ∧
    ((s.dev.afe.ch.get ch).stale = true ∨ pget s.dev kAfeWiring ch = 5 → exec (.afeStale ch) s = .next s) ∧
    (fieldRuns s.dev = true → domOn s.dev 9 = true →
      (∀ p : Fin 4, gd.val = 4 + p.val →
        (∀ n, pget s.dev kAfeGuardSrc p = n → n < 254 → Moves (.guardFault gd) s
          (raise 6 0x2008 (chanPath 2 p (8 * p + n % 8)) (le 1 gd) s.dev)) ∧
        (pget s.dev kAfeGuardSrc p = 254 → Moves (.guardFault gd) s (raise 6 0x2008 (bankPath 2 p) (le 1 gd) s.dev)) ∧
        (pget s.dev kAfeGuardSrc p = 255 → exec (.guardFault gd) s = .next s)) ∧
      (gd.val < 4 →
        (dielectricUse s.dev (28 + gd) = false → Moves (.guardFault gd) s
          (raise 6 0x2008 (chanPath 2 3 (28 + gd)) (le 1 gd) s.dev)) ∧
        (dielectricUse s.dev (28 + gd) = true → exec (.guardFault gd) s = .next s))) ∧
    (fieldRuns s.dev = false ∨ domOn s.dev 9 = false → exec (.guardFault gd) s = .next s) ∧
    (Ready s id 0x1202 c →
      (32 ≤ targetN c → Refuses (.afeLeadNow id) s c stRange 0) ∧
      (targetN c = ch.val →
        ((s.dev.afe.ch.get ch).on = true → pget s.dev kAfeWiring ch = 1 → pget s.dev kAfeLeadMode ch = 1 →
          (s.dev.afe.grp.get (afeGroup ch)).serves = none → (s.dev.afe.grp.get (afeGroup ch)).unavailable = false →
          Moves (.afeLeadNow id) s (waitOn c.id (afeMod ch (fun a => { a with leadCmd := a.leadCmd ++ [c.id] }) s.dev))) ∧
        ((s.dev.afe.ch.get ch).on = false ∨ pget s.dev kAfeWiring ch ≠ 1 ∨ pget s.dev kAfeLeadMode ch ≠ 1 ∨
          (s.dev.afe.grp.get (afeGroup ch)).serves ≠ none ∨ (s.dev.afe.grp.get (afeGroup ch)).unavailable = true →
          Refuses (.afeLeadNow id) s c stRefused 0x22))))

/-- Dielectric sweeps and the commands of their channels (R195, R197, R200, R201, R204, R215, R218, R220, R221, R222,
R223, R226). -/
def Obligations.DielectricSteps : Prop :=
  (∀ (s : State) (n : Fin 4) (p : SweepPoint) (r : DxsCheck),
    (s.dev.dlx.queue.head? = some n → s.dev.dlx.sweep = none → dlxHeld s.dev = false → s.dev.dlx.paused = false →
      let starts (forStep : Bool) (d : Dev) : Dev := { d with dlx := { d.dlx with
        sweep := some { ch := n, pts := [], guardLimit := false, overload := false, forStep := forStep }
        queue := d.dlx.queue.drop 1 } }
      ((s.dev.dlx.ch.get n).mode ≠ 2 ∨ (s.dev.dlx.ch.get n).steps = [] → Moves (.dlxSweepStart n) s (starts false s.dev)) ∧
      (∀ st rest, (s.dev.dlx.ch.get n).mode = 2 → (s.dev.dlx.ch.get n).steps = st :: rest →
        Moves (.dlxSweepStart n) s (starts true (begin_ st.cmd s.dev)))) ∧
    (s.dev.dlx.queue.head? ≠ some n ∨ s.dev.dlx.sweep ≠ none ∨ dlxHeld s.dev = true ∨ s.dev.dlx.paused = true →
      exec (.dlxSweepStart n) s = .next s) ∧
    (∀ w : Sweep, s.dev.dlx.sweep = some w → w.ch = n → dlxHeld s.dev = false →
      let d := synthTake p.synthDiffers s.dev
      let i := cxWords p.iRe p.iIm
      let v := cxWords p.vRe p.vIm
      let w' : Sweep :=
        { w with
          pts := w.pts ++ [(i.div v, detectorGain i v)]
          guardLimit := w.guardLimit || p.guardLimit
          overload := w.overload || detectorOver i v }
      (w.pts.length + 1 < pget s.dev kDlxPoints n →
        Moves (.sweepPointEnd n p) s { d with dlx := { d.dlx with sweep := some w' } }) ∧
      (pget s.dev kDlxPoints n ≤ w.pts.length + 1 →
        let e : Dev := { d with dlx := { d.dlx with sweep := none } }
        Moves (.sweepPointEnd n p) s (if (s.dev.dlx.ch.get n).mode = 2 then calSweep n w' e else measureSweep n w' e))) ∧
    (dlxHeld s.dev = false → s.dev.dlx.spareFree = true → s.dev.dlx.rot % 4 = n.val →
      let d : Dev := { s.dev with dlx := { s.dev.dlx with rot := (s.dev.dlx.rot + 1) % 4 } }
      (r.differs = false → Moves (.dxsReferenceCheck r) s (dlxMod n (fun c => { c with differs := 0 }) d)) ∧
      (r.differs = true → (s.dev.dlx.ch.get n).differs = 0 →
        Moves (.dxsReferenceCheck r) s (dlxMod n (fun c => { c with differs := 1 }) d)) ∧
      (r.differs = true → (s.dev.dlx.ch.get n).differs ≠ 0 → r.spareFails = false → r.primaryFails = true →
        Moves (.dxsReferenceCheck r) s (pathFault n (dlxMod n (fun c => { c with differs := 0 }) d)))) ∧
    ((s.dev.dlx.ch.get n).path = .subst → Moves (.dxsCalibrationEnd n) s
      (raise 6 0x3006 (dlxPath n) (le 1 n ++ le 1 1) (dlxMod n (fun c => { c with path := .calibrated }) s.dev))) ∧
    ((s.dev.dlx.ch.get n).stale = false → Moves (.dlxStale n) s
      (raise 6 0x3005 (dlxPath n) (le 1 n ++ [0, 0, 0] ++ le 8 (s.dev.dlx.ch.get n).resTick)
        (dlxMod n (fun c =>
          { c with
            stale := true
            result := if statusOf c.result = xProbeFault then c.result else withStatus c.result xStale }) s.dev))) ∧
    ((s.dev.dlx.ch.get n).stale = true → exec (.dlxStale n) s = .next s)) ∧
  (∀ (s : State) (id : CmdId) (c : Cmd) (n : Fin 4),
    (Ready s id 0x1302 c → targetN c = n.val → byteAt c.payload 0 ≤ 31 →
      (∀ f e g, (s.dev.dlx.ch.get n).last[byteAt c.payload 0]? = some (f, e, g) → Answers (.dlxPointRead id) s c
        (le 4 (ratRound f).toNat ++ le 4 (toF32 e.re).toNat ++ le 4 (toF32 e.im).toNat ++ le 1 g)) ∧
      ((s.dev.dlx.ch.get n).last[byteAt c.payload 0]? = none → Moves (.dlxPointRead id) s (complete c stOk 0
        (le 4 (Config.freeWord s.dev.free).toNat ++ le 4 (Config.freeWord (s.dev.free + 1)).toNat ++
          le 4 (Config.freeWord (s.dev.free + 2)).toNat ++ le 1 (Config.freeWord (s.dev.free + 3)).toNat)
        { s.dev with free := s.dev.free + 4 }))) ∧
    (Ready s id 0x1302 c → 4 ≤ targetN c ∨ 31 < byteAt c.payload 0 → Refuses (.dlxPointRead id) s c stRange 0) ∧
    (Ready s id 0x1303 c → targetN c = n.val → 1 ≤ byteAt c.payload 0 → byteAt c.payload 0 ≤ 6 →
      ((s.dev.dlx.ch.get n).mode ≠ 2 → Refuses (.dlxProbeCal id) s c stRefused 0x31) ∧
      ((s.dev.dlx.ch.get n).mode = 2 → byteAt c.payload 0 ≠ 6 → Moves (.dlxProbeCal id) s
        (waitOn c.id (dlxMod n (fun x => { x with steps := x.steps ++
          [{ cmd := c.id, step := byteAt c.payload 0, epsRef := field c.payload 4 4, sweeps := [], overload := false }] })
          s.dev))) ∧
      ((s.dev.dlx.ch.get n).mode = 2 → byteAt c.payload 0 = 6 →
        (s.dev.dlx.ch.get n).cal.open_ = none ∨ (s.dev.dlx.ch.get n).cal.short = none ∨ (s.dev.dlx.ch.get n).cal.load = none →
        Refuses (.dlxProbeCal id) s c stRefused 0x31)) ∧
    (Ready s id 0x1304 c → ∀ r : Fin 32, targetN c = n.val → byteAt c.payload 0 = r.val →
      grainOk (byteAt c.payload 1) = true → (s.dev.dlx.ch.get n).mode = 1 →
      ((windowResult s.dev n (s.dev.dlx.ch.get n)).1 = xOk → accepted (s.dev.dlx.ch.get n) ≠ [] →
        let m := windowMeans s.dev n (s.dev.dlx.ch.get n) (byteAt c.payload 1)
        Moves (.dlxRefCapture id) s (complete c stOk 0
          (le 4 (toF32 m.1).toNat ++ le 4 (toF32 m.2.1).toNat ++ le 4 (toF32 m.2.2.1).toNat ++ le 4 (toF32 m.2.2.2.1).toNat ++
            le 2 (ratRound m.2.2.2.2.1).toNat)
          { s.dev with dlx := { s.dev.dlx with recs := vMod s.dev.dlx.recs r fun y => { y with cap := some m } } })) ∧
      ((windowResult s.dev n (s.dev.dlx.ch.get n)).1 ≠ xOk ∨ accepted (s.dev.dlx.ch.get n) = [] →
        Refuses (.dlxRefCapture id) s c stRefused 0x34)) ∧
    (Ready s id 0x1305 c →
      (∀ r : Fin 32, byteAt c.payload 0 = r.val → Moves (.dlxRefSet id) s (complete c stOk 0 []
        { s.dev with dlx := { s.dev.dlx with recs := vMod s.dev.dlx.recs r fun y =>
          { y with oven := some (field c.payload 4 2) } } })) ∧
      (32 ≤ byteAt c.payload 0 → Refuses (.dlxRefSet id) s c stRange 0)) ∧
    (Ready s id 0x1306 c → byteAt c.payload 0 ≤ 15 → 1 ≤ byteAt c.payload 2 → byteAt c.payload 2 ≤ 12 →
      byteAt c.payload 8 ≤ 1 →
      let rs := fitRecs s.dev (field c.payload 4 4)
      (byteAt c.payload 1 = 1 →
        (rs.length < 4 → Refuses (.dlxFit id) s c stRefused 0x35) ∧
        (4 ≤ rs.length → fit1 rs = none → Refuses (.dlxFit id) s c stRefused 0x36) ∧
        (∀ a b, 4 ≤ rs.length → fit1 rs = some (a, b) → byteAt c.payload 8 = 0 → Answers (.dlxFit id) s c
          (le 4 (toF32 a).toNat ++ le 4 (toF32 b).toNat ++ le 4 (toF32 0).toNat ++
            le 4 (toF32 (fitError 2 rs (fun r => a + b * r.mb) (·.mo))).toNat ++ le 1 rs.length))) ∧
      (byteAt c.payload 1 = 0 → rs.length < 6 → Refuses (.dlxFit id) s c stRefused 0x35)) ∧
    (Ready s id 0x1307 c →
      (grainOk (byteAt c.payload 0) = true → byteAt c.payload 1 ≤ 15 → Answers (.dlxCalRead id) s c
        (bytesOf (((calOf s.dev (byteAt c.payload 0) ++ List.replicate 20 0).drop (byteAt c.payload 1)).take 5))) ∧
      (grainOk (byteAt c.payload 0) = false ∨ 15 < byteAt c.payload 1 → Refuses (.dlxCalRead id) s c stRange 0)))

/-- Protection of pins: conditions begin, latch, restart and end (R249, R250, R251, R252, R254, R255, R256, R257, R259).
-/
def Obligations.PinProtectionAndConditions : Prop :=
  (∀ (s : State) (n : Fin 64) (b : Fin 8),
    ((s.dev.fio.pin.get n).ilim = false → pinDrive s.dev n ≠ 0 →
      Moves (.currentLimit n) s (urgent 0 n (pinMod n (fun p => { p with ilim := true }) s.dev))) ∧
    ((s.dev.fio.pin.get n).ilim = true ∨ pinDrive s.dev n = 0 → exec (.currentLimit n) s = .next s) ∧
    ((s.dev.fio.pin.get n).therm = false → (s.dev.fio.pin.get n).latched = false → pinDrive s.dev n ≠ 0 →
      ((recentRestarts s.dev (s.dev.fio.pin.get n).restarts).length < 8 → Moves (.pinThermalShutoff n) s
        (urgent 1 n (pinMod n (fun p => { p with therm := true, latched := false, ilim := false }) s.dev))) ∧
      (8 ≤ (recentRestarts s.dev (s.dev.fio.pin.get n).restarts).length → Moves (.pinThermalShutoff n) s
        (ordinary 6 n (urgent 1 n (pinMod n (fun p => { p with therm := true, latched := true, ilim := false }) s.dev))))) ∧
    ((s.dev.fio.pin.get n).therm = true → (s.dev.fio.pin.get n).latched = false → pinWanted s.dev n ≠ 0 →
      Moves (.pinThermalRestart n) s (urgent 2 n (pinMod n (fun p =>
        { p with therm := false, restarts := s.dev.time.tick :: recentRestarts s.dev p.restarts }) s.dev))) ∧
    ((s.dev.fio.pin.get n).latched = true → exec (.pinThermalRestart n) s = .next s) ∧
    (fieldRuns s.dev = true → bankLowNow s.dev (pinBank n) = false → (s.dev.fio.pin.get n).openLoad = none →
      (pinDrive s.dev n ≠ 0 → pget s.dev kFioOlOn n = 1 → (s.dev.fio.pin.get n).reverse = false →
        Moves (.openLoad n) s (ordinary 2 n (pinMod n (fun p => { p with openLoad := some false }) s.dev))) ∧
      (pinDrive s.dev n = 0 → isOutput (pinMode s.dev n) = true → pget s.dev kFioOlOff n = 1 →
        (s.dev.fio.pin.get n).shortSup = false →
        Moves (.openLoad n) s (ordinary 2 n (pinMod n (fun p => { p with openLoad := some true }) s.dev)))) ∧
    (fieldRuns s.dev = true → pinDrive s.dev n ≠ 0 → (s.dev.fio.pin.get n).overLoad = false →
      Moves (.overLoad n) s (ordinary 3 n (pinMod n (fun p => { p with overLoad := true }) s.dev))) ∧
    (fieldRuns s.dev = true → pinDrive s.dev n = 0 → isOutput (pinMode s.dev n) = true → bankLowNow s.dev (pinBank n) = false →
      (s.dev.fio.pin.get n).shortSup = false →
      Moves (.shortToSupply n) s (ordinary 4 n (pinMod n (fun p => { p with shortSup := true }) s.dev))) ∧
    (fieldRuns s.dev = true → pinDrive s.dev n ≠ 0 → (s.dev.fio.pin.get n).reverse = false →
      Moves (.reverseBlocking n) s (ordinary 4 n (pinMod n (fun p => { p with reverse := true }) s.dev))) ∧
    ((s.dev.fio.bank.get b).lowRaised = false → 3 ≤ (s.dev.fio.bank.get b).low → Moves (.bankLow b) s
      (raise 6 0x100D (bankPath 1 b) (le 1 b ++ le 1 (vAt s.dev.pwr.vfb b 0))
        (bankMod b (fun k => { k with lowRaised := true }) s.dev))) ∧
    ((s.dev.fio.bank.get b).lowRaised = true ∨ (s.dev.fio.bank.get b).low < 3 → exec (.bankLow b) s = .next s)) ∧
  (∀ (s : State) (n : Fin 64),
    Moves (.currentLimitEnd n) s (pinMod n (fun p => { p with ilim := false }) s.dev) ∧
    Moves (.openLoadEnd n) s (pinMod n (fun p => { p with openLoad := none }) s.dev) ∧
    Moves (.overLoadEnd n) s (pinMod n (fun p => { p with overLoad := false }) s.dev) ∧
    Moves (.shortToSupplyEnd n) s (pinMod n (fun p => { p with shortSup := false }) s.dev) ∧
    Moves (.reverseBlockingEnd n) s (pinMod n (fun p => { p with reverse := false }) s.dev) ∧
    (∀ (m : Fin 64) (f : Pin → Pin), m ≠ n → (pinMod n f s.dev).fio.pin.get m = s.dev.fio.pin.get m))

/-- The filter tick, the frequency gate, FIO_CLEAR and FIO_CNT_CLEAR (R232, R238, R239, R240, R241, R243, R252). -/
def Obligations.PinFilterAndGate : Prop :=
  ∀ (s : State) (n : Fin 64) (smp : PinSample) (id : CmdId) (c : Cmd),
    (fieldRuns s.dev = false ∨ domOn s.dev 8 = false ∨ pinMode s.dev n = 0 ∨ (∃ w, (addrOf kFioMode n, w) ∈ s.dev.lift.cfg) →
      ∀ smps, exec (.filterTick n smps) s = .next s) ∧
    (fieldRuns s.dev = true → domOn s.dev 8 = true → pinMode s.dev n ≠ 0 → (∀ w, (addrOf kFioMode n, w) ∉ s.dev.lift.cfg) →
      exec (.filterTick n []) s = .next s ∧
      (∀ smps e, Moves (.filterTick n [smp]) s e →
        exec (.filterTick n (smp :: smps)) s = exec (.filterTick n smps) { s with dev := e }) ∧
      ((s.dev.fio.pin.get n).fresh = false →
        let p := s.dev.fio.pin.get n
        let bit := pinSampleBit s.dev n p smp
        let f := filterStep (pget s.dev kFioFiltN n) bit p.count p.next
        (p.since + 1 < pget s.dev kFioFiltTick n → Moves (.filterTick n [smp]) s
          (pinMod n (fun p => { bandTake (pinBand p smp) p with raw := bit, since := p.since + 1 }) s.dev)) ∧
        (pget s.dev kFioFiltTick n ≤ p.since + 1 → pinMode s.dev n ≠ 2 →
          let d := pinMod n (fun p =>
            { bandTake (pinBand p smp) p with
              raw := bit
              since := 0
              count := f.1
              next := f.2
              filtered := p.next
              wbCount := 0
              wbNext := false
              broken := false }) s.dev
          Moves (.filterTick n [smp]) s (if p.next = p.filtered then d else pinEdge n p.next d)))) ∧
    (pinMode s.dev n = 3 →
      let p := s.dev.fio.pin.get n
      let edge := s.dev.time.tick / pget s.dev kFioCntGateMs n * pget s.dev kFioCntGateMs n
      (p.cdTick = none ∨ (∃ b, p.cdTick = some b ∧ b < edge) →
        Moves (.freqGate n) s (pinMod n (fun p => { p with gateDue := true }) s.dev)) ∧
      (∀ b, p.cdTick = some b → edge ≤ b → p.gate = none → Moves (.freqGate n) s
        (pinMod n (fun p =>
          { p with gate := some (b, p.cdCount), gateDue := false, gateSilent := s.dev.lift.silent, freqStale := true }) s.dev)) ∧
      (∀ a b k, p.cdTick = some b → edge ≤ b → p.gate = some (a, k) → a < b →
        Moves (.freqGate n) s (pinMod n (fun p =>
          { p with
            gate := some (b, p.cdCount)
            gateDue := false
            freq := (p.cdCount + 2 ^ 32 - k) % 2 ^ 32 * 1000000 / (b - a) % 2 ^ 32
            freqStale := p.gateSilent || s.dev.lift.silent
            gateSilent := s.dev.lift.silent }) s.dev))) ∧
    (pinMode s.dev n ≠ 3 → exec (.freqGate n) s = .next s) ∧
    (Ready s id 0x1102 c →
      (64 ≤ targetN c → Refuses (.fioClear id) s c stRange 0) ∧
      (targetN c = n.val → bitOf s.dev.pwr.pinFail n = true → Refuses (.fioClear id) s c stRefused 0x94) ∧
      (targetN c = n.val → bitOf s.dev.pwr.pinFail n = false →
        ((s.dev.fio.pin.get n).latchRec = false → Refuses (.fioClear id) s c stRefused 0x13) ∧
        ((s.dev.fio.pin.get n).latchRec = true → Moves (.fioClear id) s
          (begin_ c.id (pinMod n (fun p => { p with clearPend := true, clearCmd := p.clearCmd ++ [c.id] }) s.dev))))) ∧
    (Ready s id 0x1103 c →
      (64 ≤ targetN c → Refuses (.fioCntClear id) s c stRange 0) ∧
      (targetN c = n.val → bitOf s.dev.pwr.pinFail n = true → Refuses (.fioCntClear id) s c stRefused 0x94) ∧
      (targetN c = n.val → bitOf s.dev.pwr.pinFail n = false → Moves (.fioCntClear id) s
        (waitOn c.id (pinMod n (fun p => { p with cntCmd := p.cntCmd ++ [c.id] }) s.dev))))

/-- A valve profile moves through its phases (R280, R281, R286, R293, R294, R298). -/
def Obligations.ValvePhases : Prop :=
  ∀ (s : State) (n : Fin 16) (us : Nat),
    ((vlvCh s.dev n).phase = .delay → fieldRuns s.dev = true →
      (mustDefer s.dev n = false → Moves (.vlvDelayEnd n) s (enterPeak n 0 s.dev)) ∧
      (mustDefer s.dev n = true → (vlvCh s.dev n).safePeak = true ∨ ((vlvCh s.dev n).prof.map (·.deferMax)).getD 0 ≠ 0 →
        Moves (.vlvDelayEnd n) s (vlvMod n (fun c => { c with phase := .defer, deferAt := fieldNow s.dev }) s.dev)) ∧
      (mustDefer s.dev n = true → (vlvCh s.dev n).safePeak = false → ((vlvCh s.dev n).prof.map (·.deferMax)).getD 0 = 0 →
        Moves (.vlvDelayEnd n) s (endNever n 5 (vlvDiag n 4 s.dev)))) ∧
    ((vlvCh s.dev n).phase ≠ .delay ∨ fieldRuns s.dev = false → exec (.vlvDelayEnd n) s = .next s) ∧
    ((vlvCh s.dev n).phase = .defer → (vlvCh s.dev n).safePeak = false →
      Moves (.deferReject n) s (endNever n 5 (vlvDiag n 4 s.dev))) ∧
    ((vlvCh s.dev n).phase = .shedWait → Moves (.f2WaitExpired n) s (endNever n 6 s.dev)) ∧
    (∀ p, (vlvCh s.dev n).phase = .peak → (vlvCh s.dev n).ttp = none → f2On s.dev = false → (vlvCh s.dev n).prof = some p →
      let d := vlvMod n (fun c => { c with ttp := some (us / 10), coilSeen := true }) s.dev
      (p.ttpMin ≤ us → us ≤ p.ttpMax → Moves (.peakReached n us) s d) ∧
      (us < p.ttpMin → Moves (.peakReached n us) s (vlvDiag n 1 d)) ∧
      (p.ttpMin ≤ us → p.ttpMax < us → Moves (.peakReached n us) s (vlvDiag n 2 d))) ∧
    ((vlvCh s.dev n).phase = .peak → (vlvCh s.dev n).ttp ≠ none → (vlvCh s.dev n).safePeak = false → (vlvCh s.dev n).cause = 0 →
      Moves (.peakEnd n us) s (wakePartner n us (vlvMod n (fun c => { c with phase := .hold, hot := true }) s.dev))) ∧
    ((vlvCh s.dev n).phase = .peak → (vlvCh s.dev n).ttp ≠ none → (vlvCh s.dev n).safePeak = true → (vlvCh s.dev n).prof = none →
      Moves (.peakEnd n us) s (wakePartner n us (vlvMod n (fun c => { c with phase := .safeSet, safePeak := false }) s.dev))) ∧
    ((vlvCh s.dev n).phase ≠ .peak → exec (.peakEnd n us) s = .next s) ∧
    ((vlvCh s.dev n).phase = .hold → Moves (.holdEnd n) s (startDecay n (wantsFast s.dev n) (partnerOn s.dev n) s.dev)) ∧
    ((vlvCh s.dev n).phase ≠ .hold → exec (.holdEnd n) s = .next s) ∧
    (∀ p, (vlvCh s.dev n).prof = some p →
      ((vlvCh s.dev n).phase = .decaySlow → Moves (.decayEnd n us) s (endProfile n s.dev)) ∧
      ((vlvCh s.dev n).phase = .decayFast → Moves (.decayEnd n us) s (wakePartner n us (endProfile n s.dev))))

/-- Trips, thermal shut-offs, restarts and diagnostics of the valve channels (R284, R287, R288, R289, R290, R292). -/
def Obligations.ValveFaults : Prop :=
  ∀ (s : State) (n : Fin 16),
    (vlvJoined s.dev n = false → carries s.dev n false = true → Moves (.vlvTrip n false) s (wakeAll (vlvTripEnd n
      (urgent 0 (64 + n) (vlvMod n (fun c => { c with fault := true, hsFault := false }) s.dev))))) ∧
    (let off := [pairEven (vlvPair n), pairOdd (vlvPair n)]
     (∃ k ∈ off, carries s.dev k true = true) → Moves (.vlvTrip n true) s
      (wakeAll (forEach ((vlvEnded s.dev n true).filter (carries s.dev · true)) vlvTripEnd
        (forEach (off.filter (carries s.dev · true)) (vlvTripMark true) s.dev)))) ∧
    (vlvJoined s.dev n = true → carries s.dev n false = true → Moves (.vlvTrip n false) s
      (wakeAll (forEach ((vlvEnded s.dev n false).filter (carries s.dev · false)) vlvTripEnd
        (forEach ([pairEven (vlvPair n), pairOdd (vlvPair n)].filter (carries s.dev · false)) (vlvTripMark false) s.dev)))) ∧
    (carries s.dev n false = false → exec (.vlvTrip n false) s = .next s) ∧
    (carries s.dev (pairEven (vlvPair n)) true = false → carries s.dev (pairOdd (vlvPair n)) true = false →
      exec (.vlvTrip n true) s = .next s) ∧
    ((vlvCh s.dev n).therm = false → carries s.dev n true = true →
      Moves (.vlvThermalShutoff n false) s (wakeAll (forEach (vlvEnded s.dev n false)
        (vlvShutEnd false (8 ≤ (recentRestarts s.dev (vlvCh s.dev n).restarts).length))
        (vlvShutMark false n (vlvMod n (fun c => { c with therm := true }) s.dev))))) ∧
    ((s.dev.vlv.hs.get (vlvPair n)).therm = false →
      carries s.dev (pairEven (vlvPair n)) true = true ∨ carries s.dev (pairOdd (vlvPair n)) true = true →
      Moves (.vlvThermalShutoff n true) s (wakeAll (forEach (vlvEnded s.dev n true)
        (vlvShutEnd true (8 ≤ (recentRestarts s.dev (s.dev.vlv.hs.get (vlvPair n)).restarts).length))
        (vlvShutMark true (pairOdd (vlvPair n)) (vlvShutMark true (pairEven (vlvPair n))
          { s.dev with vlv := { s.dev.vlv with hs := vMod s.dev.vlv.hs (vlvPair n) fun x => { x with therm := true } } }))))) ∧
    ((vlvCh s.dev n).therm = true ∨ carries s.dev n true = false → exec (.vlvThermalShutoff n false) s = .next s) ∧
    ((vlvCh s.dev n).therm = true → (∀ k ∈ vlvEnded s.dev n false, (vlvCh s.dev k).latched = false) →
      Moves (.vlvThermalRestart n false) s (forEach (vlvEnded s.dev n false) vlvResume (urgent 2 (64 + n)
        (vlvMod n (fun c => { c with therm := false, restarts := s.dev.time.tick :: recentRestarts s.dev c.restarts }) s.dev)))) ∧
    (∀ hs, (∃ k ∈ vlvEnded s.dev n hs, (vlvCh s.dev k).latched = true) → exec (.vlvThermalRestart n hs) s = .next s) ∧
    ((vlvCh s.dev n).therm = false → exec (.vlvThermalRestart n false) s = .next s) ∧
    ((vlvCh s.dev n).openCoil = false → (vlvCh s.dev n).phase = .peak ∨ (vlvCh s.dev n).phase = .hold ∨
      (vlvCh s.dev n).phase = .prop → Moves (.openCoil n) s
        (ordinary 2 (64 + n) (vlvMod n (fun c => { c with openCoil := true, coilSeen := false }) s.dev))) ∧
    ((vlvCh s.dev n).phase = .prop → Moves (.openCoilEnd n) s (vlvMod n (fun c => { c with openCoil := false }) s.dev)) ∧
    ((vlvCh s.dev n).phase = .peak ∨ (vlvCh s.dev n).phase = .hold →
      Moves (.openCoilEnd n) s (vlvMod n (fun c => { c with coilSeen := true }) s.dev)) ∧
    ((vlvCh s.dev n).phase = .prop ∨ (vlvCh s.dev n).phase = .safeSet → Moves (.regulatorFault n) s (vlvDiag n 8 s.dev)) ∧
    (isPulseMode (vlvMode s.dev n) = true → s.dev.pwr.fieldPow = true →
      let inPhase := (vlvCh s.dev n).phase == .peak || (vlvCh s.dev n).phase == .hold
      let d := vlvMod n (fun c =>
        { c with hot := inPhase, bins := binsCut 600000 (binsPush (c.hot || inPhase) c.bins) }) s.dev
      let lim := fpairV d kVlvDutyPct n * dutyWin d n
      ((vlvCh s.dev n).dutyLimit = false → lim < binsOn (dutyWin d n) (vlvCh d n).bins * 100 →
        Moves (.dutyBin n) s (vlvDiag n 6 (vlvMod n (fun c => { c with dutyLimit := true }) d))) ∧
      ((vlvCh s.dev n).dutyLimit = false → binsOn (dutyWin d n) (vlvCh d n).bins * 100 ≤ lim → Moves (.dutyBin n) s d))

/-- VLV_PULSE and VLV_CLEAR begin, wait or are refused (R277, R289, R291, R301). -/
def Obligations.ValveCommands : Prop :=
  ∀ (s : State) (id : CmdId) (c : Cmd) (n : Fin 16),
    (Ready s id 0x1401 c → 16 ≤ targetN c → Refuses (.vlvPulse id) s c stRange 0) ∧
    (Ready s id 0x1403 c → 16 ≤ targetN c → Refuses (.vlvClear id) s c stRange 0) ∧
    (Ready s id 0x1401 c → targetN c = n.val →
      let t := field c.payload 0 4
      (bitOf s.dev.pwr.vdFail n = true → Refuses (.vlvPulse id) s c stRefused 0x94) ∧
      (bitOf s.dev.pwr.vdFail n = false →
        (claimed s.dev (64 + n) = true → Refuses (.vlvPulse id) s c stRefused 0x40) ∧
        (claimed s.dev (64 + n) = false →
          (vlvSlave s.dev n = true ∨ isPulseMode (pget s.dev kVlvMode n) = false → Refuses (.vlvPulse id) s c stRefused 0x43) ∧
          (vlvSlave s.dev n = false → isPulseMode (pget s.dev kVlvMode n) = true →
            (latchKnown (vlvCh s.dev n) = true → Refuses (.vlvPulse id) s c stRefused 0x46) ∧
            (latchKnown (vlvCh s.dev n) = false →
              (t ≠ 0 → t < 10 ∨ 6000000 < t → Refuses (.vlvPulse id) s c stRange 0) ∧
              (t = 0 ∨ (10 ≤ t ∧ t ≤ 6000000) →
                (bitOf (vlvCh s.dev n).status.toNat 2 = true → Refuses (.vlvPulse id) s c stRefused 0x42) ∧
                (bitOf (vlvCh s.dev n).status.toNat 2 = false →
                  (pulsePlaced s.dev n = false → (vlvCh s.dev n).reqs = [] →
                    Moves (.vlvPulse id) s (placePulse n { cmd := some c.id, holdT := t } s.dev)) ∧
                  (pulsePlaced s.dev n = true ∨ (vlvCh s.dev n).reqs ≠ [] → Moves (.vlvPulse id) s
                    (waitOn c.id (vlvMod n (fun x => { x with reqs := x.reqs ++ [{ cmd := some c.id, holdT := t }] })
                      s.dev)))))))))) ∧
    (Ready s id 0x1403 c → targetN c = n.val →
      (bitOf s.dev.pwr.vdFail n = true → Refuses (.vlvClear id) s c stRefused 0x94) ∧
      (bitOf s.dev.pwr.vdFail n = false →
        (claimed s.dev (64 + n) = true → Refuses (.vlvClear id) s c stRefused 0x40) ∧
        (claimed s.dev (64 + n) = false →
          (vlvSlave s.dev n = true → Refuses (.vlvClear id) s c stRefused 0x43) ∧
          (vlvSlave s.dev n = false →
            (latchKnown (vlvCh s.dev n) = false → Refuses (.vlvClear id) s c stRefused 0x13) ∧
            (latchKnown (vlvCh s.dev n) = true → Moves (.vlvClear id) s
              (begin_ c.id (vlvMod n (fun x => { x with clearPend := true, clearCmd := x.clearCmd ++ [c.id] }) s.dev)))))))

/-- What happens to a loop at its gate, its computation, its deadline and its engine (R305, R309, R328, R344, R350, R351,
R352, R525). -/
def Obligations.LoopEvents : Prop :=
  ∀ (s : State) (i : Fin 64) (eng : Fin 3) (home : Fin 2),
    (let d := boundary ctlHook (fun w => w.bnd == .gate i) (pairsUse (gatePairs s.dev i) s.dev)
     ((ctlInst d i).base = .free ∨ (ctlInst d i).base = .stopped → Moves (.ctlGate i) s (loopSafe i d)) ∧
     ((ctlInst d i).base = .run ∨ (ctlInst d i).base = .start ∨ (ctlInst d i).base = .test ∨ (ctlInst d i).base = .ident →
       Moves (.ctlGate i) s (loopSafe i (gateRun i d))) ∧
     ((ctlInst d i).base = .fallback → Moves (.ctlGate i) s
       (loopSafe i (if (ctlInst d i).cause = 2 ∨ (ctlInst d i).reseed = true then gateRun i d else d)))) ∧
    (∀ bad, ctlPending (ctlInst s.dev i) = none → Settles (.ctlComputeDone i eng bad) s s.dev) ∧
    (∀ bad g, ctlPending (ctlInst s.dev i) = some g → s.dev.ctl.serving.get (ctlHome i) ≠ eng.val →
      Settles (.ctlComputeDone i eng bad) s (ctlFence (ctlHome i) s.dev)) ∧
    (∀ w g, ctlPending (ctlInst s.dev i) = some g → s.dev.ctl.serving.get (ctlHome i) = eng.val → s.dev.ctl.faulty.get eng = false →
      Settles (.ctlComputeDone i eng (some w)) s (ctlIntegrity i w s.dev)) ∧
    (∀ g, (ctlInst s.dev i).backlog = [] → (ctlInst s.dev i).gate = some g → s.dev.ctl.serving.get (ctlHome i) = eng.val →
      s.dev.ctl.faulty.get eng = false → ∃ d, Settles (.ctlComputeDone i eng none) s d ∧ (ctlInst d i).gate = none ∧ (ctlInst d i).backlog = []) ∧
    (∀ u v, ctlRuns (ctlInst s.dev i) = true → (ctlInst s.dev i).base = .run → (ctlInst s.dev i).next = some (u, v) →
      Moves (.ctlDeadline i) s (ctlCheckpoint i (ctlBfpExit i (ctlMod i (fun x => { x with overruns := 0 })
        (if ctlWrites (ctlInst s.dev i) then ctlWriteAll i u s.dev else s.dev))))) ∧
    (ctlRuns (ctlInst s.dev i) = false → exec (.ctlDeadline i) s = .next s) ∧
    ((ctlInst s.dev i).coast = true → (ctlInst s.dev i).base = .run →
      (ctlInst s.dev i).since + coastMs (ctlDesc s.dev i) ≤ s.dev.time.tick → Moves (.coastExpired i) s
      (ctlFallback i 2 (ctlMod i (fun x => { x with coast := false }) s.dev))) ∧
    ((ctlInst s.dev i).coast = false ∨ s.dev.time.tick < (ctlInst s.dev i).since + coastMs (ctlDesc s.dev i) →
      exec (.coastExpired i) s = .next s) ∧
    ((ctlInst s.dev i).base = .start → (ctlInst s.dev i).since + seedMs (ctlDesc s.dev i) ≤ s.dev.time.tick → Moves (.startSeedTimeout i) s (ctlFallback i 2 (seedMissing i s.dev))) ∧
    ((ctlInst s.dev i).base ≠ .start ∨ s.dev.time.tick < (ctlInst s.dev i).since + seedMs (ctlDesc s.dev i) →
      exec (.startSeedTimeout i) s = .next s) ∧
    (s.dev.ctl.faulty.get eng = true → exec (.engineFault eng) s = .next s) ∧
    (s.dev.ctl.faulty.get eng = false → (h : eng.val < 2) → s.dev.ctl.serving.get ⟨eng.val, h⟩ = eng.val →
      2 ∉ s.dev.ctl.serving.toList → s.dev.ctl.faulty.get 2 = false → s.dev.hlt.patrolLost = false → Moves (.engineFault eng) s
        (crossover (3 + eng) 5 (1 + eng) { s.dev with ctl := { s.dev.ctl with faulty := s.dev.ctl.faulty.set eng true } })) ∧
    (heir s.dev home = none → exec (.carveHandover home) s = .next s) ∧
    (∀ e, heir s.dev home = some e → ∃ d, Moves (.carveHandover home) s d ∧ d.ctl.serving.get home = e)

/-- The loop commands act on a loop that has a descriptor and are refused with their codes (R320, R321, R328, R335, R337,
R338, R340, R355). -/
def Obligations.LoopCommands : Prop :=
  ∀ (s : State) (id : CmdId) (c : Cmd) (i : Fin 64),
    (∀ k ∈ [(0x1501, Instr.ctlCoefWrite id), (0x1502, .ctlSetWrite id), (0x1503, .ctlSetSeal id), (0x1504, .ctlSrcSelect id),
        (0x1505, .ctlResume id), (0x1506, .ctlStateWrite id), (0x1508, .ctlClearFlags id), (0x1509, .ctlAdmitCheck id),
        (0x150A, .ctlSetRead id)], Ready s id k.1 c →
      (64 ≤ targetN c → Refuses k.2 s c stRange 0) ∧
      (targetN c = i.val → (ctlInst s.dev i).base = .free → Refuses k.2 s c stRefused 0x53)) ∧
    (targetN c = i.val → (ctlInst s.dev i).base ≠ .free →
      let b := ctlDesc s.dev i
      let x := ctlInst s.dev i
      (Ready s id 0x1501 c → ∀ k, coefIdx b (byteAt c.payload 0) (byteAt c.payload 1) (byteAt c.payload 2) = some k →
        (byteAt c.payload 3 ≤ 31 → Moves (.ctlCoefWrite id) s (waitOn c.id (ctlMod i (fun x =>
          { x with
            pend := x.pend ++ [{ idx := k, val := sext 32 (field c.payload 4 4), shift := byteAt c.payload 3, cmd := c.id, since := landFrom s.dev }]
            liveCdr := some c.commander }) s.dev))) ∧
        (31 < byteAt c.payload 3 → Refuses (.ctlCoefWrite id) s c stRange 0)) ∧
      (Ready s id 0x1502 c → 1 ≤ byteAt c.payload 0 → byteAt c.payload 0 ≤ dSets b → 1 ≤ byteAt c.payload 4 →
        byteAt c.payload 4 ≤ 8 → field c.payload 2 2 + byteAt c.payload 4 ≤ coefCount b →
        (∀ y ∈ setWriteCoefs c.payload (byteAt c.payload 4), y.2 ≤ 31) →
        (x.setUse = byteAt c.payload 0 → ctlRuns x = true → Refuses (.ctlSetWrite id) s c stBusyRunning 0) ∧
        (x.setUse ≠ byteAt c.payload 0 ∨ ctlRuns x = false → Moves (.ctlSetWrite id) s (complete c stOk 0 []
          (ctlSetMod i (byteAt c.payload 0) (fun y =>
            { y with coefs := setFrom y.coefs (setWriteCoefs c.payload (byteAt c.payload 4)) (field c.payload 2 2)
                     valid := false }) s.dev)))) ∧
      (Ready s id 0x1503 c → 1 ≤ byteAt c.payload 0 → byteAt c.payload 0 ≤ dSets b →
        let crc := setCrc (setFilled b (ctlSet x (byteAt c.payload 0))).coefs
        (crc.toNat = field c.payload 4 4 → Moves (.ctlSetSeal id) s (complete c stOk 0 []
          (ctlSetMod i (byteAt c.payload 0) (fun y => { y with crc := crc, valid := true }) s.dev))) ∧
        (crc.toNat ≠ field c.payload 4 4 → Moves (.ctlSetSeal id) s (complete c stIntegrity 0 []
          (ctlSetMod i (byteAt c.payload 0) (fun y => { y with valid := false }) s.dev)))) ∧
      (Ready s id 0x1504 c → byteAt c.payload 0 ≠ 0xFF → byteAt c.payload 0 ≤ dSets b →
        ((ctlSet x (byteAt c.payload 0)).valid = false → Refuses (.ctlSrcSelect id) s c stRefused 0x57) ∧
        ((ctlSet x (byteAt c.payload 0)).valid = true → Moves (.ctlSrcSelect id) s (waitOn c.id (ctlMod i
          (ctlPendSet false (some (byteAt c.payload 0)) 3 [c.id]) s.dev)))) ∧
      (Ready s id 0x1505 c →
        (x.base ≠ .fallback → Refuses (.ctlResume id) s c stRefused 0x53) ∧
        (x.base = .fallback → x.cause ≠ 4 → Moves (.ctlResume id) s
          (waitOn c.id (ctlMod i (fun x => { x with resume := x.resume ++ [c.id] }) s.dev)))) ∧
      (Ready s id 0x1506 c →
        (x.base ≠ .stopped → x.base ≠ .fallback → Refuses (.ctlStateWrite id) s c stRefused 0x53) ∧
        (x.base = .stopped → byteAt c.payload 0 < 0x80 → byteAt c.payload 0 < dNo b → Moves (.ctlStateWrite id) s
          (complete c stOk 0 [] (ctlMod i (fun x =>
            { x with
              st := (if x.wrote then x.st.map (fun v => toInt v x.ste) else List.replicate (dN b) 0).set (byteAt c.payload 0)
                (sext 32 (field c.payload 4 4))
              ste := 0
              wrote := true
              chk := x.chk.map fun k =>
                { k with
                  st := (if x.wrote then x.st.map (fun v => toInt v x.ste) else List.replicate (dN b) 0).set (byteAt c.payload 0)
                    (sext 32 (field c.payload 4 4))
                  ste := 0 } }) s.dev)))) ∧
      (Ready s id 0x1508 c → Moves (.ctlClearFlags id) s
        (complete c stOk 0 [] (ctlMod i (fun x => { x with sticky := 0 }) s.dev))) ∧
      (Ready s id 0x1509 c →
        let a := if x.attempt.isEmpty then b else x.attempt
        Answers (.ctlAdmitCheck id) s c (le 4 (weight a) ++ le 4 (instBytes a) ++
          le 4 (ratRound (engineLoad s.dev (i.val / 32) i a).1).toNat ++
          le 1 (b2n (!(ctlAdmits s.dev i a && descOk a))))) ∧
      (Ready s id 0x150A c → byteAt c.payload 0 ≤ 8 → byteAt c.payload 4 = 1 → field c.payload 2 2 + 1 ≤ coefCount b →
        let y := ctlSet x (byteAt c.payload 0)
        let v := y.coefs.getD (field c.payload 2 2) (0, 0)
        (y.valid = false → Refuses (.ctlSetRead id) s c stRefused 0x57) ∧
        (y.valid = true → Answers (.ctlSetRead id) s c (le 4 (toBits 32 v.1) ++ le 1 v.2 ++ [0, 0, 0] ++
          List.replicate 8 0 ++ le 4 y.crc.toNat))))

/-- The state of a loop shown, and a frozen integral state (R307, R326, R327, 08_carve_engines.md). -/
def Obligations.LoopStatesAndFrozenIntegrals : Prop :=
  (∀ (d : Dev) (i : Fin 64),
    (ctlInst d i).base = .fallback ∨ (ctlInst d i).base = .start ∨ (ctlInst d i).base = .run →
    ((ctlInst d i).base = .fallback → ctlStateWord d i % 16 = 7) ∧
    ((ctlInst d i).base ≠ .fallback → (ctlInst d i).held = true → ctlStateWord d i % 16 = 6) ∧
    ((ctlInst d i).base ≠ .fallback → (ctlInst d i).held = false → (ctlInst d i).coast = true → ctlStateWord d i % 16 = 5) ∧
    ((ctlInst d i).base = .start → (ctlInst d i).held = false → (ctlInst d i).coast = false → ctlStateWord d i % 16 = 2) ∧
    ((ctlInst d i).base = .run → (ctlInst d i).held = false → (ctlInst d i).coast = false →
      ctlStateWord d i % 16 = if (ctlInst d i).bfp then 4 else 3)) ∧
  (∀ (x : LawIn) (k : Nat), x.bfp = false → x.ste = 0 → k < dNi x.b → x.st.length = dNo x.b + dNi x.b →
    (∀ v ∈ x.st, -2147483648 ≤ v ∧ v ≤ 2147483647) → x.g.frz.getD k false = true →
    (lawStep x).st.getD (dNo x.b + k) 0 = x.st.getD (dNo x.b + k) 0 ∧ (lawStep x).ste = 0)

/-- Service commands wait for the next service step; SVC_READ and SVC_LEDGER_READ answer (R358, R359, R370, R383, R389,
R390, R396). -/
def Obligations.ServiceCommands : Prop :=
  ∀ (s : State) (id : CmdId) (c : Cmd),
    (∀ k ∈ [(0x1601, Instr.svcStart id), (0x1602, .svcStop id), (0x1603, .svcAbort id), (0x1604, .svcNext id),
        (0x1607, .svcFaultClear id), (0x1608, .svcRecipeLoad id), (0x1609, .svcWaterDose id), (0x160B, .svcLotOpen id),
        (0x160C, .svcLotClose id)], Ready s id k.1 c →
      (svcInst c < kindCount (svcKind c) → Moves k.2 s (waitOn c.id { s.dev with svc := { s.dev.svc with
        cmds := s.dev.svc.cmds ++ [{ id := c.id, op := c.opcode, kind := svcKind c, inst := svcInst c, payload := c.payload,
                                     commander := c.commander }] } })) ∧
      (kindCount (svcKind c) ≤ svcInst c → Refuses k.2 s c stRange 0)) ∧
    (Ready s id 0x1605 c →
      let rest := le 4 (Config.freeWord s.dev.free).toNat ++ le 4 (Config.freeWord (s.dev.free + 1)).toNat
      let d : Dev := { s.dev with free := s.dev.free + 2 }
      (kindCount (svcKind c) ≤ svcInst c ∨ 1 < byteAt c.payload 0 → Refuses (.svcRead id) s c stRange 0) ∧
      (svcInst c < kindCount (svcKind c) → byteAt c.payload 0 = 0 → Moves (.svcRead id) s (complete c stOk 0
        (le 4 (svcState d (svcKind c) (svcInst c)) ++ le 4 (svcTimes d (svcKind c) (svcInst c)).1 ++
          le 4 (svcTimes d (svcKind c) (svcInst c)).2 ++ rest) d)) ∧
      (∀ r, svcInst c < kindCount (svcKind c) → byteAt c.payload 0 = 1 →
        (s.dev.svc.resume.find? fun r => r.inst = ownerCode (svcKind c) (svcInst c)) = some r →
        Moves (.svcRead id) s (complete c stOk 0
          (le 4 r.state ++ le 4 (r.ms / 1000) ++ le 4 ((r.lot.map (·.no)).getD 0) ++ rest) d))) ∧
    (¬ FlashFree s → Ready s id 0x160A c → Moves (.svcLedgerRead id) s (flashQueued c s.dev)) ∧
    (FlashFree s → Ready s id 0x160A c →
      (1 < byteAt c.payload 2 ∨ s.dev.svc.ledger.records[field c.payload 0 2]? = none →
        Refuses (.svcLedgerRead id) s c stRange 0) ∧
      (∀ r, byteAt c.payload 2 ≤ 1 → s.dev.svc.ledger.records[field c.payload 0 2]? = some r →
        Moves (.svcLedgerRead id) s
          (queueFlash c 0 0 (if byteAt c.payload 2 = 0 then r.take 20 else r.drop 20) none s.dev)))

/-- The service step, the aeration evaluation, journalled water blocks and resume records (R358, R377, R381, R383, R394).
-/
def Obligations.ServiceSteps : Prop :=
  ∀ s : State,
    (s.dev.time.running = false ∨ s.dev.time.tick % 100 ≠ 0 ∨ s.dev.svc.lastStep = some s.dev.time.tick →
      exec .serviceStep s = .next s) ∧
    (s.dev.time.running = true → s.dev.time.tick % 100 = 0 → s.dev.svc.lastStep ≠ some s.dev.time.tick →
      let e := pairsUse (stepPairs s.dev) s.dev
      let d0 : Dev := { e with svc := { e.svc with
        lastStep := some e.time.tick, steps := e.svc.steps + 1, valsOld := e.svc.vals } }
      let d1 := pulseEndsTake (dayStep (ambSample (boundary (fun _ d => d) (fun w => w.bnd == .svcStep) d0)))
      let d2 := loopValues (forEach (List.finRange 6)
        (fun i d => dryStep i (dryOf d i).phase (cmdsFor (dryKind i) (dryNo i) (dryCmd i) d)) d1)
      let d3 := forEach (List.finRange 12)
        (fun b d => aerStep b (cmdsFor 3 b (aerCmd b) d)) d2
      let d4 := forEach (List.finRange 2) (fun i d =>
        let d := cmdsFor 4 i (watCmd i) d
        watStep i (watSilence i (if (watOf d i).closing then watLotClose i d else d))) d3
      let d5 := cnvStep (forEach (List.finRange 16) (fun n d => cmdsFor 5 n otherCmd d) d4)
      Moves .serviceStep s
        (servicesSafe (forEach (List.finRange 4) (fun b d => brnStep b (cmdsFor 6 b otherCmd d)) d5))) ∧
    (let a := boundary (fun _ d => d) (fun w => w.bnd == .aerEval) s.dev
      ∃ d, Moves .aerEvaluation s d ∧ d.svc.ambMins = (a.svc.amb :: a.svc.ambMins).take 10) ∧
    (∀ i : Fin 2, Moves (.waterBlockJournalled i) s
      (watMod i (fun w => { w with block := w.block.map fun b => { b with ready := true } }) s.dev)) ∧
    Moves .resumeRecord s (forEach (List.finRange 2) (fun i d => if (watOf d i).phase != 0 then watResume i d else d)
      (forEach (List.finRange 6) (fun i d => if dryRuns i (dryOf d i) then dryResume i d else d) s.dev))

/-- A received frame goes to its user, and each user's row takes the frames that are its own (R405, R406, R407, R408,
R425, R427, R429, R431, R432, R434, R435). -/
def Obligations.BusFramesIn : Prop :=
  ∀ (s : State) (ch : Fin 2) (f : BusFrame),
    (busHears s.dev ch = true → (busCh s.dev ch).rate = none →
      Takes (.busFrameReceived ch f) s (routeFrame ch f (goodRx ch (busStat ch 0 s.dev)))) ∧
    (∀ r, busHears s.dev ch = true → (busCh s.dev ch).rate = some r →
      Takes (.busFrameReceived ch f) s (rateFrame ch r f s.dev)) ∧
    (busHears s.dev ch = false → Takes (.busFrameReceived ch f) s s.dev) ∧
    (∀ k ∈ [(1, Instr.rosterHeartbeat ch f), (2, .rosterData ch f), (4, .busReferenceReceived ch f), (5, .timeInfoReceived ch f)],
      (frameUser s.dev ch f = k.1 → Settles k.2 s (frameIn ch f s.dev)) ∧
      (frameUser s.dev ch f ≠ k.1 → Settles k.2 s s.dev)) ∧
    (frameUser s.dev ch f = 3 → Takes (.rmbRequestSegment ch f) s (frameIn ch f s.dev)) ∧
    (frameUser s.dev ch f ≠ 3 → Takes (.rmbRequestSegment ch f) s s.dev) ∧
    (∀ (c : Fin 8), vAt s.dev.bus.rmb (8 * ch + c) none = none → exec (.rmbSegmentTimeout ch c) s = .next s) ∧
    (∀ (c : Fin 8) x, vAt s.dev.bus.rmb (8 * ch + c) none = some x → x.skip = false →
      Moves (.rmbSegmentTimeout ch c) s (rmbError ch c 2 (rmbSet (8 * ch + c) none s.dev)))

/-- Taking entries, the ends of transmissions, errors, recovery and the transceiver (R403, R409, R410, R411, R412, R413,
R414, R415, R416). -/
def Obligations.BusTransmission : Prop :=
  ∀ (s : State) (ch : Fin 2) (ago us : Nat) (id : CmdId) (c : Cmd),
    (let r := ringOf s.dev (txRing ch)
     let b := memRead s.mem (r.slotAt (txRing ch) r.head) 96
     (r.en = true → r.head ≠ r.tail → (outstanding (busCh s.dev ch)).length < 64 →
       (busMode s.dev ch = 1 ∨ busMode s.dev ch = 3) → ∃ d, Settles (.busTxTake ch) s d ∧
         (txBad s.dev ch b = false → (busCh s.dev ch).down = false → (busCh s.dev ch).flt ≠ 2 →
           d = busMod ch (fun x => { x with txq := x.txq ++ [txEntry r.head b] })
             (ringMod (txRing ch) (fun r => { r with head := (r.head + 1) % 65536 }) s.dev))) ∧
     (r.en = false ∨ r.head = r.tail ∨ 64 ≤ (outstanding (busCh s.dev ch)).length ∨
       (busMode s.dev ch ≠ 1 ∧ busMode s.dev ch ≠ 3) → Settles (.busTxTake ch) s s.dev)) ∧
    (∀ out, offered s.dev ch ago = none → Settles (.busTxDone ch out ago) s s.dev) ∧
    (∀ o, offered s.dev ch ago = some o →
      let d := countStart ch o (sofNs s.dev ago) s.dev
      Settles (.busTxDone ch .sent ago) s (offerSent ch o (sofNs d ago) (acked ch (markHead ch o false d))) ∧
      Settles (.busTxDone ch .arbLost ago) s (offerFailed ch o 0x10 0 (sofNs d ago) d) ∧
      (∀ e, Settles (.busTxDone ch (.error e) ago) s (attemptError ch o e (sofNs d ago) d))) ∧
    (∀ tx e, Settles (.busErrorDetected ch tx e ago) s (busErrorIn ch tx e ago s.dev)) ∧
    ((busCh s.dev ch).flt = 2 → (busCh s.dev ch).down = false → Moves (.busRecovered ch us) s
      (busRaise 0x7005 ch (List.replicate 3 0 ++ le 4 us) (busMod ch (fun x => { x with tec := 0, rec_ := 0, flt := 0 }) s.dev))) ∧
    ((busCh s.dev ch).flt ≠ 2 ∨ (busCh s.dev ch).down = true → exec (.busRecovered ch us) s = .next s) ∧
    ((busCh s.dev ch).down = false → Settles (.transceiverDown ch) s (busRaise 0x700D ch (le 1 0) (failOneShots ch 2
      (ttMod ch (fun t => { t with serve := false, cell := 0 }) (exclMissed ch (busMod ch (fun x => { x with down := true }) s.dev)))))) ∧
    ((busCh s.dev ch).down = true → Moves (.transceiverUp ch) s
      (busRaise 0x700D ch (le 1 1) (busMod ch (fun x => { x with down := false }) s.dev))) ∧
    (Ready s id 0x1703 c →
      (c.target % 256 = ch.val → Settles (.busTxFlush id) s (complete c stOk 0 (le 2 (outstanding (busCh s.dev ch)).length)
        (forEach (outstanding (busCh s.dev ch)) (fun e d => txComplete ch e stAborted 0 e.dt d) s.dev))) ∧
      (2 ≤ c.target % 256 → Settles (.busTxFlush id) s (complete c stRange 0 [] s.dev)))

/-- Time marks, the transmit enable, the loss of the reference and the reference sent (R420, R421, R422, R423, R424,
R427). -/
def Obligations.BusTimeTriggered : Prop :=
  ∀ (s : State) (ch : Fin 2) (col : Fin 32) (k : Nat),
    (busMode s.dev ch ≠ 3 ∨ (busCh s.dev ch).tt.state = 0 ∨ pisteColumns (piste s.dev ch) ≤ col.val →
      exec (.ttTimeMark ch col) s = .next s) ∧
    (∀ t, busMode s.dev ch = 3 → 2 ≤ (busCh s.dev ch).tt.state → col.val < pisteColumns (piste s.dev ch) →
      (busCh s.dev ch).tt.excl = none → cellOf (piste s.dev ch) col (busCh s.dev ch).tt.cycle = some t →
      let d := ttMod ch (fun t => { t with col := col, cell := 0, excl := none }) s.dev
      ((busCh s.dev ch).tt.serve = true → (busCh s.dev ch).down = false → (busCh s.dev ch).flt ≠ 2 →
        (t.kind = 1 → Moves (.ttTimeMark ch col) s (ttMod ch (fun x => { x with excl := some t.smo, cell := 1 })
          (boundary (fun _ d => d) (fun w => w.addr = addrOf kBusSmo (32 * ch + t.smo)) d))) ∧
        (t.kind ≠ 1 → Moves (.ttTimeMark ch col) s (ttMod ch (fun x => { x with cell := 2 })
          (busMod ch (fun c => { c with txq := c.txq.map fun x => { x with skip := false } }) d)))) ∧
      ((busCh s.dev ch).tt.serve = false → t.kind = 1 → Moves (.ttTimeMark ch col) s (cellMissed ch d))) ∧
    ((busCh s.dev ch).tt.excl ≠ none → Moves (.txEnableExpired ch) s (cellMissed ch s.dev)) ∧
    ((busCh s.dev ch).tt.excl = none → exec (.txEnableExpired ch) s = .next s) ∧
    (busMode s.dev ch = 3 → 2 ≤ (busCh s.dev ch).tt.state → ∃ d, Moves (.referenceLost ch) s d ∧
      (busCh d ch).tt.state = 1 ∧ (busCh d ch).tt.serve = false ∧ (busCh d ch).tt.excl = none) ∧
    (busMode s.dev ch ≠ 3 ∨ (busCh s.dev ch).tt.state < 2 → exec (.referenceLost ch) s = .next s) ∧
    (mayRefer s.dev ch = false → exec (.referenceSend ch k) s = .next s) ∧
    (mayRefer s.dev ch = true → ∃ d, Moves (.referenceSend ch k) s d ∧
      (busCh d ch).tt.role = 1 ∧ (busCh d ch).tt.state = 3 ∧ (busCh d ch).tt.disc = false)

/-- Roster misses, assignments, standby repeats, own heartbeats and BUS_ROLE_ASSIGN (R429, R430, R431, R432, R433, R437).
-/
def Obligations.BusRoster : Prop :=
  ∀ (s : State) (r : Fin 96) (node : Fin 128) (ch : Fin 2) (id : CmdId) (c : Cmd),
    ((roleOf s.dev r).state = 3 → pget s.dev kBusRstEnable 0 ≠ 0 →
      let d := roleMod r (fun x => { x with misses := x.misses + 1 }) s.dev
      Moves (.rosterMiss r) s (if roleLimit d r ≤ (roleOf d r).misses then roleDead r d else d)) ∧
    ((roleOf s.dev r).state ≠ 3 ∨ pget s.dev kBusRstEnable 0 = 0 → exec (.rosterMiss r) s = .next s) ∧
    ((roleOf s.dev r).state = 2 → pget s.dev kBusRstEnable 0 ≠ 0 → Moves (.assignTimeout r) s
      (tryAssign r
        (if (roleOf s.dev r).spares.any fun n => n = (roleOf s.dev r).cand then
          ((roleOf s.dev r).spares.dropWhile fun n => n != (roleOf s.dev r).cand).drop 1 else (roleOf s.dev r).spares)
        (sendCommand 2 r (roleOf s.dev r).cand (epochUp r s.dev)))) ∧
    ((roleOf s.dev r).state ≠ 2 ∨ pget s.dev kBusRstEnable 0 = 0 → exec (.assignTimeout r) s = .next s) ∧
    (nodeObeys s.dev node = true → (∃ x ∈ (roleOf s.dev r).stale, x.node = node.val ∧ x.sending = true) →
      Moves (.standbyRepeat r node) s (sendCommand 2 r node s.dev)) ∧
    ((∀ x ∈ (roleOf s.dev r).stale, x.node ≠ node.val ∨ x.sending = false) → exec (.standbyRepeat r node) s = .next s) ∧
    (bitOf (pget s.dev kBusRstEnable 0) ch = true → Moves (.ownHeartbeat ch) s
      (sendInner ch 0 (classical (pget s.dev kBusRstBase 0 + pget s.dev kBusNodeId ch)
        (le 1 0xFF ++ le 1 0 ++ le 1 2 ++ le 1 (busCh s.dev ch).hbSeq ++ le 1 3 ++ le 3 0))
        (busMod ch (fun x => { x with hbSeq := ((busCh s.dev ch).hbSeq + 1) % 256 }) s.dev))) ∧
    (bitOf (pget s.dev kBusRstEnable 0) ch = false → exec (.ownHeartbeat ch) s = .next s) ∧
    (Ready s id 0x1705 c →
      (96 ≤ c.target % 256 ∨ byteAt c.payload 0 = 0 ∨ 127 < byteAt c.payload 0 → Refuses (.busRoleAssign id) s c stRange 0) ∧
      (c.target % 256 < 96 → byteAt c.payload 0 ≠ 0 → byteAt c.payload 0 ≤ 127 →
        ((roleOf s.dev (c.target % 256)).state = 0 → Refuses (.busRoleAssign id) s c stRefused 0x70) ∧
        ((roleOf s.dev (c.target % 256)).state ≠ 0 →
          let n := byteAt c.payload 0
          let old := (roleOf s.dev (c.target % 256)).holder
          let told := [old, (roleOf s.dev (c.target % 256)).cand].filter fun m => m != 0 && m != n
          let d := forEach told (fun m d => sendCommand 2 (c.target % 256) m d) (epochUp (c.target % 256) s.dev)
          let d := sendCommand 1 (c.target % 256) n (roleMod (c.target % 256) (fun x =>
            { x with state := 2, cand := n, holder := 0, former := if old = 0 then x.former else old, misses := 0 }) d)
          Moves (.busRoleAssign id) s (complete c stOk 0 (le 4 (roleEpoch d (c.target % 256))) d))))

/-- Bus parameters at idle, rate detection and frame times (R401, R404, R413, R436, R437). -/
def Obligations.BusModeAndRates : Prop :=
  ∀ (s : State) (ch : Fin 2) (id : CmdId) (c : Cmd),
    Settles (.busModeApply ch) s (boundary busHook (busIdleWait ch true) s.dev) ∧
    Settles (.busIdleParamApply ch) s
      (boundary busHook (fun w => busIdleWait ch false w || (busMode s.dev ch != 3 && w.bnd == .basicCycle ch)) s.dev) ∧
    (∀ r, (busCh s.dev ch).rate = some r →
      Moves (.rateDwellEnd ch) s (busMod ch (fun x =>
        { x with rate := some { r with pair := nextPair s.dev ch r.pair, good := 0, brs := false } }) s.dev) ∧
      Moves (.rateDetectTimeout ch) s (completeId r.cmd stTimeout 0 [] (busMod ch (fun x => { x with rate := none }) s.dev))) ∧
    ((busCh s.dev ch).rate = none →
      exec (.rateDwellEnd ch) s = .next s ∧ exec (.rateDetectTimeout ch) s = .next s) ∧
    (Ready s id 0x1701 c →
      (2 ≤ c.target % 256 → Refuses (.busRateDetect id) s c stRange 0) ∧
      (c.target % 256 = ch.val →
        (busMode s.dev ch ≠ 0 ∨ (busCh s.dev ch).rate ≠ none → Refuses (.busRateDetect id) s c stBusyRunning 0) ∧
        (busMode s.dev ch = 0 → (busCh s.dev ch).rate = none → Moves (.busRateDetect id) s (begin_ c.id (busMod ch (fun x =>
          { x with rate := some { cmd := c.id, dwellMs := field c.payload 4 2, apply := byteAt c.payload 6 != 0, pair := 0,
                                  good := 0, brs := false, start := s.dev.time.tick } }) s.dev))))) ∧
    (Ready s id 0x1704 c →
      (2 ≤ c.target % 256 → Refuses (.busFrameUs id) s c stRange 0) ∧
      (c.target % 256 = ch.val →
        (byteAt c.payload 0 ≤ 1 → byteAt c.payload 1 ≤ 1 → byteAt c.payload 2 ≤ 1 → byteAt c.payload 3 ≤ 15 →
          (byteAt c.payload 3 ≤ 8 ∨ byteAt c.payload 1 = 1) → Answers (.busFrameUs id) s c
          (le 4 (frameNs s.dev ch (byteAt c.payload 0 == 1) (byteAt c.payload 1 == 1) (byteAt c.payload 2 == 1)
            (byteAt c.payload 3)))) ∧
        (1 < byteAt c.payload 0 ∨ 1 < byteAt c.payload 1 ∨ 1 < byteAt c.payload 2 ∨ 15 < byteAt c.payload 3 ∨
          (8 < byteAt c.payload 3 ∧ byteAt c.payload 1 = 0) → Refuses (.busFrameUs id) s c stRange 0)))

/-- An entry whose tag is live completes ST_NO_TAG with DUP and is not executed (R84). -/
def Obligations.DuplicateTagIsNotExecuted : Prop :=
  ∀ (s : State) (r : Fin 4) (x : Cmd), liveCmd s.dev (.host ((headEntry s r).headD 0)) = some x →
    let slot := ((ringOf s.dev (r.val + 4)).tail + s.dev.cmd.resv.get r) % 65536
    let c : Cmd := { entryCmd (.host ((headEntry s r).headD 0)) r 0 slot (headEntry s r) with dup := true, phase := .done }
    let t := takeHost r s
    t.mem = s.mem ∧ t.snap = s.snap ∧ t.pending = s.pending ∧
      t.dev = { s.dev with host := t.dev.host, rings := t.dev.rings, gate := t.dev.gate, cmd := t.dev.cmd } ∧
      t.dev.cmd = { s.dev.cmd with
        live := s.dev.cmd.live ++ [c], resv := t.dev.cmd.resv, q23 := t.dev.cmd.q23, laneTurn := t.dev.cmd.laneTurn } ∧
      liveCmd t.dev x.id = some x ∧
      t.dev.gate.ports.get 5 = s.dev.gate.ports.get 5 ++ [.comp
        { id := c.id, ring := r, slot := slot, opcode := c.opcode, target := c.target, status := stNoTag, detail := 0,
          dup := true, superseded := false, result := List.replicate 20 0 }] ∧
      ∀ p : Fin 8, p ≠ 5 → t.dev.gate.ports.get p = s.dev.gate.ports.get p

/-- The fraction of magnitude-3 samples leaving 15 % to 50 % raises EV_GNS_AGC once on entry, and tracking goes on (R447).
-/
def Obligations.AgcEventOncePerEntry : Prop :=
  ∀ (s : State) (b : Fin 2) (codes : Vector Nat 4),
    let pct := magPct (pget s.dev kGnsIfFmt 0) codes
    (gnsSamples s.dev = true →
      let marked : Bool → Dev := fun v => { s.dev with gns := { s.dev.gns with agcOut := s.dev.gns.agcOut.set b v } }
      (pct < 15 ∨ 50 < pct → s.dev.gns.agcOut.get b = false →
        Moves (.agcCheck b codes) s (raise 3 0x8005 (subPath 8) (le 1 b ++ le 1 pct) (marked true))) ∧
      (pct < 15 ∨ 50 < pct → s.dev.gns.agcOut.get b = true → Moves (.agcCheck b codes) s (marked true)) ∧
      (15 ≤ pct → pct ≤ 50 → Moves (.agcCheck b codes) s (marked false)) ∧
      ∀ v, (marked v).gns.chans = s.dev.gns.chans) ∧
    (gnsSamples s.dev = false → exec (.agcCheck b codes) s = .next s)

/-- VFLD above 33.0 V raises EV_PWR_VFLD_HIGH, below 32.5 V ends it, and nothing else happens (R483). -/
def Obligations.VfldHighEvent : Prop :=
  ∀ (s : State) (mv : Nat),
    (s.dev.pwr.vfldHigh = false → 33000 < mv → Moves (.vfldHigh mv) s
      (raise 6 0x9009 (subPath 9) ([0, 0, 0, 0] ++ le 4 mv) { s.dev with pwr := { s.dev.pwr with vfldHigh := true } })) ∧
    (s.dev.pwr.vfldHigh = true → mv < 32500 → Moves (.vfldHigh mv) s
      (raise 6 0x9009 (subPath 9) ([1, 0, 0, 0] ++ le 4 mv) { s.dev with pwr := { s.dev.pwr with vfldHigh := false } })) ∧
    ((s.dev.pwr.vfldHigh = false → mv ≤ 33000) → (s.dev.pwr.vfldHigh = true → 32500 ≤ mv) →
      exec (.vfldHigh mv) s = .next s)

/-- Acquisition, epochs, navigation units and dropped bands (R449, R452, R453, R455, R457, R458, R460, R461). -/
def Obligations.SatelliteSignals : Prop :=
  (∀ (s : State) (sys : Fin 3) (sv : Fin 64) (elev : Option Nat) (bands : Fin 4),
    (∀ n : Fin 32, gnsTracks s.dev = true → bitOf (pget s.dev kGnsSystems 0) sys = true → sv ≠ 0 →
      (∀ e, elev = some e → pget s.dev kGnsElevMask 0 ≤ e) →
      (∀ p ∈ gnsUsed s.dev, p.2.system ≠ sys.val ∨ p.2.sv ≠ sv.val) → bands.val &&& pget s.dev kGnsBands 0 ≠ 0 →
      (gnsUsed s.dev).length < chLimit s.dev → (s.dev.gns.chans.get n).used = false →
      (∀ m, m < n → (s.dev.gns.chans.get m).used = true) →
      Moves (.signalAcquisition sys sv elev bands) s (gchMod n (fun _ => { GnsCh.reset with
        used := true, system := sys, sv := sv, elev := elev, bands := bands.val &&& pget s.dev kGnsBands 0 }) s.dev)) ∧
    (gnsTracks s.dev = false → exec (.signalAcquisition sys sv elev bands) s = .next s)) ∧
  (∀ (s : State) (k : Nat) (ms : List GnsMeas) (sol : Option GnsSol),
    let d0 := boundary gnsHook (fun w => w.bnd == .gnsEpoch) s.dev
    (gnsTracks d0 = false → Settles (.gnssEpoch k ms sol) s d0) ∧
    (gnsTracks d0 = true → ∃ d, Settles (.gnssEpoch k ms sol) s d ∧
      (∀ x, sol = some x → solValid d0 x = true →
        d.gns.solved = true ∧ d.gns.sats = x.sats ∧ d.gns.lastValid = d0.time.tick ∧
          (d0.gns.tq ≠ 1 ∨ 4 ≤ d0.gns.good → d.time.steer = x.freq + steerCorr d0 (antDelay d0 (timeRef d0 x)))) ∧
      ((∀ x, sol = some x → solValid d0 x = false) → d.gns.good = 0 ∧ d.gns.sats = 0 ∧ d.time = d0.time))) ∧
  (∀ (s : State) (u : NavUnit),
    (gnsTracks s.dev = true → (s.dev.gns.chans.get u.ch).used = true → bitOf (pget s.dev kGnsOut 0) 1 = true →
      Settles (.navUnitComplete u) s (forEach (navFragments u) (fun p d => emit (.push 10
        (q10 s.dev 2 u.ch (s.dev.gns.chans.get u.ch).system (s.dev.gns.chans.get u.ch).sv u.signal s.dev.gns.steps u.dt
          (timeWord s.dev) p)) d) s.dev)) ∧
    (gnsTracks s.dev = false ∨ (s.dev.gns.chans.get u.ch).used = false ∨ bitOf (pget s.dev kGnsOut 0) 1 = false →
      Settles (.navUnitComplete u) s s.dev)) ∧
  (∀ (x : GnsLock) (e : Int) (g : Nat),
    (e.natAbs ≤ 100 → (lockStep x (e, g)).code = x.code + 1) ∧ (100 < e.natAbs → (lockStep x (e, g)).code = 0) ∧
    (800 < g → (lockStep x (e, g)).carrier = x.carrier + 1) ∧ (g ≤ 800 → (lockStep x (e, g)).carrier = 0)) ∧
  (∀ (s : State) (n : Fin 32) (b : Fin 2),
    ((s.dev.gns.chans.get n).used = true → 10000 ≤ ((s.dev.gns.chans.get n).lock.get b).weak →
      (s.dev.gns.chans.get n).bands = 2 ^ b.val →
      Moves (.bandDrop n b) s (gchMod n (fun _ => GnsCh.reset) s.dev)) ∧
    ((s.dev.gns.chans.get n).used = true → 10000 ≤ ((s.dev.gns.chans.get n).lock.get b).weak →
      (s.dev.gns.chans.get n).bands = 3 →
      Moves (.bandDrop n b) s (gchMod n (fun c => { bandUnlock b c with bands := 3 - 2 ^ b.val }) s.dev)) ∧
    ((s.dev.gns.chans.get n).used = false ∨ bitOf (s.dev.gns.chans.get n).bands b = false ∨
        ((s.dev.gns.chans.get n).lock.get b).weak < 10000 →
      exec (.bandDrop n b) s = .next s))

/-- Time quality, steps, holdover, leap seconds, the time pulse and the samples (R441, R446, R459, R462, R464, R466, R468,
R469, R479). -/
def Obligations.DeviceTimeEvents : Prop :=
  ∀ s : State,
    (s.dev.gns.tq = 3 → s.dev.time.tick - s.dev.gns.lastValid < 3000 → 3000 ≤ s.dev.time.tick - s.dev.gns.lastDual →
      Moves .solutionTimeout s (tqMove 2 s.dev)) ∧
    (2 ≤ s.dev.gns.tq → 3000 ≤ s.dev.time.tick - s.dev.gns.lastValid →
      ∃ d, Moves .solutionTimeout s d ∧ d.gns.tq = 1 ∧
        d.time.steer = modelSteer { s.dev with gns := { s.dev.gns with theta0 := hoTemp s.dev } }
          (s.dev.time.tick - s.dev.gns.lastValid)) ∧
    (s.dev.gns.tq < 2 ∨ (s.dev.time.tick - s.dev.gns.lastValid < 3000 ∧
        (s.dev.gns.tq = 3 → s.dev.time.tick - s.dev.gns.lastDual < 3000)) → exec .solutionTimeout s = .next s) ∧
    (s.dev.gns.due = none → exec .dtStep s = .next s) ∧
    (∀ sec chg, s.dev.gns.due = some (sec, chg) → s.dev.time.nextDt ≤ sec → exec .dtStep s = .next s) ∧
    (∀ sec chg, s.dev.gns.due = some (sec, chg) → sec < s.dev.time.nextDt → ∃ d, Moves .dtStep s d ∧
      d.time = { s.dev.time with dtFs := max s.dev.time.dtFs sec + chg, nextDt := s.dev.time.nextDt + chg } ∧
      d.gns.due = none ∧ d.gns.steps = s.dev.gns.steps + 1 ∧ d.gns.slewing = false) ∧
    (s.dev.gns.tq = 1 → ∃ d, Moves .holdoverUpdate s d ∧
      d.gns.unc = some (holdoverUnc d.gns (s.dev.time.tick - s.dev.gns.lastValid)) ∧
      d.time.steer = modelSteer s.dev (s.dev.time.tick - s.dev.gns.lastValid)) ∧
    (s.dev.gns.tq ≠ 1 → exec .holdoverUpdate s = .next s) ∧
    (∀ ofs dt, Moves (.leapSecond ofs dt) s (raise 3 0x8003 (subPath 8) (le 4 (toBits 32 ofs) ++ le 8 dt)
      { s.dev with gns := { s.dev.gns with utcOfs := some ofs } })) ∧
    (∀ k, pget s.dev kGnsPulseHz 0 = 0 → exec (.timePulse k) s = .next s) ∧
    (∀ k : Nat, pget s.dev kGnsPulseHz 0 ≠ 0 →
      let per : Int := fsPerS / pget s.dev kGnsPulseHz 0
      let moment : Int := (k : Int) * per + pgetI s.dev kGnsPulseOfs 0 * 100000
      let d := boundary gnsHook (fun w => w.bnd == .pulse) s.dev
      ((∃ chg, s.dev.gns.due = some (moment, chg)) → exec (.timePulse k) s = .next s) ∧
      (s.dev.gns.due = none → s.dev.gns.lastPulse = none →
        (d.gns.tq < pget d kGnsPulseMinTq 0 → Moves (.timePulse k) s d) ∧
        (pget d kGnsPulseMinTq 0 ≤ d.gns.tq → Moves (.timePulse k) s
          { d with gns := { d.gns with
            pulses := d.gns.pulses + 1, lastPulse := some moment
            pulseEnd := moment + pget d kGnsPulseWidthUs 0 * 1000000000
            pulseLow := pget d kGnsPulsePol 0 == 1 } }))) ∧
    (∀ (b : Fin 2) n, gnsSamples s.dev = true →
      (n < 39996 ∨ 40004 < n → Settles (.sampleCountCheck b n) s (bandLost b s.dev)) ∧
      (39996 ≤ n → n ≤ 40004 → s.dev.gns.lost.get b = false → Settles (.sampleCountCheck b n) s s.dev) ∧
      (39996 ≤ n → n ≤ 40004 → s.dev.gns.lost.get b = true → s.dev.gns.goodCounts.get b ≠ 9 →
        Settles (.sampleCountCheck b n) s { s.dev with gns := { s.dev.gns with
          goodCounts := s.dev.gns.goodCounts.set b (s.dev.gns.goodCounts.get b + 1) } }) ∧
      (39996 ≤ n → n ≤ 40004 → s.dev.gns.lost.get b = true → s.dev.gns.goodCounts.get b = 9 →
        Settles (.sampleCountCheck b n) s (raise 3 0x8004 (subPath 8) (le 1 b ++ le 1 1) { s.dev with gns := { s.dev.gns with
          lost := s.dev.gns.lost.set b false, goodCounts := s.dev.gns.goodCounts.set b 0 } })) ∧
      (∃ d, Settles (.gsclkGap b) s d ∧ d.gns.lost.get b = true ∧ d.gns.goodCounts.get b = 0 ∧
        (s.dev.gns.lost.get b = false → ∀ m, bitOf (d.gns.chans.get m).locked b = false))) ∧
    (∀ (b : Fin 2) n, gnsSamples s.dev = false →
      Settles (.sampleCountCheck b n) s s.dev ∧ Settles (.gsclkGap b) s s.dev) ∧
    (∀ (id : CmdId) (c : Cmd), Ready s id 0x1802 c →
      let unc := field c.payload 8 4
      (s.dev.gns.tq ≠ 0 → Refuses (.gnsTimeSet id) s c stRefused 0x80) ∧
      (s.dev.gns.tq = 0 → unc = 0 ∨ 1000000000 < unc → Refuses (.gnsTimeSet id) s c stRange 0) ∧
      (s.dev.gns.tq = 0 → unc ≠ 0 → unc ≤ 1000000000 →
        let d := dropDue s.dev
        Moves (.gnsTimeSet id) s (waitOn c.id { d with gns := { d.gns with
          due := some (stepSecond d d.time.dtFs, (field c.payload 0 8 : Int) * 1000000 - d.time.dtFs)
          dueCause := 1
          dueCmd := some c.id
          dueUnc := unc } }))) ∧
    (∀ (id : CmdId) (c : Cmd), Ready s id 0x1803 c → Moves (.gnsSurveyRestart id) s
      (complete c stOk 0 [] { s.dev with gns := { s.dev.gns with survey := none, held := none } }))

/-- A snapshot is commanded, begins, fills the buffer, is processed and is released (R470, R471, R472, R473, R474, R479).
-/
def Obligations.SnapshotCaptures : Prop :=
  (∀ (s : State) (id : CmdId) (c : Cmd),
    let bands := byteAt c.payload 0
    let len := field c.payload 2 2
    let need := if bands = 0 then 3 else bands
    let outside := 2 < bands ∨ 1 < byteAt c.payload 1 ∨ len < 10 ∨ (if bands = 0 then 128 else 256) < len ∨
      1 < byteAt c.payload 4
    let missing := need &&& pget s.dev kGnsBands 0 ≠ need ∨ pget s.dev kGnsEnable 0 = 0 ∨
      (bands ≠ 2 ∧ s.dev.gns.lost.get 0 = true) ∨ (bands ≠ 1 ∧ s.dev.gns.lost.get 1 = true)
    Ready s id 0x1804 c →
      (outside → Refuses (.gnsSnap id) s c stRange 0) ∧
      (¬ outside → s.dev.gns.snap.st ≠ 0 → Refuses (.gnsSnap id) s c stRefused 0x81) ∧
      (¬ outside → s.dev.gns.snap.st = 0 → missing → Refuses (.gnsSnap id) s c stRefused 0x82) ∧
      (¬ outside → s.dev.gns.snap.st = 0 → ¬ missing → byteAt c.payload 1 = 1 → s.dev.gns.hold = true →
        Refuses (.gnsSnap id) s c stRefused 0x83) ∧
      (¬ outside → s.dev.gns.snap.st = 0 → ¬ missing → byteAt c.payload 1 = 0 ∨ s.dev.gns.hold = false →
        Moves (.gnsSnap id) s (waitOn c.id (snapMod (fun x =>
          { x with
            st := 1
            number := (x.number + 1) % 65536
            bands := bands
            process := byteAt c.payload 1 == 1
            len := len
            at_ := if byteAt c.payload 4 = 1 then some (field c.payload 8 8) else none
            begun := false
            m1 := 0
            m5 := 0
            cmd := some c.id }) s.dev)))) ∧
  (∀ (s : State) (id : CmdId) (c : Cmd), Ready s id 0x1805 c →
    (s.dev.gns.snap.st = 1 ∨ s.dev.gns.snap.st = 3 → Refuses (.gnsSnapRelease id) s c stRefused 0x84) ∧
    (s.dev.gns.snap.st ≠ 1 → s.dev.gns.snap.st ≠ 3 → Moves (.gnsSnapRelease id) s
      (complete c stOk 0 [] (snapMod (fun x => { x with st := 0 }) s.dev)))) ∧
  (∀ s : State,
    (s.dev.gns.snap.st = 1 → s.dev.gns.snap.begun = false → gnsSamples s.dev = true → Moves .snapCaptureStart s
      (snapMod (fun x =>
        { x with begun := true, first := x.at_.getD (tickDtNs s.dev), time := timeWord s.dev, steps := s.dev.gns.steps })
        (match s.dev.gns.snap.cmd with
         | some id => begin_ id s.dev
         | none => s.dev))) ∧
    (s.dev.gns.snap.st ≠ 1 ∨ s.dev.gns.snap.begun = true ∨ gnsSamples s.dev = false →
      exec .snapCaptureStart s = .next s)) ∧
  (∀ (s : State) (l1 l5 : List (BitVec 4)) (lead : Fin 25),
    (snapRuns s.dev = true → ∃ t, exec (.snapCaptureEnd l1 l5 lead) s = .next t ∧ t.pending = s.pending ∧
      (∀ a, memRead t.snap a 1 = [(snapData s.dev.gns.snap l1 l5).getD a 0])) ∧
    (snapRuns s.dev = false → exec (.snapCaptureEnd l1 l5 lead) s = .next s)) ∧
  (∀ (s : State) (found : List SnapSat),
    (s.dev.gns.snap.st = 3 → s.dev.gns.snap.desc = none → Settles (.snapProcessDone found) s
      (let d := forEach found (fun x d => q10Put 3 (q10 d 4 0xFF x.system x.sv x.signal s.dev.gns.snap.steps
          s.dev.gns.snap.first s.dev.gns.snap.time
          (le 4 x.codePhase ++ le 4 (toBits 32 x.doppler) ++ le 2 x.cn0 ++ le 2 s.dev.gns.snap.number)) d) s.dev
       snapPut (snapDesc d 2 (snapBytes s.dev.gns.snap) found.length) 2 d)) ∧
    (s.dev.gns.snap.st ≠ 3 ∨ s.dev.gns.snap.desc ≠ none → Settles (.snapProcessDone found) s s.dev))

/-- Power, NRST, brownout, content loss, the start-up steps and the field die's start (R40, R97, R485, R490, R491, R492,
R493, R495, R530, R542). -/
def Obligations.ResetsAndStartUp : Prop :=
  (∀ (s : State) (pins : Fin 4),
    (s.dev.pwr.powered = false → s.dev.hlt.ctlLatch = false → Moves (.powerOn pins) s { s.dev with
      pwr := { s.dev.pwr with powered := true, bootPins := pins }
      host := { s.dev.host with bootMode := pins, cause := 0x00 } }) ∧
    (s.dev.pwr.powered = true ∨ s.dev.hlt.ctlLatch = true → exec (.powerOn pins) s = .next s) ∧
    (∃ t, exec .powerOnReset s = .next t ∧ t.pending = s.pending ∧ t.mem = [] ∧ t.snap = [] ∧ t.dev.pwr.powered = false ∧
      t.dev.gate.bib = 0 ∧ t.dev.gate.wrap = 0 ∧ t.dev.time.tick = 0 ∧ t.dev.hlt.ctlLatch = false) ∧
    (s.dev.pwr.powered = true →
      (∃ t, exec (.nrstRelease pins) s = .next t ∧ t.pending = s.pending ∧ t.mem = s.mem ∧ t.snap = [] ∧
        t.dev.host.cause = 0x01 ∧ t.dev.host.bootMode = pins ∧ t.dev.host.stage = 0 ∧ t.dev.gate.bib = s.dev.gate.bib ∧
        t.dev.gate.wrap = s.dev.gate.wrap ∧ t.dev.time = s.dev.time ∧ t.dev.pwr.fieldPow = false) ∧
      (∃ t, exec .chaletContentLoss s = .next t ∧ t.pending = s.pending ∧ t.mem = [] ∧ t.dev.host.cause = 0x03 ∧
        t.dev.pwr.powered = true ∧ t.dev.gate.bib = 0 ∧ t.dev.gate.wrap = 0 ∧ t.dev.time.tick = 0) ∧
      (s.dev.pwr.lowPower = false → ∃ t, exec .coreBrownoutFull s = .next t ∧ t.pending = s.pending ∧ t.mem = s.mem ∧
        t.snap = [] ∧ t.dev.host.cause = 0x03 ∧ t.dev.gate.bib = s.dev.gate.bib ∧ t.dev.time = s.dev.time ∧
        t.dev.pwr.fieldPow = s.dev.pwr.fieldPow)) ∧
    (s.dev.pwr.powered = false → exec (.nrstRelease pins) s = .next s ∧ exec .chaletContentLoss s = .next s) ∧
    (s.dev.pwr.powered = false ∨ s.dev.pwr.lowPower = true → exec .coreBrownoutFull s = .next s)) ∧
  (∀ (s : State) (keyOk a b : Bool) (mv : Nat) (test : Option FieldTest),
    (s.dev.pwr.powered = false ∨ s.dev.host.limp = true ∨ s.dev.host.stage ≠ 0 →
      Takes (.startUp keyOk a b mv test) s s.dev) ∧
    (s.dev.pwr.powered = true → s.dev.host.limp = false → s.dev.host.stage = 0 →
      (s.dev.host.bootMode = 3 ∨ s.dev.host.loaderNext = true ∨ (a = false ∧ b = false) →
        ∃ d, Takes (.startUp keyOk a b mv test) s d ∧ d.host.stage = 0xF0 ∧ d.host.hrdy = true ∧ domState d 1 = 0 ∧
          domState d 6 = 0) ∧
      (s.dev.host.bootMode ≠ 3 → s.dev.host.loaderNext = false → ∀ bank : Bool,
        (if s.dev.cmd.fw.nextBank then b else a) = true ∧ bank = s.dev.cmd.fw.nextBank ∨
          (if s.dev.cmd.fw.nextBank then b else a) = false ∧ (if s.dev.cmd.fw.nextBank then a else b) = true ∧
            bank = !s.dev.cmd.fw.nextBank →
        let failed := if bank = s.dev.cmd.fw.nextBank then none else some s.dev.cmd.fw.nextBank
        let d := firmwareStart bank failed keyOk mv (bootRom s.dev)
        (d.host.stage = 0x30 ∧ d.host.fwBank = bank ∧ d.time.running = true ∧ d.pwr.vlog = mv) ∧
        (test = none ∨ s.dev.hlt.fieldLatch = true → Takes (.startUp keyOk a b mv test) s d) ∧
        (∀ t, test = some t → s.dev.hlt.fieldLatch = false →
          Takes (.startUp keyOk a b mv test) s (bootFinish (fieldStart t d)))))) ∧
  (∀ (s : State) (t : FieldTest),
    (s.dev.host.stage = 0x30 → s.dev.lift.up.inLock = false → Takes .liftStartTimeout s (bootFinish s.dev)) ∧
    (s.dev.host.stage ≠ 0x30 ∨ s.dev.lift.up.inLock = true → Takes .liftStartTimeout s s.dev) ∧
    (s.dev.pwr.fieldUp = true ∨ s.dev.hlt.fieldLatch = true ∨ s.dev.pwr.fStep = 5 ∨ downOn s.dev = false →
      Takes (.fieldDieStartUp t) s s.dev) ∧
    (s.dev.pwr.fieldUp = false → s.dev.hlt.fieldLatch = false → s.dev.pwr.fStep ≠ 5 → downOn s.dev = true →
      s.dev.host.stage ≠ 0x30 → Takes (.fieldDieStartUp t) s (fieldStart t s.dev)) ∧
    (s.dev.pwr.fieldPow = true → ∃ d, Moves .fieldWatchdogReset s d ∧ d.pwr.hold = true ∧ d.pwr.holdEnd = .svcRelease ∧
      d.pwr.fieldUp = false) ∧
    (s.dev.pwr.fieldPow = false → exec .fieldWatchdogReset s = .next s))

/-- Sleep is asked for, entered and left; failures retry, then limp (R485, R496, R497, R498, R499, R500, R501, R502, R503,
R504). -/
def Obligations.SleepAndWake : Prop :=
  (∀ (s : State) (id : CmdId) (c : Cmd), Ready s id 0x1901 c →
    let mask := field c.payload 0 2
    let target := field c.payload 2 2
    let d := groomAbandon true s.dev
    let r := sleepAsk c.id mask target askOrder (begin_ c.id (pwrMod (fun p =>
      { p with stopped := [], enterD6 := none, enterD1 := none, sleepSlot := false, sleepCmd := some c.id }) d))
    (sleepRange d mask target = true → Moves (.sleepReq id) s (complete c stRange 0 [] (groomResume d))) ∧
    (sleepRange d mask target = false → r.1 = none →
      let e := completeId c.id stOk 0
        (le 2 (domMask r.2.pwr.stopped + 64 * b2n r.2.pwr.enterD6.isSome + 2 * b2n r.2.pwr.enterD1.isSome)) r.2
      exec (.sleepReq id) s = .next { s with snap := snapAfter s e, dev := e }) ∧
    (∀ n why, sleepRange d mask target = false → r.1 = some (n, why) →
      let e := sleepRollback c n why r.2
      exec (.sleepReq id) s = .next { s with snap := snapAfter s e, dev := e })) ∧
  (∀ s : State,
    (s.dev.pwr.sleepSlot = false → exec .sleepEntry s = .next s) ∧
    (s.dev.pwr.sleepSlot = true → ∃ d, Moves .sleepEntry s d ∧ d.pwr.sleepSlot = false ∧
      (∀ st, s.dev.pwr.enterD6 = some st → domState d 6 = st) ∧ (∀ st, s.dev.pwr.enterD1 = some st → domState d 1 = st))) ∧
  (∀ (s : State) (id : CmdId) (c : Cmd), Ready s id 0x1902 c →
    let m0 := field c.payload 0 2
    let m := if m0 = 0 then 2 ^ 11 - 1 else m0
    let d8 := bitOf m 8 && (m0 != 0 || vAt s.dev.pwr.pads 8 false)
    let d := excUpdate (pwrMod (fun p =>
      { p with pads := Vector.ofFn fun n => p.pads.get n && (!bitOf m n || n.val == 7 || n.val == 8) }) s.dev)
    (2 ^ 11 ≤ m → Refuses (.padRelease id) s c stRange 0) ∧
    (m < 2 ^ 11 → d8 = true → releaseBarred s.dev = true → Refuses (.padRelease id) s c stRefused 0x66) ∧
    (m < 2 ^ 11 → d8 = false → Moves (.padRelease id) s (complete c stOk 0 [] d)) ∧
    (m < 2 ^ 11 → d8 = true → releaseBarred s.dev = false → s.dev.pwr.hold = false →
      Moves (.padRelease id) s (begin_ c.id d))) ∧
  (∀ (s : State) (src : Fin 6) (late : BitVec 11) (ms : Nat) (unit : Fin 3) (link : Bool),
    (s.dev.pwr.stopped ≠ [] → wakeEnabled s.dev src = true → Takes (.wake src late) s (wakeUp src late.toNat s.dev)) ∧
    (s.dev.pwr.stopped = [] ∨ wakeEnabled s.dev src = false → Takes (.wake src late) s s.dev) ∧
    (s.dev.pwr.lowPower = true → Takes (.coreBrownoutLowPower ms late) s
      (wakeUp 6 late.toNat (raise 6 0x9007 (subPath 9) (le 4 0 ++ le 4 ms) (setParam (addrOf kPwrLpAllow 0) [0]
        { s.dev with pwr := { s.dev.pwr with lowPower := false, lpBarred := true } })))) ∧
    (s.dev.pwr.lowPower = false → Takes (.coreBrownoutLowPower ms late) s s.dev) ∧
    (attempting s.dev = false → Takes (.wakeAttemptFail unit link) s s.dev) ∧
    (attempting s.dev = true → s.dev.pwr.wakeRetry < 3 → Takes (.wakeAttemptFail unit link) s
      { s.dev with pwr := { s.dev.pwr with wakeRetry := s.dev.pwr.wakeRetry + 1 } }) ∧
    (attempting s.dev = true → 3 ≤ s.dev.pwr.wakeRetry → ∃ d, Takes (.wakeAttemptFail unit link) s d ∧ d.host.limp = true ∧
      d.host.stage = 0xE0 ∧ d.host.hrdy = link ∧ d.pwr.level = 0 ∧ d.pwr.coreMv = 800)) ∧
  (∀ (s : State) (n : Fin 11) (back : Bool),
    (domState s.dev n ≠ 3 → Takes (.domainReturnTimeout n back) s s.dev) ∧
    (domState s.dev n = 3 →
      Takes (.domainReturnTimeout n true) s (domWake n 1 s.dev) ∧
      (vAt s.dev.pwr.domRetry n 0 < 3 → Takes (.domainReturnTimeout n false) s
        (pwrMod (fun p => { p with domRetry := p.domRetry.set n (vAt s.dev.pwr.domRetry n 0 + 1) }) s.dev)) ∧
      (3 ≤ vAt s.dev.pwr.domRetry n 0 → n ≠ 1 → ∃ d,
        exec (.domainReturnTimeout n false) s = .next (takeAll (settle { s with snap := snapAfter s d, dev := d })) ∧
          domState d n = 2 ∧ vAt d.pwr.domDead n false = true)))

/-- The steps of both ladders begin and end one at a time, and F3 sheds by class (R505, R506, R507, R508, R509). -/
def Obligations.SideslipLadders : Prop :=
  (∀ (s : State) (mv : Nat),
    (5 ≤ s.dev.pwr.fStep ∨ s.dev.pwr.fieldPow = false ∨ fieldThreshold (s.dev.pwr.fStep + 1) ≤ mv →
      exec (.fieldStepBegin mv) s = .next s) ∧
    (s.dev.pwr.fStep < 5 → s.dev.pwr.fieldPow = true → mv < fieldThreshold (s.dev.pwr.fStep + 1) →
      ∃ d, Moves (.fieldStepBegin mv) s d ∧ d.pwr.fStep = s.dev.pwr.fStep + 1 ∧
        (s.dev.pwr.fStep = 3 → d.lift.stopped = true) ∧ (s.dev.pwr.fStep = 4 → d.pwr.fieldPow = false)) ∧
    (s.dev.pwr.fStep = 0 ∨ mv < fieldThreshold s.dev.pwr.fStep + 500 → exec (.fieldStepEnd mv) s = .next s) ∧
    (s.dev.pwr.fStep ≠ 0 → fieldThreshold s.dev.pwr.fStep + 500 ≤ mv →
      ∃ d, Moves (.fieldStepEnd mv) s d ∧ d.pwr.fStep + 1 = s.dev.pwr.fStep ∧ d.pwr.vfldField = mv ∧
        (s.dev.pwr.fStep = 5 → d.pwr.fieldPow = true))) ∧
  (fieldThreshold 1 = 19000 ∧ fieldThreshold 2 = 17500 ∧ fieldThreshold 3 = 16000 ∧ fieldThreshold 4 = 14000 ∧
    fieldThreshold 5 = 12000 ∧ logicThreshold 1 = 3100 ∧ logicThreshold 2 = 3020 ∧ logicThreshold 3 = 2950 ∧
    logicThreshold 4 = 2850 ∧ logicThreshold 5 = 2750) ∧
  (∀ (s : State) (c : Fin 4),
    (c = 0 ∨ s.dev.pwr.fStep < 3 ∨ s.dev.pwr.fieldPow = false ∨ s.dev.pwr.shed.get c = true →
      exec (.f3ClassShed c) s = .next s) ∧
    (c ≠ 0 → 3 ≤ s.dev.pwr.fStep → s.dev.pwr.fieldPow = true → s.dev.pwr.shed.get c = false →
      ∃ d, Moves (.f3ClassShed c) s d ∧ d.pwr.shed = s.dev.pwr.shed.set c true) ∧
    (s.dev.pwr.f3Ended = true → s.dev.pwr.fStep < 3 → s.dev.pwr.shed.get c = true →
      Moves (.f3ClassRelease c) s { s.dev with pwr := { s.dev.pwr with relClass := s.dev.pwr.relClass.set c true } }) ∧
    (s.dev.pwr.f3Ended = false ∨ 3 ≤ s.dev.pwr.fStep ∨ s.dev.pwr.shed.get c = false →
      exec (.f3ClassRelease c) s = .next s)) ∧
  (∀ (s : State) (mv : Nat),
    (5 ≤ s.dev.pwr.lStep ∨ s.dev.pwr.powered = false ∨ logicThreshold (s.dev.pwr.lStep + 1) ≤ mv →
      exec (.logicStepBegin mv) s = .next s) ∧
    (s.dev.pwr.lStep < 4 → s.dev.pwr.powered = true → mv < logicThreshold (s.dev.pwr.lStep + 1) →
      ∃ d, Moves (.logicStepBegin mv) s d ∧ d.pwr.lStep = s.dev.pwr.lStep + 1 ∧ d.pwr.vlog = mv ∧
        (s.dev.pwr.lStep = 0 → d.gns.hold = true)) ∧
    (s.dev.pwr.lStep = 4 → s.dev.pwr.powered = true → mv < logicThreshold 5 →
      ∃ t, exec (.logicStepBegin mv) s = .next t ∧ t.pending = s.pending ∧ t.mem = s.mem ∧ t.snap = [] ∧
        t.dev.host.cause = 0x05 ∧ t.dev.host.stage = 0 ∧ t.dev.pwr.lStep = 5 ∧ t.dev.time = s.dev.time) ∧
    (s.dev.pwr.lStep = 0 ∨ 4 < s.dev.pwr.lStep ∨ mv < logicThreshold s.dev.pwr.lStep + 50 →
      Takes (.logicStepEnd mv) s s.dev) ∧
    (s.dev.pwr.lStep ≠ 0 → s.dev.pwr.lStep ≤ 4 → logicThreshold s.dev.pwr.lStep + 50 ≤ mv →
      ∃ d, Takes (.logicStepEnd mv) s d ∧ d.pwr.lStep + 1 = s.dev.pwr.lStep ∧ d.pwr.vlog = mv ∧
        (s.dev.pwr.lStep = 1 → d.gns.hold = false)))

/-- Housekeeping, the thermal cap, supervisors, Patrol, uncorrectable errors and quarantine (R515, R516, R518, R520, R523,
R524, R527, R531, R540). -/
def Obligations.HealthEvents : Prop :=
  (∀ (s : State) (r : HouseRound),
    (s.dev.pwr.powered = false → Takes (.housekeepingRound r) s s.dev) ∧
    (s.dev.pwr.powered = true → clockFails r s.dev = false → ∃ d, Takes (.housekeepingRound r) s d ∧ d.pwr.vlog = r.vlogMv ∧
      d.hlt.margin = marginNow d) ∧
    (s.dev.pwr.powered = true → clockFails r s.dev = true → (s.dev.hlt.causes.get 1 = true → s.dev.hlt.demand = true) →
      ∃ t, exec (.housekeepingRound r) s = .next t ∧
      t.pending = s.pending ∧ t.mem = s.mem ∧ t.snap = [] ∧ t.dev.host.cause = 0x04 ∧ t.dev.hlt.demand = true ∧
      t.dev.hlt.causes.get 1 = true)) ∧
  (∀ s : State,
    (s.dev.hlt.capOn = false → exec .thermalCapStep s = .next s) ∧
    (s.dev.hlt.capOn = true → 3 ≤ s.dev.hlt.thrStep → s.dev.hlt.capMargin + 100 ≤ s.dev.hlt.margin →
      Moves .thermalCapStep s { s.dev with hlt := { s.dev.hlt with capMargin := s.dev.hlt.margin } }) ∧
    (s.dev.hlt.capOn = true → 3 ≤ s.dev.hlt.thrStep → s.dev.hlt.margin < s.dev.hlt.capMargin + 100 →
      (if anyLoopRuns s.dev then 1 else 0) < s.dev.hlt.capLevel → Moves .thermalCapStep s { s.dev with
        hlt := { s.dev.hlt with capLevel := s.dev.hlt.capLevel - 1, capMargin := s.dev.hlt.margin } }) ∧
    (s.dev.hlt.capOn = true → s.dev.hlt.thrStep < 3 → ∃ d, Moves .thermalCapStep s d ∧
      d.hlt.capLevel = min 3 (s.dev.hlt.capLevel + 1))) ∧
  (∀ (s : State) (us : Nat) (differs : Bool),
    (mismatchSeen s.dev = false → exec (.lockstepMismatch us differs) s = .next s) ∧
    (mismatchSeen s.dev = true → mismatchPersists differs s.dev = false → ∃ d, Moves (.lockstepMismatch us differs) s d ∧
      d.hlt.rollback = some s.dev.time.tick ∧ d.hlt.rollbacks = s.dev.hlt.rollbacks + 1) ∧
    (mismatchSeen s.dev = true → mismatchPersists differs s.dev = true →
      exec (.lockstepMismatch us differs) s = exec .supervisorHeartbeatMiss s) ∧
    (s.dev.pwr.powered = false ∨ s.dev.hlt.patrolLost = true → exec .supervisorHeartbeatMiss s = .next s) ∧
    (∀ new, s.dev.pwr.powered = true → s.dev.hlt.patrolLost = false → standby s.dev = some new →
      ∃ d, Moves .supervisorHeartbeatMiss s d ∧
      (unitOf d new).st = 0 ∧ d.hlt.supSingle = true) ∧
    (s.dev.pwr.powered = true → s.dev.hlt.patrolLost = false → standby s.dev = none →
      (s.dev.hlt.causes.get 0 = true → s.dev.hlt.demand = true) →
      ∃ t, exec .supervisorHeartbeatMiss s = .next t ∧
      t.pending = s.pending ∧ t.mem = s.mem ∧ t.snap = [] ∧ t.dev.host.cause = 0x04 ∧ t.dev.hlt.demand = true)) ∧
  (∀ s : State,
    (s.dev.hlt.patrolLost = true → exec .patrolStall s = .next s) ∧
    (∀ r, s.dev.hlt.patrolLost = false → s.dev.hlt.patrolRestart = some r → s.dev.time.tick - r ≤ 3600000 →
      ∃ d, Moves .patrolStall s d ∧ d.hlt.patrolLost = true) ∧
    (s.dev.hlt.patrolLost = false → (∀ r, s.dev.hlt.patrolRestart = some r → 3600000 < s.dev.time.tick - r) →
      ∃ d, Moves .patrolStall s d ∧ d.hlt.patrolLost = false ∧ d.hlt.patrolRestart = some s.dev.time.tick)) ∧
  (∀ (s : State) (region : Fin 9) (addr : BitVec 32) (other : Bool),
    let d := hltCount 1 1 (raise 6 0xA003 (mkPath 0xA 2 0xFFFFFF) (le 4 addr.toNat ++ le 1 region) s.dev)
    let w := addr.toNat / 4 * 4
    (region = 6 ∨ (region = 7 ∧ other = true) → Moves (.eccUncorrectable region addr other) s d) ∧
    (region = 4 ∨ region = 5 → Moves (.eccUncorrectable region addr other) s
      { d with host := { d.host with badWords := w :: d.host.badWords.filter (· != w) } }) ∧
    (region = 0 → Moves (.eccUncorrectable region addr other) s (pairSpoil (addr.toNat % 2 ^ 24) other d)) ∧
    (region = 2 → ∃ e : Fin 3, e.val = addr.toNat % 3 ∧ Moves (.eccUncorrectable region addr other) s (engineFault e d)) ∧
    (region = 3 ∨ (region = 7 ∧ other = false) → Moves (.eccUncorrectable region addr other) s (eccRollback d)) ∧
    (region = 8 → Moves (.eccUncorrectable region addr other) s (recordSpoil addr.toNat d))) ∧
  (∀ (s : State) (u : Fin 52) (passed : Bool),
    ((unitOf s.dev u).st ≠ 2 ∨ s.dev.hlt.patrolLost = true → exec (.quarantineDone u passed) s = .next s) ∧
    ((unitOf s.dev u).st = 2 → s.dev.hlt.patrolLost = false → ∃ d, Moves (.quarantineDone u passed) s d ∧
      (passed = false ∨ (unitOf s.dev u).again = true → (unitOf d u).st = 3) ∧
      (passed = true → (unitOf s.dev u).again = false → 3 ≤ u.val → (unitOf d u).st = 1)))

/-- Grooming passes, shut-downs, flash operations and the demand (R517, R533, R534, R541, R542, R543, R544, R551). -/
def Obligations.GroomingShutdownAndFlash : Prop :=
  (∀ s : State,
    (s.dev.hlt.groomRun = true ∨ groomDeferred s.dev = true ∨ groomDue s.dev = false ∨ s.dev.host.stage ≠ 0x80 →
      exec .groomingPass s = .next s) ∧
    (s.dev.hlt.groomRun = false → groomDeferred s.dev = false → groomDue s.dev = true → s.dev.host.stage = 0x80 →
      Moves .groomingPass s { s.dev with hlt := { s.dev.hlt with
        groomRun := true
        groomReason := if s.dev.hlt.groomBoot then 1 else if s.dev.hlt.groomCmd.isSome then 2 else 0
        groomBoot := false
        groomRepeat := none } })) ∧
  (∀ (s : State) (p : GroomPlan),
    (s.dev.hlt.groomRun = false → exec (.groomingCommit p) s = .next s) ∧
    (s.dev.hlt.groomRun = true → ∃ d, Moves (.groomingCommit p) s d ∧ d.hlt.groomRun = false ∧ d.hlt.groomCmd = none ∧
      d.hlt.groomPass = (s.dev.hlt.groomPass + 1) % 65536 ∧ d.hlt.groomLast = s.dev.time.tick ∧
      d.hlt.v3 = if 800 < slowCore p then s.dev.hlt.v3 else planV3 p)) ∧
  (∀ (s : State) (id : CmdId) (c : Cmd), Ready s id 0x1A02 c →
    (s.dev.hlt.groomRun = true ∨ s.dev.hlt.groomCmd.isSome = true → Refuses (.hltGroomNow id) s c stRefused 0xA1) ∧
    (s.dev.hlt.groomRun = false → s.dev.hlt.groomCmd = none →
      let d := begin_ c.id s.dev
      Moves (.hltGroomNow id) s (groomPass { d with hlt := { d.hlt with groomCmd := some c.id } }))) ∧
  (∀ (s : State) (id : CmdId) (c : Cmd), Ready s id 0x1A04 c →
    ((∃ k, s.dev.hlt.causes.get k = true ∧ causeHolds s.dev k = true) → Refuses (.hltDemandClear id) s c stRefused 0xA2) ∧
    ((∀ k, s.dev.hlt.causes.get k = true → causeHolds s.dev k = false) → ∃ d, Moves (.hltDemandClear id) s d ∧
      d.hlt.demand = false ∧ (∀ k, d.hlt.causes.get k = false) ∧
      (d.gate.ports.get 5) = s.dev.gate.ports.get 5 ++ [.comp (compOf c stOk 0 false (tickBytes s.dev))])) ∧
  (∀ (s : State) (sensor : Fin 6) (v : Int),
    (s.dev.pwr.powered = false → exec (.controlDieShutdown sensor v) s = .next s) ∧
    (s.dev.pwr.powered = true → ∃ t, exec (.controlDieShutdown sensor v) s = .next t ∧ t.pending = s.pending ∧ t.mem = [] ∧
      t.snap = [] ∧ t.dev.pwr.powered = false ∧ t.dev.hlt.ctlLatch = true ∧
      t.dev.hlt.shutdownWord = some (le 8 (dtNs s.dev) ++ le 1 sensor ++ [0] ++ le 2 (toBits 16 v))) ∧
    (s.dev.pwr.fieldPow = false → exec .fieldDieShutdown s = .next s) ∧
    (s.dev.pwr.fieldPow = true → ∃ d, Moves .fieldDieShutdown s d ∧ d.hlt.fieldLatch = true ∧ d.pwr.fieldPow = false ∧
      d.pwr.hold = true ∧ d.pwr.holdEnd = .svcRelease) ∧
    Moves .fieldLatchClear s { s.dev with hlt := { s.dev.hlt with fieldLatch := false } }) ∧
  (∀ s : State,
    (s.dev.hlt.flash = [] ∨ flashRuns s.dev = false → Takes .flashOperationDone s s.dev) ∧
    (∀ f rest, s.dev.hlt.flash = f :: rest → f.kind = 5 → Takes .flashOperationDone s s.dev) ∧
    (∀ f rest, s.dev.hlt.flash = f :: rest → flashRuns s.dev = true → f.kind ≠ 5 →
      let d := flashActs f { s.dev with hlt := { s.dev.hlt with flash := rest, flashOpen := false } }
      (f.cmd = none → Takes .flashOperationDone s (flashNext d)) ∧
      (∀ id, f.cmd = some id → Takes .flashOperationDone s (flashNext (completeId id stOk 0
        (if f.kind = 0 && f.wr.isSome then tickBytes d else f.result) d))))) ∧
  (∀ (s : State) (sectors discarded : Nat),
    (domOn s.dev 5 = false ∨ 3 ≤ s.dev.pwr.lStep → exec (.flashRefreshDue sectors discarded) s = .next s) ∧
    (domOn s.dev 5 = true → s.dev.pwr.lStep < 3 → Moves (.flashRefreshDue sectors discarded) s
      (raise 6 0xA013 (subPath 0xA) (le 1 sectors ++ le 1 discarded ++ le 1 1)
        { s.dev with hlt := { s.dev.hlt with erases := s.dev.hlt.erases + sectors } })))

/-- Lot records, attestation, enrolment and the nonce (R556, R557, R558, R559, R561, R564, R566, R567). -/
def Obligations.IdentityCommands : Prop :=
  (∀ s : State,
    ((∀ l ∈ s.dev.svc.closed, l.closeBib = none) ∨ 3 ≤ s.dev.pwr.lStep → Settles .lotRecordSigned s s.dev) ∧
    (∀ l, (s.dev.svc.closed.find? fun l => l.closeBib.isSome) = some l → s.dev.pwr.lStep < 3 →
      ∃ d, Settles .lotRecordSigned s d ∧ d.idn.next = s.dev.idn.next + 1 ∧
        (newestRecord d).map (·.1) = some s.dev.idn.next ∧ ∀ x ∈ d.svc.closed, x.no ≠ l.no)) ∧
  (∀ (s : State) (id : CmdId) (c : Cmd),
    (Ready s id 0x1B01 c →
      (s.dev.idn.keyFault = true → Refuses (.idAttest id) s c stIntegrity 0) ∧
      (s.dev.idn.keyFault = false → Moves (.idAttest id) s (begin_ c.id (raise 6 0xB003 (pkgPath 0xB) (le 1 c.commander)
        { s.dev with idn := { s.dev.idn with attests := s.dev.idn.attests ++
          [{ cmd := c.id, source := c.commander, challenge := c.payload.take 32 }] } })))) ∧
    (Ready s id 0x1B03 c → ¬ FlashFree s → Settles (.idEnrol id) s (flashQueued c s.dev)) ∧
    (Ready s id 0x1B03 c → FlashFree s →
      let d := atBoundary (fun w => w.bnd == .enrol) s.dev
      let req := padTo 224 (pbytes d kIdnEnrolReq 0)
      (∀ r, enrolRefusal d req = some r → Settles (.idEnrol id) s (complete c r.status r.detail [] d)) ∧
      (enrolRefusal d req = none → ∃ e, Settles (.idEnrol id) s e ∧ e.idn.next = d.idn.next + 1 ∧ e.idn.nonce = none ∧
        (newestRecord e).map (·.1) = some d.idn.next ∧
        (e.hlt.flash.getLast?.map fun f => (f.cmd, f.kind, f.ref)) = some (some c.id, 3, chainNo d + 1))) ∧
    (Ready s id 0x1B05 c →
      let n := (Config.freeWord s.dev.free).toNat
      Moves (.idNonce id) s (complete c stOk 0 (le 4 n) { s.dev with
        free := s.dev.free + 1
        idn := { s.dev.idn with nonce := some (n, s.dev.time.tick) } })))
end

