-- ==== Sys2Proof/Laws/Bits.lean ====
section
/-!
SUPPORT. Laws/Bits.lean: bytes of a number and back, and the range of the host link's checksum.
-/
namespace Sys2Proof.Machine

@[simp] theorem le_length (n x : Nat) : (le n x).length = n := by
  induction n generalizing x with
  | zero => rfl
  | succ n ih => simp [le, ih]

@[simp] theorem beBytes_length (n x : Nat) : (beBytes n x).length = n := by simp [beBytes]

/-- The bytes of a number spell it. -/
theorem de_le {n x : Nat} (h : x < 256 ^ n) : de (le n x) = x := by
  induction n generalizing x with
  | zero => simp at h; simp [le, de, h]
  | succ n ih =>
    have : x / 256 < 256 ^ n := by
      rw [Nat.div_lt_iff_lt_mul (by omega)]
      simpa [Nat.pow_succ] using h
    simp only [le, de, ih this, BitVec.toNat_ofNat]
    omega

theorem deBig_beBytes {n x : Nat} (h : x < 256 ^ n) : deBig (beBytes n x) = x := by
  simp [deBig, beBytes, de_le h]

theorem crc16Step_lt (c : Nat) (b : Bool) : crc16Step c b < 65536 := by
  unfold crc16Step
  split
  · exact Nat.mod_lt _ (by omega)
  · exact Nat.xor_lt_two_pow (n := 16) (Nat.mod_lt _ (by omega)) (by omega)

theorem crc16Byte_lt (c : Nat) (b : Byte) : crc16Byte c b < 65536 := crc16Step_lt _ _

theorem crc16Fold_lt (bs : List Byte) : ∀ {c : Nat}, c < 65536 → bs.foldl crc16Byte c < 65536 := by
  induction bs with
  | nil => exact fun h => h
  | cons b bs ih => exact fun _ => ih (crc16Byte_lt _ b)

/-- The checksum fits its two bytes. -/
theorem crc16_lt (bs : List Byte) : crc16 bs < 65536 := crc16Fold_lt bs (by omega)

end Sys2Proof.Machine
end

