-- ==== Sys2Proof/Laws/Mem.lean ====
section
/-!
SUPPORT. Laws/Mem.lean: reading after writing, and the canonical form that every memory operation keeps.
-/
namespace Sys2Proof.Machine

@[simp] theorem memGet_nil (a : Nat) : memGet [] a = memDefault := rfl

theorem memGet_cons (b : Nat) (v : Byte) (m : Mem) (a : Nat) :
    memGet ((b, v) :: m) a = if a = b then v else memGet m a := rfl

/-- Every listed address of a sorted memory lies above its bound. -/
theorem memGet_below {m : Mem} {lo a : Nat} (h : memSorted (some lo) m = true) (ha : a ≤ lo) : memGet m a = memDefault := by
  induction m generalizing lo with
  | nil => rfl
  | cons x m ih =>
    obtain ⟨b, v⟩ := x
    simp only [memSorted, Bool.and_eq_true, decide_eq_true_eq] at h
    obtain ⟨⟨h1, -⟩, h3⟩ := h
    rw [memGet_cons, if_neg (by omega)]
    exact ih h3 (by omega)

/-- A looser bound. -/
theorem memSorted_weaken {m : Mem} {lo lo' : Nat} (h : memSorted (some lo) m = true) (hl : lo' ≤ lo) :
    memSorted (some lo') m = true := by
  cases m with
  | nil => rfl
  | cons x m =>
    obtain ⟨b, v⟩ := x
    simp only [memSorted, Bool.and_eq_true, decide_eq_true_eq] at h ⊢
    exact ⟨⟨by omega, h.1.2⟩, h.2⟩

theorem memSorted_none {m : Mem} {lo : Nat} (h : memSorted (some lo) m = true) : memSorted none m = true := by
  cases m with
  | nil => rfl
  | cons x m =>
    obtain ⟨b, v⟩ := x
    simp only [memSorted, Bool.and_eq_true, decide_eq_true_eq] at h ⊢
    exact ⟨⟨trivial, h.1.2⟩, h.2⟩

/-- A write above the bound keeps a sorted memory sorted. -/
theorem memSet_sorted {m : Mem} {lo a : Nat} {v : Byte} (h : memSorted (some lo) m = true) (ha : lo < a) :
    memSorted (some lo) (memSet m a v) = true := by
  induction m generalizing lo with
  | nil =>
    by_cases hv : v = memDefault <;> simp [memSet, memSorted, hv, ha]
  | cons x m ih =>
    obtain ⟨b, w⟩ := x
    have h' := h
    simp only [memSorted, Bool.and_eq_true, decide_eq_true_eq] at h
    obtain ⟨⟨h1, h2⟩, h3⟩ := h
    unfold memSet
    split
    · split
      · exact h'
      · rename_i hab hv
        simp only [memSorted, Bool.and_eq_true, decide_eq_true_eq]
        exact ⟨⟨ha, hv⟩, ⟨hab, h2⟩, h3⟩
    · split
      · split
        · exact memSorted_weaken h3 (by omega)
        · rename_i hv
          simp only [memSorted, Bool.and_eq_true, decide_eq_true_eq]
          exact ⟨⟨h1, hv⟩, h3⟩
      · simp only [memSorted, Bool.and_eq_true, decide_eq_true_eq]
        exact ⟨⟨h1, h2⟩, ih h3 (by omega)⟩

/-- A write keeps the canonical form. -/
theorem memSet_wf {m : Mem} (h : m.wf) (a : Nat) (v : Byte) : (memSet m a v).wf := by
  cases m with
  | nil => by_cases hv : v = memDefault <;> simp [Mem.wf, memSet, memSorted, hv]
  | cons x m =>
    obtain ⟨b, w⟩ := x
    have h' := h
    simp only [Mem.wf, memSorted, Bool.and_eq_true, decide_eq_true_eq] at h
    obtain ⟨⟨-, h2⟩, h3⟩ := h
    unfold memSet
    split
    · split
      · exact h'
      · rename_i hab hv
        simp only [Mem.wf, memSorted, Bool.and_eq_true, decide_eq_true_eq]
        exact ⟨⟨trivial, hv⟩, ⟨hab, h2⟩, h3⟩
    · split
      · split
        · exact memSorted_none h3
        · rename_i hv
          simp only [Mem.wf, memSorted, Bool.and_eq_true, decide_eq_true_eq]
          exact ⟨⟨trivial, hv⟩, h3⟩
      · simp only [Mem.wf, memSorted, Bool.and_eq_true, decide_eq_true_eq]
        exact ⟨⟨trivial, h2⟩, memSet_sorted h3 (by omega)⟩

/-- So does a write of many bytes. -/
theorem memWrite_wf {m : Mem} (h : m.wf) (a : Nat) (bs : List Byte) : (memWrite m a bs).wf := by
  induction bs generalizing m a with
  | nil => exact h
  | cons v vs ih => exact ih (memSet_wf h a v) (a + 1)

/-- A byte reads as written. -/
theorem memGet_memSet_same {m : Mem} {lo : Option Nat} (h : memSorted lo m = true) (a : Nat) (v : Byte) :
    memGet (memSet m a v) a = v := by
  induction m generalizing lo with
  | nil =>
    by_cases hv : v = memDefault <;> simp [memSet, memGet, hv]
  | cons x m ih =>
    obtain ⟨b, w⟩ := x
    simp only [memSorted, Bool.and_eq_true, decide_eq_true_eq] at h
    obtain ⟨-, h3⟩ := h
    unfold memSet
    split
    · split
      · rename_i hab hv
        rw [memGet_cons, if_neg (by omega), memGet_below h3 (by omega), hv]
      · simp [memGet]
    · split
      · split
        · rename_i hab hv
          rw [memGet_below h3 (by omega), hv]
        · rename_i hab hv
          simp [memGet, hab]
      · rename_i h1 h2
        rw [memGet_cons, if_neg h2]
        exact ih h3

/-- Every other byte stays. -/
theorem memGet_memSet_other {m : Mem} {a b : Nat} (v : Byte) (h : b ≠ a) : memGet (memSet m a v) b = memGet m b := by
  induction m with
  | nil => by_cases hv : v = memDefault <;> simp [memSet, memGet, hv, h]
  | cons x m ih =>
    obtain ⟨c, w⟩ := x
    unfold memSet
    split
    · split
      · rfl
      · simp [memGet, h]
    · split
      · rename_i hac
        split
        · simp [memGet, ← hac, h]
        · simp [memGet, ← hac, h]
      · simp [memGet, ih]

/-- A write of many bytes leaves the bytes outside them. -/
theorem memGet_memWrite_outside {m : Mem} {a b : Nat} {bs : List Byte} (h : b < a ∨ a + bs.length ≤ b) :
    memGet (memWrite m a bs) b = memGet m b := by
  induction bs generalizing m a with
  | nil => rfl
  | cons v vs ih =>
    simp only [List.length_cons] at h
    rw [memWrite, ih (by omega), memGet_memSet_other v (by omega)]

/-- Bytes read as written. -/
theorem memGet_memWrite_inside {m : Mem} (hm : m.wf) {a : Nat} {bs : List Byte} {k : Nat} (h : k < bs.length) :
    memGet (memWrite m a bs) (a + k) = bs[k] := by
  induction bs generalizing m a k with
  | nil => simp at h
  | cons v vs ih =>
    cases k with
    | zero =>
      rw [memWrite, memGet_memWrite_outside (by omega)]
      exact memGet_memSet_same hm a v
    | succ k =>
      have := ih (memSet_wf hm a v) (a := a + 1) (k := k) (by simpa using h)
      rw [show a + (k + 1) = a + 1 + k by omega]
      simpa [memWrite] using this

end Sys2Proof.Machine
end

