-- ==== Sys2Proof/Laws/State.lean ====
section
/-!
SUPPORT. Laws/State.lean: what each small update of the device leaves as it is, and what it writes, one lemma per field.
-/
namespace Sys2Proof.Machine

variable (d : Dev)


/-! ### `post` -/

@[simp] theorem post_time (p : Fin 8) (g : GateItem) : (post p g d).time = d.time := rfl
@[simp] theorem post_gate (p : Fin 8) (g : GateItem) : (post p g d).gate = { d.gate with ports := vMod d.gate.ports p (· ++ [g]) } := rfl
@[simp] theorem post_host (p : Fin 8) (g : GateItem) : (post p g d).host = d.host := rfl
@[simp] theorem post_rings (p : Fin 8) (g : GateItem) : (post p g d).rings = d.rings := rfl
@[simp] theorem post_laidOut (p : Fin 8) (g : GateItem) : (post p g d).laidOut = d.laidOut := rfl
@[simp] theorem post_out (p : Fin 8) (g : GateItem) : (post p g d).out = d.out := rfl
@[simp] theorem post_cmd (p : Fin 8) (g : GateItem) : (post p g d).cmd = d.cmd := rfl
@[simp] theorem post_lift (p : Fin 8) (g : GateItem) : (post p g d).lift = d.lift := rfl
@[simp] theorem post_afe (p : Fin 8) (g : GateItem) : (post p g d).afe = d.afe := rfl
@[simp] theorem post_dlx (p : Fin 8) (g : GateItem) : (post p g d).dlx = d.dlx := rfl
@[simp] theorem post_fio (p : Fin 8) (g : GateItem) : (post p g d).fio = d.fio := rfl
@[simp] theorem post_vlv (p : Fin 8) (g : GateItem) : (post p g d).vlv = d.vlv := rfl
@[simp] theorem post_ctl (p : Fin 8) (g : GateItem) : (post p g d).ctl = d.ctl := rfl
@[simp] theorem post_svc (p : Fin 8) (g : GateItem) : (post p g d).svc = d.svc := rfl
@[simp] theorem post_bus (p : Fin 8) (g : GateItem) : (post p g d).bus = d.bus := rfl
@[simp] theorem post_gns (p : Fin 8) (g : GateItem) : (post p g d).gns = d.gns := rfl
@[simp] theorem post_pwr (p : Fin 8) (g : GateItem) : (post p g d).pwr = d.pwr := rfl
@[simp] theorem post_hlt (p : Fin 8) (g : GateItem) : (post p g d).hlt = d.hlt := rfl
@[simp] theorem post_idn (p : Fin 8) (g : GateItem) : (post p g d).idn = d.idn := rfl
@[simp] theorem post_free (p : Fin 8) (g : GateItem) : (post p g d).free = d.free := rfl

/-! ### `intSet` -/

@[simp] theorem intSet_time (m : Nat) : (intSet m d).time = d.time := rfl
@[simp] theorem intSet_gate (m : Nat) : (intSet m d).gate = d.gate := rfl
@[simp] theorem intSet_host (m : Nat) : (intSet m d).host = { d.host with intStatus := d.host.intStatus ||| w32 m } := rfl
@[simp] theorem intSet_rings (m : Nat) : (intSet m d).rings = d.rings := rfl
@[simp] theorem intSet_laidOut (m : Nat) : (intSet m d).laidOut = d.laidOut := rfl
@[simp] theorem intSet_out (m : Nat) : (intSet m d).out = d.out := rfl
@[simp] theorem intSet_cmd (m : Nat) : (intSet m d).cmd = d.cmd := rfl
@[simp] theorem intSet_lift (m : Nat) : (intSet m d).lift = d.lift := rfl
@[simp] theorem intSet_afe (m : Nat) : (intSet m d).afe = d.afe := rfl
@[simp] theorem intSet_dlx (m : Nat) : (intSet m d).dlx = d.dlx := rfl
@[simp] theorem intSet_fio (m : Nat) : (intSet m d).fio = d.fio := rfl
@[simp] theorem intSet_vlv (m : Nat) : (intSet m d).vlv = d.vlv := rfl
@[simp] theorem intSet_ctl (m : Nat) : (intSet m d).ctl = d.ctl := rfl
@[simp] theorem intSet_svc (m : Nat) : (intSet m d).svc = d.svc := rfl
@[simp] theorem intSet_bus (m : Nat) : (intSet m d).bus = d.bus := rfl
@[simp] theorem intSet_gns (m : Nat) : (intSet m d).gns = d.gns := rfl
@[simp] theorem intSet_pwr (m : Nat) : (intSet m d).pwr = d.pwr := rfl
@[simp] theorem intSet_hlt (m : Nat) : (intSet m d).hlt = d.hlt := rfl
@[simp] theorem intSet_idn (m : Nat) : (intSet m d).idn = d.idn := rfl
@[simp] theorem intSet_free (m : Nat) : (intSet m d).free = d.free := rfl

/-! ### `ringMod` -/

@[simp] theorem ringMod_time (q : Nat) (f : Ring → Ring) : (ringMod q f d).time = d.time := rfl
@[simp] theorem ringMod_gate (q : Nat) (f : Ring → Ring) : (ringMod q f d).gate = d.gate := rfl
@[simp] theorem ringMod_host (q : Nat) (f : Ring → Ring) : (ringMod q f d).host = d.host := rfl
@[simp] theorem ringMod_rings (q : Nat) (f : Ring → Ring) : (ringMod q f d).rings = vModN d.rings q f := rfl
@[simp] theorem ringMod_laidOut (q : Nat) (f : Ring → Ring) : (ringMod q f d).laidOut = d.laidOut := rfl
@[simp] theorem ringMod_out (q : Nat) (f : Ring → Ring) : (ringMod q f d).out = d.out := rfl
@[simp] theorem ringMod_cmd (q : Nat) (f : Ring → Ring) : (ringMod q f d).cmd = d.cmd := rfl
@[simp] theorem ringMod_lift (q : Nat) (f : Ring → Ring) : (ringMod q f d).lift = d.lift := rfl
@[simp] theorem ringMod_afe (q : Nat) (f : Ring → Ring) : (ringMod q f d).afe = d.afe := rfl
@[simp] theorem ringMod_dlx (q : Nat) (f : Ring → Ring) : (ringMod q f d).dlx = d.dlx := rfl
@[simp] theorem ringMod_fio (q : Nat) (f : Ring → Ring) : (ringMod q f d).fio = d.fio := rfl
@[simp] theorem ringMod_vlv (q : Nat) (f : Ring → Ring) : (ringMod q f d).vlv = d.vlv := rfl
@[simp] theorem ringMod_ctl (q : Nat) (f : Ring → Ring) : (ringMod q f d).ctl = d.ctl := rfl
@[simp] theorem ringMod_svc (q : Nat) (f : Ring → Ring) : (ringMod q f d).svc = d.svc := rfl
@[simp] theorem ringMod_bus (q : Nat) (f : Ring → Ring) : (ringMod q f d).bus = d.bus := rfl
@[simp] theorem ringMod_gns (q : Nat) (f : Ring → Ring) : (ringMod q f d).gns = d.gns := rfl
@[simp] theorem ringMod_pwr (q : Nat) (f : Ring → Ring) : (ringMod q f d).pwr = d.pwr := rfl
@[simp] theorem ringMod_hlt (q : Nat) (f : Ring → Ring) : (ringMod q f d).hlt = d.hlt := rfl
@[simp] theorem ringMod_idn (q : Nat) (f : Ring → Ring) : (ringMod q f d).idn = d.idn := rfl
@[simp] theorem ringMod_free (q : Nat) (f : Ring → Ring) : (ringMod q f d).free = d.free := rfl

/-! ### `emit` -/

@[simp] theorem emit_time (w : RingWrite) : (emit w d).time = d.time := rfl
@[simp] theorem emit_gate (w : RingWrite) : (emit w d).gate = d.gate := rfl
@[simp] theorem emit_host (w : RingWrite) : (emit w d).host = d.host := rfl
@[simp] theorem emit_rings (w : RingWrite) : (emit w d).rings = d.rings := rfl
@[simp] theorem emit_laidOut (w : RingWrite) : (emit w d).laidOut = d.laidOut := rfl
@[simp] theorem emit_out (w : RingWrite) : (emit w d).out = d.out ++ [w] := rfl
@[simp] theorem emit_cmd (w : RingWrite) : (emit w d).cmd = d.cmd := rfl
@[simp] theorem emit_lift (w : RingWrite) : (emit w d).lift = d.lift := rfl
@[simp] theorem emit_afe (w : RingWrite) : (emit w d).afe = d.afe := rfl
@[simp] theorem emit_dlx (w : RingWrite) : (emit w d).dlx = d.dlx := rfl
@[simp] theorem emit_fio (w : RingWrite) : (emit w d).fio = d.fio := rfl
@[simp] theorem emit_vlv (w : RingWrite) : (emit w d).vlv = d.vlv := rfl
@[simp] theorem emit_ctl (w : RingWrite) : (emit w d).ctl = d.ctl := rfl
@[simp] theorem emit_svc (w : RingWrite) : (emit w d).svc = d.svc := rfl
@[simp] theorem emit_bus (w : RingWrite) : (emit w d).bus = d.bus := rfl
@[simp] theorem emit_gns (w : RingWrite) : (emit w d).gns = d.gns := rfl
@[simp] theorem emit_pwr (w : RingWrite) : (emit w d).pwr = d.pwr := rfl
@[simp] theorem emit_hlt (w : RingWrite) : (emit w d).hlt = d.hlt := rfl
@[simp] theorem emit_idn (w : RingWrite) : (emit w d).idn = d.idn := rfl
@[simp] theorem emit_free (w : RingWrite) : (emit w d).free = d.free := rfl

/-! ### `badClear` -/

@[simp] theorem badClear_time (lo n : Nat) : (badClear lo n d).time = d.time := rfl
@[simp] theorem badClear_gate (lo n : Nat) : (badClear lo n d).gate = d.gate := rfl
@[simp] theorem badClear_host (lo n : Nat) : (badClear lo n d).host =
    { d.host with badWords := d.host.badWords.filter fun w => w + 4 ≤ lo || lo + n ≤ w } := rfl
@[simp] theorem badClear_rings (lo n : Nat) : (badClear lo n d).rings = d.rings := rfl
@[simp] theorem badClear_laidOut (lo n : Nat) : (badClear lo n d).laidOut = d.laidOut := rfl
@[simp] theorem badClear_out (lo n : Nat) : (badClear lo n d).out = d.out := rfl
@[simp] theorem badClear_cmd (lo n : Nat) : (badClear lo n d).cmd = d.cmd := rfl
@[simp] theorem badClear_lift (lo n : Nat) : (badClear lo n d).lift = d.lift := rfl
@[simp] theorem badClear_afe (lo n : Nat) : (badClear lo n d).afe = d.afe := rfl
@[simp] theorem badClear_dlx (lo n : Nat) : (badClear lo n d).dlx = d.dlx := rfl
@[simp] theorem badClear_fio (lo n : Nat) : (badClear lo n d).fio = d.fio := rfl
@[simp] theorem badClear_vlv (lo n : Nat) : (badClear lo n d).vlv = d.vlv := rfl
@[simp] theorem badClear_ctl (lo n : Nat) : (badClear lo n d).ctl = d.ctl := rfl
@[simp] theorem badClear_svc (lo n : Nat) : (badClear lo n d).svc = d.svc := rfl
@[simp] theorem badClear_bus (lo n : Nat) : (badClear lo n d).bus = d.bus := rfl
@[simp] theorem badClear_gns (lo n : Nat) : (badClear lo n d).gns = d.gns := rfl
@[simp] theorem badClear_pwr (lo n : Nat) : (badClear lo n d).pwr = d.pwr := rfl
@[simp] theorem badClear_hlt (lo n : Nat) : (badClear lo n d).hlt = d.hlt := rfl
@[simp] theorem badClear_idn (lo n : Nat) : (badClear lo n d).idn = d.idn := rfl
@[simp] theorem badClear_free (lo n : Nat) : (badClear lo n d).free = d.free := rfl

/-! ### `takeFree` -/

@[simp] theorem takeFree_time : (takeFree d).time = d.time := rfl
@[simp] theorem takeFree_gate : (takeFree d).gate = d.gate := rfl
@[simp] theorem takeFree_host : (takeFree d).host = d.host := rfl
@[simp] theorem takeFree_rings : (takeFree d).rings = d.rings := rfl
@[simp] theorem takeFree_laidOut : (takeFree d).laidOut = d.laidOut := rfl
@[simp] theorem takeFree_out : (takeFree d).out = d.out := rfl
@[simp] theorem takeFree_cmd : (takeFree d).cmd = d.cmd := rfl
@[simp] theorem takeFree_lift : (takeFree d).lift = d.lift := rfl
@[simp] theorem takeFree_afe : (takeFree d).afe = d.afe := rfl
@[simp] theorem takeFree_dlx : (takeFree d).dlx = d.dlx := rfl
@[simp] theorem takeFree_fio : (takeFree d).fio = d.fio := rfl
@[simp] theorem takeFree_vlv : (takeFree d).vlv = d.vlv := rfl
@[simp] theorem takeFree_ctl : (takeFree d).ctl = d.ctl := rfl
@[simp] theorem takeFree_svc : (takeFree d).svc = d.svc := rfl
@[simp] theorem takeFree_bus : (takeFree d).bus = d.bus := rfl
@[simp] theorem takeFree_gns : (takeFree d).gns = d.gns := rfl
@[simp] theorem takeFree_pwr : (takeFree d).pwr = d.pwr := rfl
@[simp] theorem takeFree_hlt : (takeFree d).hlt = d.hlt := rfl
@[simp] theorem takeFree_idn : (takeFree d).idn = d.idn := rfl
@[simp] theorem takeFree_free : (takeFree d).free = d.free + 1 := rfl

/-! ### `cmdMod` -/

@[simp] theorem cmdMod_time (id : CmdId) (f : Cmd → Cmd) : (cmdMod id f d).time = d.time := rfl
@[simp] theorem cmdMod_gate (id : CmdId) (f : Cmd → Cmd) : (cmdMod id f d).gate = d.gate := rfl
@[simp] theorem cmdMod_host (id : CmdId) (f : Cmd → Cmd) : (cmdMod id f d).host = d.host := rfl
@[simp] theorem cmdMod_rings (id : CmdId) (f : Cmd → Cmd) : (cmdMod id f d).rings = d.rings := rfl
@[simp] theorem cmdMod_laidOut (id : CmdId) (f : Cmd → Cmd) : (cmdMod id f d).laidOut = d.laidOut := rfl
@[simp] theorem cmdMod_out (id : CmdId) (f : Cmd → Cmd) : (cmdMod id f d).out = d.out := rfl
@[simp] theorem cmdMod_cmd (id : CmdId) (f : Cmd → Cmd) : (cmdMod id f d).cmd =
    { d.cmd with live := d.cmd.live.map fun c => if c.id = id && !c.dup then f c else c } := rfl
@[simp] theorem cmdMod_lift (id : CmdId) (f : Cmd → Cmd) : (cmdMod id f d).lift = d.lift := rfl
@[simp] theorem cmdMod_afe (id : CmdId) (f : Cmd → Cmd) : (cmdMod id f d).afe = d.afe := rfl
@[simp] theorem cmdMod_dlx (id : CmdId) (f : Cmd → Cmd) : (cmdMod id f d).dlx = d.dlx := rfl
@[simp] theorem cmdMod_fio (id : CmdId) (f : Cmd → Cmd) : (cmdMod id f d).fio = d.fio := rfl
@[simp] theorem cmdMod_vlv (id : CmdId) (f : Cmd → Cmd) : (cmdMod id f d).vlv = d.vlv := rfl
@[simp] theorem cmdMod_ctl (id : CmdId) (f : Cmd → Cmd) : (cmdMod id f d).ctl = d.ctl := rfl
@[simp] theorem cmdMod_svc (id : CmdId) (f : Cmd → Cmd) : (cmdMod id f d).svc = d.svc := rfl
@[simp] theorem cmdMod_bus (id : CmdId) (f : Cmd → Cmd) : (cmdMod id f d).bus = d.bus := rfl
@[simp] theorem cmdMod_gns (id : CmdId) (f : Cmd → Cmd) : (cmdMod id f d).gns = d.gns := rfl
@[simp] theorem cmdMod_pwr (id : CmdId) (f : Cmd → Cmd) : (cmdMod id f d).pwr = d.pwr := rfl
@[simp] theorem cmdMod_hlt (id : CmdId) (f : Cmd → Cmd) : (cmdMod id f d).hlt = d.hlt := rfl
@[simp] theorem cmdMod_idn (id : CmdId) (f : Cmd → Cmd) : (cmdMod id f d).idn = d.idn := rfl
@[simp] theorem cmdMod_free (id : CmdId) (f : Cmd → Cmd) : (cmdMod id f d).free = d.free := rfl

/-! ### `begin_` -/

@[simp] theorem begin__time (id : CmdId) : (begin_ id d).time = d.time := rfl
@[simp] theorem begin__gate (id : CmdId) : (begin_ id d).gate = d.gate := rfl
@[simp] theorem begin__host (id : CmdId) : (begin_ id d).host = d.host := rfl
@[simp] theorem begin__rings (id : CmdId) : (begin_ id d).rings = d.rings := rfl
@[simp] theorem begin__laidOut (id : CmdId) : (begin_ id d).laidOut = d.laidOut := rfl
@[simp] theorem begin__out (id : CmdId) : (begin_ id d).out = d.out := rfl
@[simp] theorem begin__lift (id : CmdId) : (begin_ id d).lift = d.lift := rfl
@[simp] theorem begin__afe (id : CmdId) : (begin_ id d).afe = d.afe := rfl
@[simp] theorem begin__dlx (id : CmdId) : (begin_ id d).dlx = d.dlx := rfl
@[simp] theorem begin__fio (id : CmdId) : (begin_ id d).fio = d.fio := rfl
@[simp] theorem begin__vlv (id : CmdId) : (begin_ id d).vlv = d.vlv := rfl
@[simp] theorem begin__ctl (id : CmdId) : (begin_ id d).ctl = d.ctl := rfl
@[simp] theorem begin__svc (id : CmdId) : (begin_ id d).svc = d.svc := rfl
@[simp] theorem begin__bus (id : CmdId) : (begin_ id d).bus = d.bus := rfl
@[simp] theorem begin__gns (id : CmdId) : (begin_ id d).gns = d.gns := rfl
@[simp] theorem begin__pwr (id : CmdId) : (begin_ id d).pwr = d.pwr := rfl
@[simp] theorem begin__hlt (id : CmdId) : (begin_ id d).hlt = d.hlt := rfl
@[simp] theorem begin__idn (id : CmdId) : (begin_ id d).idn = d.idn := rfl
@[simp] theorem begin__free (id : CmdId) : (begin_ id d).free = d.free := rfl

/-! ### `waitOn` -/

@[simp] theorem waitOn_time (id : CmdId) : (waitOn id d).time = d.time := rfl
@[simp] theorem waitOn_gate (id : CmdId) : (waitOn id d).gate = d.gate := rfl
@[simp] theorem waitOn_host (id : CmdId) : (waitOn id d).host = d.host := rfl
@[simp] theorem waitOn_rings (id : CmdId) : (waitOn id d).rings = d.rings := rfl
@[simp] theorem waitOn_laidOut (id : CmdId) : (waitOn id d).laidOut = d.laidOut := rfl
@[simp] theorem waitOn_out (id : CmdId) : (waitOn id d).out = d.out := rfl
@[simp] theorem waitOn_lift (id : CmdId) : (waitOn id d).lift = d.lift := rfl
@[simp] theorem waitOn_afe (id : CmdId) : (waitOn id d).afe = d.afe := rfl
@[simp] theorem waitOn_dlx (id : CmdId) : (waitOn id d).dlx = d.dlx := rfl
@[simp] theorem waitOn_fio (id : CmdId) : (waitOn id d).fio = d.fio := rfl
@[simp] theorem waitOn_vlv (id : CmdId) : (waitOn id d).vlv = d.vlv := rfl
@[simp] theorem waitOn_ctl (id : CmdId) : (waitOn id d).ctl = d.ctl := rfl
@[simp] theorem waitOn_svc (id : CmdId) : (waitOn id d).svc = d.svc := rfl
@[simp] theorem waitOn_bus (id : CmdId) : (waitOn id d).bus = d.bus := rfl
@[simp] theorem waitOn_gns (id : CmdId) : (waitOn id d).gns = d.gns := rfl
@[simp] theorem waitOn_pwr (id : CmdId) : (waitOn id d).pwr = d.pwr := rfl
@[simp] theorem waitOn_hlt (id : CmdId) : (waitOn id d).hlt = d.hlt := rfl
@[simp] theorem waitOn_idn (id : CmdId) : (waitOn id d).idn = d.idn := rfl
@[simp] theorem waitOn_free (id : CmdId) : (waitOn id d).free = d.free := rfl

/-! ### `liftMod` -/

@[simp] theorem liftMod_time (f : LiftSt → LiftSt) : (liftMod f d).time = d.time := rfl
@[simp] theorem liftMod_gate (f : LiftSt → LiftSt) : (liftMod f d).gate = d.gate := rfl
@[simp] theorem liftMod_host (f : LiftSt → LiftSt) : (liftMod f d).host = d.host := rfl
@[simp] theorem liftMod_rings (f : LiftSt → LiftSt) : (liftMod f d).rings = d.rings := rfl
@[simp] theorem liftMod_laidOut (f : LiftSt → LiftSt) : (liftMod f d).laidOut = d.laidOut := rfl
@[simp] theorem liftMod_out (f : LiftSt → LiftSt) : (liftMod f d).out = d.out := rfl
@[simp] theorem liftMod_cmd (f : LiftSt → LiftSt) : (liftMod f d).cmd = d.cmd := rfl
@[simp] theorem liftMod_lift (f : LiftSt → LiftSt) : (liftMod f d).lift = f d.lift := rfl
@[simp] theorem liftMod_afe (f : LiftSt → LiftSt) : (liftMod f d).afe = d.afe := rfl
@[simp] theorem liftMod_dlx (f : LiftSt → LiftSt) : (liftMod f d).dlx = d.dlx := rfl
@[simp] theorem liftMod_fio (f : LiftSt → LiftSt) : (liftMod f d).fio = d.fio := rfl
@[simp] theorem liftMod_vlv (f : LiftSt → LiftSt) : (liftMod f d).vlv = d.vlv := rfl
@[simp] theorem liftMod_ctl (f : LiftSt → LiftSt) : (liftMod f d).ctl = d.ctl := rfl
@[simp] theorem liftMod_svc (f : LiftSt → LiftSt) : (liftMod f d).svc = d.svc := rfl
@[simp] theorem liftMod_bus (f : LiftSt → LiftSt) : (liftMod f d).bus = d.bus := rfl
@[simp] theorem liftMod_gns (f : LiftSt → LiftSt) : (liftMod f d).gns = d.gns := rfl
@[simp] theorem liftMod_pwr (f : LiftSt → LiftSt) : (liftMod f d).pwr = d.pwr := rfl
@[simp] theorem liftMod_hlt (f : LiftSt → LiftSt) : (liftMod f d).hlt = d.hlt := rfl
@[simp] theorem liftMod_idn (f : LiftSt → LiftSt) : (liftMod f d).idn = d.idn := rfl
@[simp] theorem liftMod_free (f : LiftSt → LiftSt) : (liftMod f d).free = d.free := rfl

/-! ### `pwrMod` -/

@[simp] theorem pwrMod_time (f : PwrSt → PwrSt) : (pwrMod f d).time = d.time := rfl
@[simp] theorem pwrMod_gate (f : PwrSt → PwrSt) : (pwrMod f d).gate = d.gate := rfl
@[simp] theorem pwrMod_host (f : PwrSt → PwrSt) : (pwrMod f d).host = d.host := rfl
@[simp] theorem pwrMod_rings (f : PwrSt → PwrSt) : (pwrMod f d).rings = d.rings := rfl
@[simp] theorem pwrMod_laidOut (f : PwrSt → PwrSt) : (pwrMod f d).laidOut = d.laidOut := rfl
@[simp] theorem pwrMod_out (f : PwrSt → PwrSt) : (pwrMod f d).out = d.out := rfl
@[simp] theorem pwrMod_cmd (f : PwrSt → PwrSt) : (pwrMod f d).cmd = d.cmd := rfl
@[simp] theorem pwrMod_lift (f : PwrSt → PwrSt) : (pwrMod f d).lift = d.lift := rfl
@[simp] theorem pwrMod_afe (f : PwrSt → PwrSt) : (pwrMod f d).afe = d.afe := rfl
@[simp] theorem pwrMod_dlx (f : PwrSt → PwrSt) : (pwrMod f d).dlx = d.dlx := rfl
@[simp] theorem pwrMod_fio (f : PwrSt → PwrSt) : (pwrMod f d).fio = d.fio := rfl
@[simp] theorem pwrMod_vlv (f : PwrSt → PwrSt) : (pwrMod f d).vlv = d.vlv := rfl
@[simp] theorem pwrMod_ctl (f : PwrSt → PwrSt) : (pwrMod f d).ctl = d.ctl := rfl
@[simp] theorem pwrMod_svc (f : PwrSt → PwrSt) : (pwrMod f d).svc = d.svc := rfl
@[simp] theorem pwrMod_bus (f : PwrSt → PwrSt) : (pwrMod f d).bus = d.bus := rfl
@[simp] theorem pwrMod_gns (f : PwrSt → PwrSt) : (pwrMod f d).gns = d.gns := rfl
@[simp] theorem pwrMod_pwr (f : PwrSt → PwrSt) : (pwrMod f d).pwr = f d.pwr := rfl
@[simp] theorem pwrMod_hlt (f : PwrSt → PwrSt) : (pwrMod f d).hlt = d.hlt := rfl
@[simp] theorem pwrMod_idn (f : PwrSt → PwrSt) : (pwrMod f d).idn = d.idn := rfl
@[simp] theorem pwrMod_free (f : PwrSt → PwrSt) : (pwrMod f d).free = d.free := rfl

/-! ### `hltMod` -/

@[simp] theorem hltMod_time (f : HltSt → HltSt) : (hltMod f d).time = d.time := rfl
@[simp] theorem hltMod_gate (f : HltSt → HltSt) : (hltMod f d).gate = d.gate := rfl
@[simp] theorem hltMod_host (f : HltSt → HltSt) : (hltMod f d).host = d.host := rfl
@[simp] theorem hltMod_rings (f : HltSt → HltSt) : (hltMod f d).rings = d.rings := rfl
@[simp] theorem hltMod_laidOut (f : HltSt → HltSt) : (hltMod f d).laidOut = d.laidOut := rfl
@[simp] theorem hltMod_out (f : HltSt → HltSt) : (hltMod f d).out = d.out := rfl
@[simp] theorem hltMod_cmd (f : HltSt → HltSt) : (hltMod f d).cmd = d.cmd := rfl
@[simp] theorem hltMod_lift (f : HltSt → HltSt) : (hltMod f d).lift = d.lift := rfl
@[simp] theorem hltMod_afe (f : HltSt → HltSt) : (hltMod f d).afe = d.afe := rfl
@[simp] theorem hltMod_dlx (f : HltSt → HltSt) : (hltMod f d).dlx = d.dlx := rfl
@[simp] theorem hltMod_fio (f : HltSt → HltSt) : (hltMod f d).fio = d.fio := rfl
@[simp] theorem hltMod_vlv (f : HltSt → HltSt) : (hltMod f d).vlv = d.vlv := rfl
@[simp] theorem hltMod_ctl (f : HltSt → HltSt) : (hltMod f d).ctl = d.ctl := rfl
@[simp] theorem hltMod_svc (f : HltSt → HltSt) : (hltMod f d).svc = d.svc := rfl
@[simp] theorem hltMod_bus (f : HltSt → HltSt) : (hltMod f d).bus = d.bus := rfl
@[simp] theorem hltMod_gns (f : HltSt → HltSt) : (hltMod f d).gns = d.gns := rfl
@[simp] theorem hltMod_pwr (f : HltSt → HltSt) : (hltMod f d).pwr = d.pwr := rfl
@[simp] theorem hltMod_hlt (f : HltSt → HltSt) : (hltMod f d).hlt = f d.hlt := rfl
@[simp] theorem hltMod_idn (f : HltSt → HltSt) : (hltMod f d).idn = d.idn := rfl
@[simp] theorem hltMod_free (f : HltSt → HltSt) : (hltMod f d).free = d.free := rfl

/-! ### `gnsMod` -/

@[simp] theorem gnsMod_time (f : GnsSt → GnsSt) : (gnsMod f d).time = d.time := rfl
@[simp] theorem gnsMod_gate (f : GnsSt → GnsSt) : (gnsMod f d).gate = d.gate := rfl
@[simp] theorem gnsMod_host (f : GnsSt → GnsSt) : (gnsMod f d).host = d.host := rfl
@[simp] theorem gnsMod_rings (f : GnsSt → GnsSt) : (gnsMod f d).rings = d.rings := rfl
@[simp] theorem gnsMod_laidOut (f : GnsSt → GnsSt) : (gnsMod f d).laidOut = d.laidOut := rfl
@[simp] theorem gnsMod_out (f : GnsSt → GnsSt) : (gnsMod f d).out = d.out := rfl
@[simp] theorem gnsMod_cmd (f : GnsSt → GnsSt) : (gnsMod f d).cmd = d.cmd := rfl
@[simp] theorem gnsMod_lift (f : GnsSt → GnsSt) : (gnsMod f d).lift = d.lift := rfl
@[simp] theorem gnsMod_afe (f : GnsSt → GnsSt) : (gnsMod f d).afe = d.afe := rfl
@[simp] theorem gnsMod_dlx (f : GnsSt → GnsSt) : (gnsMod f d).dlx = d.dlx := rfl
@[simp] theorem gnsMod_fio (f : GnsSt → GnsSt) : (gnsMod f d).fio = d.fio := rfl
@[simp] theorem gnsMod_vlv (f : GnsSt → GnsSt) : (gnsMod f d).vlv = d.vlv := rfl
@[simp] theorem gnsMod_ctl (f : GnsSt → GnsSt) : (gnsMod f d).ctl = d.ctl := rfl
@[simp] theorem gnsMod_svc (f : GnsSt → GnsSt) : (gnsMod f d).svc = d.svc := rfl
@[simp] theorem gnsMod_bus (f : GnsSt → GnsSt) : (gnsMod f d).bus = d.bus := rfl
@[simp] theorem gnsMod_gns (f : GnsSt → GnsSt) : (gnsMod f d).gns = f d.gns := rfl
@[simp] theorem gnsMod_pwr (f : GnsSt → GnsSt) : (gnsMod f d).pwr = d.pwr := rfl
@[simp] theorem gnsMod_hlt (f : GnsSt → GnsSt) : (gnsMod f d).hlt = d.hlt := rfl
@[simp] theorem gnsMod_idn (f : GnsSt → GnsSt) : (gnsMod f d).idn = d.idn := rfl
@[simp] theorem gnsMod_free (f : GnsSt → GnsSt) : (gnsMod f d).free = d.free := rfl

/-! ### `snapMod` -/

@[simp] theorem snapMod_time (f : SnapSt → SnapSt) : (snapMod f d).time = d.time := rfl
@[simp] theorem snapMod_gate (f : SnapSt → SnapSt) : (snapMod f d).gate = d.gate := rfl
@[simp] theorem snapMod_host (f : SnapSt → SnapSt) : (snapMod f d).host = d.host := rfl
@[simp] theorem snapMod_rings (f : SnapSt → SnapSt) : (snapMod f d).rings = d.rings := rfl
@[simp] theorem snapMod_laidOut (f : SnapSt → SnapSt) : (snapMod f d).laidOut = d.laidOut := rfl
@[simp] theorem snapMod_out (f : SnapSt → SnapSt) : (snapMod f d).out = d.out := rfl
@[simp] theorem snapMod_cmd (f : SnapSt → SnapSt) : (snapMod f d).cmd = d.cmd := rfl
@[simp] theorem snapMod_lift (f : SnapSt → SnapSt) : (snapMod f d).lift = d.lift := rfl
@[simp] theorem snapMod_afe (f : SnapSt → SnapSt) : (snapMod f d).afe = d.afe := rfl
@[simp] theorem snapMod_dlx (f : SnapSt → SnapSt) : (snapMod f d).dlx = d.dlx := rfl
@[simp] theorem snapMod_fio (f : SnapSt → SnapSt) : (snapMod f d).fio = d.fio := rfl
@[simp] theorem snapMod_vlv (f : SnapSt → SnapSt) : (snapMod f d).vlv = d.vlv := rfl
@[simp] theorem snapMod_ctl (f : SnapSt → SnapSt) : (snapMod f d).ctl = d.ctl := rfl
@[simp] theorem snapMod_svc (f : SnapSt → SnapSt) : (snapMod f d).svc = d.svc := rfl
@[simp] theorem snapMod_bus (f : SnapSt → SnapSt) : (snapMod f d).bus = d.bus := rfl
@[simp] theorem snapMod_gns (f : SnapSt → SnapSt) : (snapMod f d).gns = { d.gns with snap := f d.gns.snap } := rfl
@[simp] theorem snapMod_pwr (f : SnapSt → SnapSt) : (snapMod f d).pwr = d.pwr := rfl
@[simp] theorem snapMod_hlt (f : SnapSt → SnapSt) : (snapMod f d).hlt = d.hlt := rfl
@[simp] theorem snapMod_idn (f : SnapSt → SnapSt) : (snapMod f d).idn = d.idn := rfl
@[simp] theorem snapMod_free (f : SnapSt → SnapSt) : (snapMod f d).free = d.free := rfl

/-! ### `gchMod` -/

@[simp] theorem gchMod_time (n : Fin 32) (f : GnsCh → GnsCh) : (gchMod n f d).time = d.time := rfl
@[simp] theorem gchMod_gate (n : Fin 32) (f : GnsCh → GnsCh) : (gchMod n f d).gate = d.gate := rfl
@[simp] theorem gchMod_host (n : Fin 32) (f : GnsCh → GnsCh) : (gchMod n f d).host = d.host := rfl
@[simp] theorem gchMod_rings (n : Fin 32) (f : GnsCh → GnsCh) : (gchMod n f d).rings = d.rings := rfl
@[simp] theorem gchMod_laidOut (n : Fin 32) (f : GnsCh → GnsCh) : (gchMod n f d).laidOut = d.laidOut := rfl
@[simp] theorem gchMod_out (n : Fin 32) (f : GnsCh → GnsCh) : (gchMod n f d).out = d.out := rfl
@[simp] theorem gchMod_cmd (n : Fin 32) (f : GnsCh → GnsCh) : (gchMod n f d).cmd = d.cmd := rfl
@[simp] theorem gchMod_lift (n : Fin 32) (f : GnsCh → GnsCh) : (gchMod n f d).lift = d.lift := rfl
@[simp] theorem gchMod_afe (n : Fin 32) (f : GnsCh → GnsCh) : (gchMod n f d).afe = d.afe := rfl
@[simp] theorem gchMod_dlx (n : Fin 32) (f : GnsCh → GnsCh) : (gchMod n f d).dlx = d.dlx := rfl
@[simp] theorem gchMod_fio (n : Fin 32) (f : GnsCh → GnsCh) : (gchMod n f d).fio = d.fio := rfl
@[simp] theorem gchMod_vlv (n : Fin 32) (f : GnsCh → GnsCh) : (gchMod n f d).vlv = d.vlv := rfl
@[simp] theorem gchMod_ctl (n : Fin 32) (f : GnsCh → GnsCh) : (gchMod n f d).ctl = d.ctl := rfl
@[simp] theorem gchMod_svc (n : Fin 32) (f : GnsCh → GnsCh) : (gchMod n f d).svc = d.svc := rfl
@[simp] theorem gchMod_bus (n : Fin 32) (f : GnsCh → GnsCh) : (gchMod n f d).bus = d.bus := rfl
@[simp] theorem gchMod_gns (n : Fin 32) (f : GnsCh → GnsCh) : (gchMod n f d).gns = { d.gns with chans := vMod d.gns.chans n f } := rfl
@[simp] theorem gchMod_pwr (n : Fin 32) (f : GnsCh → GnsCh) : (gchMod n f d).pwr = d.pwr := rfl
@[simp] theorem gchMod_hlt (n : Fin 32) (f : GnsCh → GnsCh) : (gchMod n f d).hlt = d.hlt := rfl
@[simp] theorem gchMod_idn (n : Fin 32) (f : GnsCh → GnsCh) : (gchMod n f d).idn = d.idn := rfl
@[simp] theorem gchMod_free (n : Fin 32) (f : GnsCh → GnsCh) : (gchMod n f d).free = d.free := rfl

/-! ### `idnMod` -/

@[simp] theorem idnMod_time (f : IdnSt → IdnSt) : (idnMod f d).time = d.time := rfl
@[simp] theorem idnMod_gate (f : IdnSt → IdnSt) : (idnMod f d).gate = d.gate := rfl
@[simp] theorem idnMod_host (f : IdnSt → IdnSt) : (idnMod f d).host = d.host := rfl
@[simp] theorem idnMod_rings (f : IdnSt → IdnSt) : (idnMod f d).rings = d.rings := rfl
@[simp] theorem idnMod_laidOut (f : IdnSt → IdnSt) : (idnMod f d).laidOut = d.laidOut := rfl
@[simp] theorem idnMod_out (f : IdnSt → IdnSt) : (idnMod f d).out = d.out := rfl
@[simp] theorem idnMod_cmd (f : IdnSt → IdnSt) : (idnMod f d).cmd = d.cmd := rfl
@[simp] theorem idnMod_lift (f : IdnSt → IdnSt) : (idnMod f d).lift = d.lift := rfl
@[simp] theorem idnMod_afe (f : IdnSt → IdnSt) : (idnMod f d).afe = d.afe := rfl
@[simp] theorem idnMod_dlx (f : IdnSt → IdnSt) : (idnMod f d).dlx = d.dlx := rfl
@[simp] theorem idnMod_fio (f : IdnSt → IdnSt) : (idnMod f d).fio = d.fio := rfl
@[simp] theorem idnMod_vlv (f : IdnSt → IdnSt) : (idnMod f d).vlv = d.vlv := rfl
@[simp] theorem idnMod_ctl (f : IdnSt → IdnSt) : (idnMod f d).ctl = d.ctl := rfl
@[simp] theorem idnMod_svc (f : IdnSt → IdnSt) : (idnMod f d).svc = d.svc := rfl
@[simp] theorem idnMod_bus (f : IdnSt → IdnSt) : (idnMod f d).bus = d.bus := rfl
@[simp] theorem idnMod_gns (f : IdnSt → IdnSt) : (idnMod f d).gns = d.gns := rfl
@[simp] theorem idnMod_pwr (f : IdnSt → IdnSt) : (idnMod f d).pwr = d.pwr := rfl
@[simp] theorem idnMod_hlt (f : IdnSt → IdnSt) : (idnMod f d).hlt = d.hlt := rfl
@[simp] theorem idnMod_idn (f : IdnSt → IdnSt) : (idnMod f d).idn = f d.idn := rfl
@[simp] theorem idnMod_free (f : IdnSt → IdnSt) : (idnMod f d).free = d.free := rfl

/-! ### `afeMod` -/

@[simp] theorem afeMod_time (n : Fin 32) (f : AfeCh → AfeCh) : (afeMod n f d).time = d.time := rfl
@[simp] theorem afeMod_gate (n : Fin 32) (f : AfeCh → AfeCh) : (afeMod n f d).gate = d.gate := rfl
@[simp] theorem afeMod_host (n : Fin 32) (f : AfeCh → AfeCh) : (afeMod n f d).host = d.host := rfl
@[simp] theorem afeMod_rings (n : Fin 32) (f : AfeCh → AfeCh) : (afeMod n f d).rings = d.rings := rfl
@[simp] theorem afeMod_laidOut (n : Fin 32) (f : AfeCh → AfeCh) : (afeMod n f d).laidOut = d.laidOut := rfl
@[simp] theorem afeMod_out (n : Fin 32) (f : AfeCh → AfeCh) : (afeMod n f d).out = d.out := rfl
@[simp] theorem afeMod_cmd (n : Fin 32) (f : AfeCh → AfeCh) : (afeMod n f d).cmd = d.cmd := rfl
@[simp] theorem afeMod_lift (n : Fin 32) (f : AfeCh → AfeCh) : (afeMod n f d).lift = d.lift := rfl
@[simp] theorem afeMod_afe (n : Fin 32) (f : AfeCh → AfeCh) : (afeMod n f d).afe = { d.afe with ch := vMod d.afe.ch n f } := rfl
@[simp] theorem afeMod_dlx (n : Fin 32) (f : AfeCh → AfeCh) : (afeMod n f d).dlx = d.dlx := rfl
@[simp] theorem afeMod_fio (n : Fin 32) (f : AfeCh → AfeCh) : (afeMod n f d).fio = d.fio := rfl
@[simp] theorem afeMod_vlv (n : Fin 32) (f : AfeCh → AfeCh) : (afeMod n f d).vlv = d.vlv := rfl
@[simp] theorem afeMod_ctl (n : Fin 32) (f : AfeCh → AfeCh) : (afeMod n f d).ctl = d.ctl := rfl
@[simp] theorem afeMod_svc (n : Fin 32) (f : AfeCh → AfeCh) : (afeMod n f d).svc = d.svc := rfl
@[simp] theorem afeMod_bus (n : Fin 32) (f : AfeCh → AfeCh) : (afeMod n f d).bus = d.bus := rfl
@[simp] theorem afeMod_gns (n : Fin 32) (f : AfeCh → AfeCh) : (afeMod n f d).gns = d.gns := rfl
@[simp] theorem afeMod_pwr (n : Fin 32) (f : AfeCh → AfeCh) : (afeMod n f d).pwr = d.pwr := rfl
@[simp] theorem afeMod_hlt (n : Fin 32) (f : AfeCh → AfeCh) : (afeMod n f d).hlt = d.hlt := rfl
@[simp] theorem afeMod_idn (n : Fin 32) (f : AfeCh → AfeCh) : (afeMod n f d).idn = d.idn := rfl
@[simp] theorem afeMod_free (n : Fin 32) (f : AfeCh → AfeCh) : (afeMod n f d).free = d.free := rfl

/-! ### `dlxMod` -/

@[simp] theorem dlxMod_time (n : Fin 4) (f : DlxCh → DlxCh) : (dlxMod n f d).time = d.time := rfl
@[simp] theorem dlxMod_gate (n : Fin 4) (f : DlxCh → DlxCh) : (dlxMod n f d).gate = d.gate := rfl
@[simp] theorem dlxMod_host (n : Fin 4) (f : DlxCh → DlxCh) : (dlxMod n f d).host = d.host := rfl
@[simp] theorem dlxMod_rings (n : Fin 4) (f : DlxCh → DlxCh) : (dlxMod n f d).rings = d.rings := rfl
@[simp] theorem dlxMod_laidOut (n : Fin 4) (f : DlxCh → DlxCh) : (dlxMod n f d).laidOut = d.laidOut := rfl
@[simp] theorem dlxMod_out (n : Fin 4) (f : DlxCh → DlxCh) : (dlxMod n f d).out = d.out := rfl
@[simp] theorem dlxMod_cmd (n : Fin 4) (f : DlxCh → DlxCh) : (dlxMod n f d).cmd = d.cmd := rfl
@[simp] theorem dlxMod_lift (n : Fin 4) (f : DlxCh → DlxCh) : (dlxMod n f d).lift = d.lift := rfl
@[simp] theorem dlxMod_afe (n : Fin 4) (f : DlxCh → DlxCh) : (dlxMod n f d).afe = d.afe := rfl
@[simp] theorem dlxMod_dlx (n : Fin 4) (f : DlxCh → DlxCh) : (dlxMod n f d).dlx = { d.dlx with ch := vMod d.dlx.ch n f } := rfl
@[simp] theorem dlxMod_fio (n : Fin 4) (f : DlxCh → DlxCh) : (dlxMod n f d).fio = d.fio := rfl
@[simp] theorem dlxMod_vlv (n : Fin 4) (f : DlxCh → DlxCh) : (dlxMod n f d).vlv = d.vlv := rfl
@[simp] theorem dlxMod_ctl (n : Fin 4) (f : DlxCh → DlxCh) : (dlxMod n f d).ctl = d.ctl := rfl
@[simp] theorem dlxMod_svc (n : Fin 4) (f : DlxCh → DlxCh) : (dlxMod n f d).svc = d.svc := rfl
@[simp] theorem dlxMod_bus (n : Fin 4) (f : DlxCh → DlxCh) : (dlxMod n f d).bus = d.bus := rfl
@[simp] theorem dlxMod_gns (n : Fin 4) (f : DlxCh → DlxCh) : (dlxMod n f d).gns = d.gns := rfl
@[simp] theorem dlxMod_pwr (n : Fin 4) (f : DlxCh → DlxCh) : (dlxMod n f d).pwr = d.pwr := rfl
@[simp] theorem dlxMod_hlt (n : Fin 4) (f : DlxCh → DlxCh) : (dlxMod n f d).hlt = d.hlt := rfl
@[simp] theorem dlxMod_idn (n : Fin 4) (f : DlxCh → DlxCh) : (dlxMod n f d).idn = d.idn := rfl
@[simp] theorem dlxMod_free (n : Fin 4) (f : DlxCh → DlxCh) : (dlxMod n f d).free = d.free := rfl

/-! ### `pinMod` -/

@[simp] theorem pinMod_time (n : Fin 64) (f : Pin → Pin) : (pinMod n f d).time = d.time := rfl
@[simp] theorem pinMod_gate (n : Fin 64) (f : Pin → Pin) : (pinMod n f d).gate = d.gate := rfl
@[simp] theorem pinMod_host (n : Fin 64) (f : Pin → Pin) : (pinMod n f d).host = d.host := rfl
@[simp] theorem pinMod_rings (n : Fin 64) (f : Pin → Pin) : (pinMod n f d).rings = d.rings := rfl
@[simp] theorem pinMod_laidOut (n : Fin 64) (f : Pin → Pin) : (pinMod n f d).laidOut = d.laidOut := rfl
@[simp] theorem pinMod_out (n : Fin 64) (f : Pin → Pin) : (pinMod n f d).out = d.out := rfl
@[simp] theorem pinMod_cmd (n : Fin 64) (f : Pin → Pin) : (pinMod n f d).cmd = d.cmd := rfl
@[simp] theorem pinMod_lift (n : Fin 64) (f : Pin → Pin) : (pinMod n f d).lift = d.lift := rfl
@[simp] theorem pinMod_afe (n : Fin 64) (f : Pin → Pin) : (pinMod n f d).afe = d.afe := rfl
@[simp] theorem pinMod_dlx (n : Fin 64) (f : Pin → Pin) : (pinMod n f d).dlx = d.dlx := rfl
@[simp] theorem pinMod_fio (n : Fin 64) (f : Pin → Pin) : (pinMod n f d).fio = { d.fio with pin := vMod d.fio.pin n f } := rfl
@[simp] theorem pinMod_vlv (n : Fin 64) (f : Pin → Pin) : (pinMod n f d).vlv = d.vlv := rfl
@[simp] theorem pinMod_ctl (n : Fin 64) (f : Pin → Pin) : (pinMod n f d).ctl = d.ctl := rfl
@[simp] theorem pinMod_svc (n : Fin 64) (f : Pin → Pin) : (pinMod n f d).svc = d.svc := rfl
@[simp] theorem pinMod_bus (n : Fin 64) (f : Pin → Pin) : (pinMod n f d).bus = d.bus := rfl
@[simp] theorem pinMod_gns (n : Fin 64) (f : Pin → Pin) : (pinMod n f d).gns = d.gns := rfl
@[simp] theorem pinMod_pwr (n : Fin 64) (f : Pin → Pin) : (pinMod n f d).pwr = d.pwr := rfl
@[simp] theorem pinMod_hlt (n : Fin 64) (f : Pin → Pin) : (pinMod n f d).hlt = d.hlt := rfl
@[simp] theorem pinMod_idn (n : Fin 64) (f : Pin → Pin) : (pinMod n f d).idn = d.idn := rfl
@[simp] theorem pinMod_free (n : Fin 64) (f : Pin → Pin) : (pinMod n f d).free = d.free := rfl

/-! ### `bankMod` -/

@[simp] theorem bankMod_time (n : Fin 8) (f : Bank → Bank) : (bankMod n f d).time = d.time := rfl
@[simp] theorem bankMod_gate (n : Fin 8) (f : Bank → Bank) : (bankMod n f d).gate = d.gate := rfl
@[simp] theorem bankMod_host (n : Fin 8) (f : Bank → Bank) : (bankMod n f d).host = d.host := rfl
@[simp] theorem bankMod_rings (n : Fin 8) (f : Bank → Bank) : (bankMod n f d).rings = d.rings := rfl
@[simp] theorem bankMod_laidOut (n : Fin 8) (f : Bank → Bank) : (bankMod n f d).laidOut = d.laidOut := rfl
@[simp] theorem bankMod_out (n : Fin 8) (f : Bank → Bank) : (bankMod n f d).out = d.out := rfl
@[simp] theorem bankMod_cmd (n : Fin 8) (f : Bank → Bank) : (bankMod n f d).cmd = d.cmd := rfl
@[simp] theorem bankMod_lift (n : Fin 8) (f : Bank → Bank) : (bankMod n f d).lift = d.lift := rfl
@[simp] theorem bankMod_afe (n : Fin 8) (f : Bank → Bank) : (bankMod n f d).afe = d.afe := rfl
@[simp] theorem bankMod_dlx (n : Fin 8) (f : Bank → Bank) : (bankMod n f d).dlx = d.dlx := rfl
@[simp] theorem bankMod_fio (n : Fin 8) (f : Bank → Bank) : (bankMod n f d).fio = { d.fio with bank := vMod d.fio.bank n f } := rfl
@[simp] theorem bankMod_vlv (n : Fin 8) (f : Bank → Bank) : (bankMod n f d).vlv = d.vlv := rfl
@[simp] theorem bankMod_ctl (n : Fin 8) (f : Bank → Bank) : (bankMod n f d).ctl = d.ctl := rfl
@[simp] theorem bankMod_svc (n : Fin 8) (f : Bank → Bank) : (bankMod n f d).svc = d.svc := rfl
@[simp] theorem bankMod_bus (n : Fin 8) (f : Bank → Bank) : (bankMod n f d).bus = d.bus := rfl
@[simp] theorem bankMod_gns (n : Fin 8) (f : Bank → Bank) : (bankMod n f d).gns = d.gns := rfl
@[simp] theorem bankMod_pwr (n : Fin 8) (f : Bank → Bank) : (bankMod n f d).pwr = d.pwr := rfl
@[simp] theorem bankMod_hlt (n : Fin 8) (f : Bank → Bank) : (bankMod n f d).hlt = d.hlt := rfl
@[simp] theorem bankMod_idn (n : Fin 8) (f : Bank → Bank) : (bankMod n f d).idn = d.idn := rfl
@[simp] theorem bankMod_free (n : Fin 8) (f : Bank → Bank) : (bankMod n f d).free = d.free := rfl

/-! ### `vlvMod` -/

@[simp] theorem vlvMod_time (n : Fin 16) (f : VlvCh → VlvCh) : (vlvMod n f d).time = d.time := rfl
@[simp] theorem vlvMod_gate (n : Fin 16) (f : VlvCh → VlvCh) : (vlvMod n f d).gate = d.gate := rfl
@[simp] theorem vlvMod_host (n : Fin 16) (f : VlvCh → VlvCh) : (vlvMod n f d).host = d.host := rfl
@[simp] theorem vlvMod_rings (n : Fin 16) (f : VlvCh → VlvCh) : (vlvMod n f d).rings = d.rings := rfl
@[simp] theorem vlvMod_laidOut (n : Fin 16) (f : VlvCh → VlvCh) : (vlvMod n f d).laidOut = d.laidOut := rfl
@[simp] theorem vlvMod_out (n : Fin 16) (f : VlvCh → VlvCh) : (vlvMod n f d).out = d.out := rfl
@[simp] theorem vlvMod_cmd (n : Fin 16) (f : VlvCh → VlvCh) : (vlvMod n f d).cmd = d.cmd := rfl
@[simp] theorem vlvMod_lift (n : Fin 16) (f : VlvCh → VlvCh) : (vlvMod n f d).lift = d.lift := rfl
@[simp] theorem vlvMod_afe (n : Fin 16) (f : VlvCh → VlvCh) : (vlvMod n f d).afe = d.afe := rfl
@[simp] theorem vlvMod_dlx (n : Fin 16) (f : VlvCh → VlvCh) : (vlvMod n f d).dlx = d.dlx := rfl
@[simp] theorem vlvMod_fio (n : Fin 16) (f : VlvCh → VlvCh) : (vlvMod n f d).fio = d.fio := rfl
@[simp] theorem vlvMod_vlv (n : Fin 16) (f : VlvCh → VlvCh) : (vlvMod n f d).vlv = { d.vlv with ch := vMod d.vlv.ch n f } := rfl
@[simp] theorem vlvMod_ctl (n : Fin 16) (f : VlvCh → VlvCh) : (vlvMod n f d).ctl = d.ctl := rfl
@[simp] theorem vlvMod_svc (n : Fin 16) (f : VlvCh → VlvCh) : (vlvMod n f d).svc = d.svc := rfl
@[simp] theorem vlvMod_bus (n : Fin 16) (f : VlvCh → VlvCh) : (vlvMod n f d).bus = d.bus := rfl
@[simp] theorem vlvMod_gns (n : Fin 16) (f : VlvCh → VlvCh) : (vlvMod n f d).gns = d.gns := rfl
@[simp] theorem vlvMod_pwr (n : Fin 16) (f : VlvCh → VlvCh) : (vlvMod n f d).pwr = d.pwr := rfl
@[simp] theorem vlvMod_hlt (n : Fin 16) (f : VlvCh → VlvCh) : (vlvMod n f d).hlt = d.hlt := rfl
@[simp] theorem vlvMod_idn (n : Fin 16) (f : VlvCh → VlvCh) : (vlvMod n f d).idn = d.idn := rfl
@[simp] theorem vlvMod_free (n : Fin 16) (f : VlvCh → VlvCh) : (vlvMod n f d).free = d.free := rfl

/-! ### `ctlMod` -/

@[simp] theorem ctlMod_time (n : Fin 64) (f : CtlInst → CtlInst) : (ctlMod n f d).time = d.time := rfl
@[simp] theorem ctlMod_gate (n : Fin 64) (f : CtlInst → CtlInst) : (ctlMod n f d).gate = d.gate := rfl
@[simp] theorem ctlMod_host (n : Fin 64) (f : CtlInst → CtlInst) : (ctlMod n f d).host = d.host := rfl
@[simp] theorem ctlMod_rings (n : Fin 64) (f : CtlInst → CtlInst) : (ctlMod n f d).rings = d.rings := rfl
@[simp] theorem ctlMod_laidOut (n : Fin 64) (f : CtlInst → CtlInst) : (ctlMod n f d).laidOut = d.laidOut := rfl
@[simp] theorem ctlMod_out (n : Fin 64) (f : CtlInst → CtlInst) : (ctlMod n f d).out = d.out := rfl
@[simp] theorem ctlMod_cmd (n : Fin 64) (f : CtlInst → CtlInst) : (ctlMod n f d).cmd = d.cmd := rfl
@[simp] theorem ctlMod_lift (n : Fin 64) (f : CtlInst → CtlInst) : (ctlMod n f d).lift = d.lift := rfl
@[simp] theorem ctlMod_afe (n : Fin 64) (f : CtlInst → CtlInst) : (ctlMod n f d).afe = d.afe := rfl
@[simp] theorem ctlMod_dlx (n : Fin 64) (f : CtlInst → CtlInst) : (ctlMod n f d).dlx = d.dlx := rfl
@[simp] theorem ctlMod_fio (n : Fin 64) (f : CtlInst → CtlInst) : (ctlMod n f d).fio = d.fio := rfl
@[simp] theorem ctlMod_vlv (n : Fin 64) (f : CtlInst → CtlInst) : (ctlMod n f d).vlv = d.vlv := rfl
@[simp] theorem ctlMod_ctl (n : Fin 64) (f : CtlInst → CtlInst) : (ctlMod n f d).ctl = { d.ctl with inst := vMod d.ctl.inst n f } := rfl
@[simp] theorem ctlMod_svc (n : Fin 64) (f : CtlInst → CtlInst) : (ctlMod n f d).svc = d.svc := rfl
@[simp] theorem ctlMod_bus (n : Fin 64) (f : CtlInst → CtlInst) : (ctlMod n f d).bus = d.bus := rfl
@[simp] theorem ctlMod_gns (n : Fin 64) (f : CtlInst → CtlInst) : (ctlMod n f d).gns = d.gns := rfl
@[simp] theorem ctlMod_pwr (n : Fin 64) (f : CtlInst → CtlInst) : (ctlMod n f d).pwr = d.pwr := rfl
@[simp] theorem ctlMod_hlt (n : Fin 64) (f : CtlInst → CtlInst) : (ctlMod n f d).hlt = d.hlt := rfl
@[simp] theorem ctlMod_idn (n : Fin 64) (f : CtlInst → CtlInst) : (ctlMod n f d).idn = d.idn := rfl
@[simp] theorem ctlMod_free (n : Fin 64) (f : CtlInst → CtlInst) : (ctlMod n f d).free = d.free := rfl

/-! ### `busMod` -/

@[simp] theorem busMod_time (n : Fin 2) (f : BusCh → BusCh) : (busMod n f d).time = d.time := rfl
@[simp] theorem busMod_gate (n : Fin 2) (f : BusCh → BusCh) : (busMod n f d).gate = d.gate := rfl
@[simp] theorem busMod_host (n : Fin 2) (f : BusCh → BusCh) : (busMod n f d).host = d.host := rfl
@[simp] theorem busMod_rings (n : Fin 2) (f : BusCh → BusCh) : (busMod n f d).rings = d.rings := rfl
@[simp] theorem busMod_laidOut (n : Fin 2) (f : BusCh → BusCh) : (busMod n f d).laidOut = d.laidOut := rfl
@[simp] theorem busMod_out (n : Fin 2) (f : BusCh → BusCh) : (busMod n f d).out = d.out := rfl
@[simp] theorem busMod_cmd (n : Fin 2) (f : BusCh → BusCh) : (busMod n f d).cmd = d.cmd := rfl
@[simp] theorem busMod_lift (n : Fin 2) (f : BusCh → BusCh) : (busMod n f d).lift = d.lift := rfl
@[simp] theorem busMod_afe (n : Fin 2) (f : BusCh → BusCh) : (busMod n f d).afe = d.afe := rfl
@[simp] theorem busMod_dlx (n : Fin 2) (f : BusCh → BusCh) : (busMod n f d).dlx = d.dlx := rfl
@[simp] theorem busMod_fio (n : Fin 2) (f : BusCh → BusCh) : (busMod n f d).fio = d.fio := rfl
@[simp] theorem busMod_vlv (n : Fin 2) (f : BusCh → BusCh) : (busMod n f d).vlv = d.vlv := rfl
@[simp] theorem busMod_ctl (n : Fin 2) (f : BusCh → BusCh) : (busMod n f d).ctl = d.ctl := rfl
@[simp] theorem busMod_svc (n : Fin 2) (f : BusCh → BusCh) : (busMod n f d).svc = d.svc := rfl
@[simp] theorem busMod_bus (n : Fin 2) (f : BusCh → BusCh) : (busMod n f d).bus = { d.bus with ch := vMod d.bus.ch n f } := rfl
@[simp] theorem busMod_gns (n : Fin 2) (f : BusCh → BusCh) : (busMod n f d).gns = d.gns := rfl
@[simp] theorem busMod_pwr (n : Fin 2) (f : BusCh → BusCh) : (busMod n f d).pwr = d.pwr := rfl
@[simp] theorem busMod_hlt (n : Fin 2) (f : BusCh → BusCh) : (busMod n f d).hlt = d.hlt := rfl
@[simp] theorem busMod_idn (n : Fin 2) (f : BusCh → BusCh) : (busMod n f d).idn = d.idn := rfl
@[simp] theorem busMod_free (n : Fin 2) (f : BusCh → BusCh) : (busMod n f d).free = d.free := rfl

/-! ### `dryMod` -/

@[simp] theorem dryMod_time (n : Fin 6) (f : Dry → Dry) : (dryMod n f d).time = d.time := rfl
@[simp] theorem dryMod_gate (n : Fin 6) (f : Dry → Dry) : (dryMod n f d).gate = d.gate := rfl
@[simp] theorem dryMod_host (n : Fin 6) (f : Dry → Dry) : (dryMod n f d).host = d.host := rfl
@[simp] theorem dryMod_rings (n : Fin 6) (f : Dry → Dry) : (dryMod n f d).rings = d.rings := rfl
@[simp] theorem dryMod_laidOut (n : Fin 6) (f : Dry → Dry) : (dryMod n f d).laidOut = d.laidOut := rfl
@[simp] theorem dryMod_out (n : Fin 6) (f : Dry → Dry) : (dryMod n f d).out = d.out := rfl
@[simp] theorem dryMod_cmd (n : Fin 6) (f : Dry → Dry) : (dryMod n f d).cmd = d.cmd := rfl
@[simp] theorem dryMod_lift (n : Fin 6) (f : Dry → Dry) : (dryMod n f d).lift = d.lift := rfl
@[simp] theorem dryMod_afe (n : Fin 6) (f : Dry → Dry) : (dryMod n f d).afe = d.afe := rfl
@[simp] theorem dryMod_dlx (n : Fin 6) (f : Dry → Dry) : (dryMod n f d).dlx = d.dlx := rfl
@[simp] theorem dryMod_fio (n : Fin 6) (f : Dry → Dry) : (dryMod n f d).fio = d.fio := rfl
@[simp] theorem dryMod_vlv (n : Fin 6) (f : Dry → Dry) : (dryMod n f d).vlv = d.vlv := rfl
@[simp] theorem dryMod_ctl (n : Fin 6) (f : Dry → Dry) : (dryMod n f d).ctl = d.ctl := rfl
@[simp] theorem dryMod_svc (n : Fin 6) (f : Dry → Dry) : (dryMod n f d).svc = { d.svc with dry := vMod d.svc.dry n f } := rfl
@[simp] theorem dryMod_bus (n : Fin 6) (f : Dry → Dry) : (dryMod n f d).bus = d.bus := rfl
@[simp] theorem dryMod_gns (n : Fin 6) (f : Dry → Dry) : (dryMod n f d).gns = d.gns := rfl
@[simp] theorem dryMod_pwr (n : Fin 6) (f : Dry → Dry) : (dryMod n f d).pwr = d.pwr := rfl
@[simp] theorem dryMod_hlt (n : Fin 6) (f : Dry → Dry) : (dryMod n f d).hlt = d.hlt := rfl
@[simp] theorem dryMod_idn (n : Fin 6) (f : Dry → Dry) : (dryMod n f d).idn = d.idn := rfl
@[simp] theorem dryMod_free (n : Fin 6) (f : Dry → Dry) : (dryMod n f d).free = d.free := rfl

/-! ### `watMod` -/

@[simp] theorem watMod_time (n : Fin 2) (f : Water → Water) : (watMod n f d).time = d.time := rfl
@[simp] theorem watMod_gate (n : Fin 2) (f : Water → Water) : (watMod n f d).gate = d.gate := rfl
@[simp] theorem watMod_host (n : Fin 2) (f : Water → Water) : (watMod n f d).host = d.host := rfl
@[simp] theorem watMod_rings (n : Fin 2) (f : Water → Water) : (watMod n f d).rings = d.rings := rfl
@[simp] theorem watMod_laidOut (n : Fin 2) (f : Water → Water) : (watMod n f d).laidOut = d.laidOut := rfl
@[simp] theorem watMod_out (n : Fin 2) (f : Water → Water) : (watMod n f d).out = d.out := rfl
@[simp] theorem watMod_cmd (n : Fin 2) (f : Water → Water) : (watMod n f d).cmd = d.cmd := rfl
@[simp] theorem watMod_lift (n : Fin 2) (f : Water → Water) : (watMod n f d).lift = d.lift := rfl
@[simp] theorem watMod_afe (n : Fin 2) (f : Water → Water) : (watMod n f d).afe = d.afe := rfl
@[simp] theorem watMod_dlx (n : Fin 2) (f : Water → Water) : (watMod n f d).dlx = d.dlx := rfl
@[simp] theorem watMod_fio (n : Fin 2) (f : Water → Water) : (watMod n f d).fio = d.fio := rfl
@[simp] theorem watMod_vlv (n : Fin 2) (f : Water → Water) : (watMod n f d).vlv = d.vlv := rfl
@[simp] theorem watMod_ctl (n : Fin 2) (f : Water → Water) : (watMod n f d).ctl = d.ctl := rfl
@[simp] theorem watMod_svc (n : Fin 2) (f : Water → Water) : (watMod n f d).svc = { d.svc with wat := vMod d.svc.wat n f } := rfl
@[simp] theorem watMod_bus (n : Fin 2) (f : Water → Water) : (watMod n f d).bus = d.bus := rfl
@[simp] theorem watMod_gns (n : Fin 2) (f : Water → Water) : (watMod n f d).gns = d.gns := rfl
@[simp] theorem watMod_pwr (n : Fin 2) (f : Water → Water) : (watMod n f d).pwr = d.pwr := rfl
@[simp] theorem watMod_hlt (n : Fin 2) (f : Water → Water) : (watMod n f d).hlt = d.hlt := rfl
@[simp] theorem watMod_idn (n : Fin 2) (f : Water → Water) : (watMod n f d).idn = d.idn := rfl
@[simp] theorem watMod_free (n : Fin 2) (f : Water → Water) : (watMod n f d).free = d.free := rfl

/-! ### `unitMod` -/

@[simp] theorem unitMod_time (u : Nat) (f : UnitSt → UnitSt) : (unitMod u f d).time = d.time := rfl
@[simp] theorem unitMod_gate (u : Nat) (f : UnitSt → UnitSt) : (unitMod u f d).gate = d.gate := rfl
@[simp] theorem unitMod_host (u : Nat) (f : UnitSt → UnitSt) : (unitMod u f d).host = d.host := rfl
@[simp] theorem unitMod_rings (u : Nat) (f : UnitSt → UnitSt) : (unitMod u f d).rings = d.rings := rfl
@[simp] theorem unitMod_laidOut (u : Nat) (f : UnitSt → UnitSt) : (unitMod u f d).laidOut = d.laidOut := rfl
@[simp] theorem unitMod_out (u : Nat) (f : UnitSt → UnitSt) : (unitMod u f d).out = d.out := rfl
@[simp] theorem unitMod_cmd (u : Nat) (f : UnitSt → UnitSt) : (unitMod u f d).cmd = d.cmd := rfl
@[simp] theorem unitMod_lift (u : Nat) (f : UnitSt → UnitSt) : (unitMod u f d).lift = d.lift := rfl
@[simp] theorem unitMod_afe (u : Nat) (f : UnitSt → UnitSt) : (unitMod u f d).afe = d.afe := rfl
@[simp] theorem unitMod_dlx (u : Nat) (f : UnitSt → UnitSt) : (unitMod u f d).dlx = d.dlx := rfl
@[simp] theorem unitMod_fio (u : Nat) (f : UnitSt → UnitSt) : (unitMod u f d).fio = d.fio := rfl
@[simp] theorem unitMod_vlv (u : Nat) (f : UnitSt → UnitSt) : (unitMod u f d).vlv = d.vlv := rfl
@[simp] theorem unitMod_ctl (u : Nat) (f : UnitSt → UnitSt) : (unitMod u f d).ctl = d.ctl := rfl
@[simp] theorem unitMod_svc (u : Nat) (f : UnitSt → UnitSt) : (unitMod u f d).svc = d.svc := rfl
@[simp] theorem unitMod_bus (u : Nat) (f : UnitSt → UnitSt) : (unitMod u f d).bus = d.bus := rfl
@[simp] theorem unitMod_gns (u : Nat) (f : UnitSt → UnitSt) : (unitMod u f d).gns = d.gns := rfl
@[simp] theorem unitMod_pwr (u : Nat) (f : UnitSt → UnitSt) : (unitMod u f d).pwr = d.pwr := rfl
@[simp] theorem unitMod_idn (u : Nat) (f : UnitSt → UnitSt) : (unitMod u f d).idn = d.idn := rfl
@[simp] theorem unitMod_free (u : Nat) (f : UnitSt → UnitSt) : (unitMod u f d).free = d.free := rfl

/-! ### `raiseAt` -/

@[simp] theorem raiseAt_time (p : Fin 8) (c pa dt t : Nat) (x : List Byte) : (raiseAt p c pa dt t x d).time = d.time := rfl
@[simp] theorem raiseAt_host (p : Fin 8) (c pa dt t : Nat) (x : List Byte) : (raiseAt p c pa dt t x d).host = d.host := rfl
@[simp] theorem raiseAt_rings (p : Fin 8) (c pa dt t : Nat) (x : List Byte) : (raiseAt p c pa dt t x d).rings = d.rings := rfl
@[simp] theorem raiseAt_laidOut (p : Fin 8) (c pa dt t : Nat) (x : List Byte) : (raiseAt p c pa dt t x d).laidOut = d.laidOut := rfl
@[simp] theorem raiseAt_out (p : Fin 8) (c pa dt t : Nat) (x : List Byte) : (raiseAt p c pa dt t x d).out = d.out := rfl
@[simp] theorem raiseAt_cmd (p : Fin 8) (c pa dt t : Nat) (x : List Byte) : (raiseAt p c pa dt t x d).cmd = d.cmd := rfl
@[simp] theorem raiseAt_lift (p : Fin 8) (c pa dt t : Nat) (x : List Byte) : (raiseAt p c pa dt t x d).lift = d.lift := rfl
@[simp] theorem raiseAt_afe (p : Fin 8) (c pa dt t : Nat) (x : List Byte) : (raiseAt p c pa dt t x d).afe = d.afe := rfl
@[simp] theorem raiseAt_dlx (p : Fin 8) (c pa dt t : Nat) (x : List Byte) : (raiseAt p c pa dt t x d).dlx = d.dlx := rfl
@[simp] theorem raiseAt_fio (p : Fin 8) (c pa dt t : Nat) (x : List Byte) : (raiseAt p c pa dt t x d).fio = d.fio := rfl
@[simp] theorem raiseAt_vlv (p : Fin 8) (c pa dt t : Nat) (x : List Byte) : (raiseAt p c pa dt t x d).vlv = d.vlv := rfl
@[simp] theorem raiseAt_ctl (p : Fin 8) (c pa dt t : Nat) (x : List Byte) : (raiseAt p c pa dt t x d).ctl = d.ctl := rfl
@[simp] theorem raiseAt_svc (p : Fin 8) (c pa dt t : Nat) (x : List Byte) : (raiseAt p c pa dt t x d).svc = d.svc := rfl
@[simp] theorem raiseAt_bus (p : Fin 8) (c pa dt t : Nat) (x : List Byte) : (raiseAt p c pa dt t x d).bus = d.bus := rfl
@[simp] theorem raiseAt_gns (p : Fin 8) (c pa dt t : Nat) (x : List Byte) : (raiseAt p c pa dt t x d).gns = d.gns := rfl
@[simp] theorem raiseAt_pwr (p : Fin 8) (c pa dt t : Nat) (x : List Byte) : (raiseAt p c pa dt t x d).pwr = d.pwr := rfl
@[simp] theorem raiseAt_hlt (p : Fin 8) (c pa dt t : Nat) (x : List Byte) : (raiseAt p c pa dt t x d).hlt = d.hlt := rfl
@[simp] theorem raiseAt_idn (p : Fin 8) (c pa dt t : Nat) (x : List Byte) : (raiseAt p c pa dt t x d).idn = d.idn := rfl
@[simp] theorem raiseAt_free (p : Fin 8) (c pa dt t : Nat) (x : List Byte) : (raiseAt p c pa dt t x d).free = d.free := rfl

/-! ### `raise` -/

@[simp] theorem raise_time (p : Fin 8) (c pa : Nat) (x : List Byte) : (raise p c pa x d).time = d.time := rfl
@[simp] theorem raise_host (p : Fin 8) (c pa : Nat) (x : List Byte) : (raise p c pa x d).host = d.host := rfl
@[simp] theorem raise_rings (p : Fin 8) (c pa : Nat) (x : List Byte) : (raise p c pa x d).rings = d.rings := rfl
@[simp] theorem raise_laidOut (p : Fin 8) (c pa : Nat) (x : List Byte) : (raise p c pa x d).laidOut = d.laidOut := rfl
@[simp] theorem raise_out (p : Fin 8) (c pa : Nat) (x : List Byte) : (raise p c pa x d).out = d.out := rfl
@[simp] theorem raise_cmd (p : Fin 8) (c pa : Nat) (x : List Byte) : (raise p c pa x d).cmd = d.cmd := rfl
@[simp] theorem raise_lift (p : Fin 8) (c pa : Nat) (x : List Byte) : (raise p c pa x d).lift = d.lift := rfl
@[simp] theorem raise_afe (p : Fin 8) (c pa : Nat) (x : List Byte) : (raise p c pa x d).afe = d.afe := rfl
@[simp] theorem raise_dlx (p : Fin 8) (c pa : Nat) (x : List Byte) : (raise p c pa x d).dlx = d.dlx := rfl
@[simp] theorem raise_fio (p : Fin 8) (c pa : Nat) (x : List Byte) : (raise p c pa x d).fio = d.fio := rfl
@[simp] theorem raise_vlv (p : Fin 8) (c pa : Nat) (x : List Byte) : (raise p c pa x d).vlv = d.vlv := rfl
@[simp] theorem raise_ctl (p : Fin 8) (c pa : Nat) (x : List Byte) : (raise p c pa x d).ctl = d.ctl := rfl
@[simp] theorem raise_svc (p : Fin 8) (c pa : Nat) (x : List Byte) : (raise p c pa x d).svc = d.svc := rfl
@[simp] theorem raise_bus (p : Fin 8) (c pa : Nat) (x : List Byte) : (raise p c pa x d).bus = d.bus := rfl
@[simp] theorem raise_gns (p : Fin 8) (c pa : Nat) (x : List Byte) : (raise p c pa x d).gns = d.gns := rfl
@[simp] theorem raise_pwr (p : Fin 8) (c pa : Nat) (x : List Byte) : (raise p c pa x d).pwr = d.pwr := rfl
@[simp] theorem raise_hlt (p : Fin 8) (c pa : Nat) (x : List Byte) : (raise p c pa x d).hlt = d.hlt := rfl
@[simp] theorem raise_idn (p : Fin 8) (c pa : Nat) (x : List Byte) : (raise p c pa x d).idn = d.idn := rfl
@[simp] theorem raise_free (p : Fin 8) (c pa : Nat) (x : List Byte) : (raise p c pa x d).free = d.free := rfl

/-! ### `complete` -/

@[simp] theorem complete_time (c : Cmd) (st dl : Nat) (x : List Byte) : (complete c st dl x d).time = d.time := rfl
@[simp] theorem complete_host (c : Cmd) (st dl : Nat) (x : List Byte) : (complete c st dl x d).host = d.host := rfl
@[simp] theorem complete_rings (c : Cmd) (st dl : Nat) (x : List Byte) : (complete c st dl x d).rings = d.rings := rfl
@[simp] theorem complete_laidOut (c : Cmd) (st dl : Nat) (x : List Byte) : (complete c st dl x d).laidOut = d.laidOut := rfl
@[simp] theorem complete_out (c : Cmd) (st dl : Nat) (x : List Byte) : (complete c st dl x d).out = d.out := rfl
@[simp] theorem complete_lift (c : Cmd) (st dl : Nat) (x : List Byte) : (complete c st dl x d).lift = d.lift := rfl
@[simp] theorem complete_afe (c : Cmd) (st dl : Nat) (x : List Byte) : (complete c st dl x d).afe = d.afe := rfl
@[simp] theorem complete_dlx (c : Cmd) (st dl : Nat) (x : List Byte) : (complete c st dl x d).dlx = d.dlx := rfl
@[simp] theorem complete_fio (c : Cmd) (st dl : Nat) (x : List Byte) : (complete c st dl x d).fio = d.fio := rfl
@[simp] theorem complete_vlv (c : Cmd) (st dl : Nat) (x : List Byte) : (complete c st dl x d).vlv = d.vlv := rfl
@[simp] theorem complete_ctl (c : Cmd) (st dl : Nat) (x : List Byte) : (complete c st dl x d).ctl = d.ctl := rfl
@[simp] theorem complete_svc (c : Cmd) (st dl : Nat) (x : List Byte) : (complete c st dl x d).svc = d.svc := rfl
@[simp] theorem complete_bus (c : Cmd) (st dl : Nat) (x : List Byte) : (complete c st dl x d).bus = d.bus := rfl
@[simp] theorem complete_gns (c : Cmd) (st dl : Nat) (x : List Byte) : (complete c st dl x d).gns = d.gns := rfl
@[simp] theorem complete_pwr (c : Cmd) (st dl : Nat) (x : List Byte) : (complete c st dl x d).pwr = d.pwr := rfl
@[simp] theorem complete_hlt (c : Cmd) (st dl : Nat) (x : List Byte) : (complete c st dl x d).hlt = d.hlt := rfl
@[simp] theorem complete_idn (c : Cmd) (st dl : Nat) (x : List Byte) : (complete c st dl x d).idn = d.idn := rfl
@[simp] theorem complete_free (c : Cmd) (st dl : Nat) (x : List Byte) : (complete c st dl x d).free = d.free := rfl

end Sys2Proof.Machine
end

