-- ==== Sys2Proof/Laws/Ops.lean ====
section
/-!
SUPPORT. Laws/Ops.lean: what the shared operations can do: ring writes, the taking of entries, the forms of a command and the
answers to a command.
-/
namespace Sys2Proof.Machine

/-! ## Ring writes -/

@[simp] theorem settleOne_pending (s : State) (w : RingWrite) : (settleOne s w).pending = s.pending := by
  cases w <;> simp only [settleOne] <;> (repeat' split) <;> rfl

@[simp] theorem settleOne_snap (s : State) (w : RingWrite) : (settleOne s w).snap = s.snap := by
  cases w <;> simp only [settleOne] <;> (repeat' split) <;> rfl

theorem settleOne_wf {s : State} (h : s.mem.wf) (w : RingWrite) : (settleOne s w).mem.wf := by
  cases w <;> simp only [settleOne] <;> (repeat' split) <;> first | exact h | exact memWrite_wf h _ _

/-- A list of ring writes keeps the queue of commands and the snapshot buffer, and the canonical form. -/
theorem settleList (ws : List RingWrite) (s : State) :
    (ws.foldl settleOne s).pending = s.pending ∧ (ws.foldl settleOne s).snap = s.snap ∧
      (s.mem.wf → (ws.foldl settleOne s).mem.wf) := by
  induction ws generalizing s with
  | nil => exact ⟨rfl, rfl, id⟩
  | cons w ws ih =>
    obtain ⟨h1, h2, h3⟩ := ih (settleOne s w)
    exact ⟨by simpa using h1, by simpa using h2, fun h => h3 (settleOne_wf h w)⟩

@[simp] theorem settle_pending (s : State) : (settle s).pending = s.pending := (settleList _ _).1

@[simp] theorem settle_snap (s : State) : (settle s).snap = s.snap := (settleList _ _).2.1

theorem settle_wf {s : State} (h : s.mem.wf) : (settle s).mem.wf := (settleList _ _).2.2 h

/-- Where a command asks for no ring write, nothing is written. -/
theorem settle_none {s : State} (h : s.dev.out = []) : settle s = s := by
  obtain ⟨p, m, n, d⟩ := s
  simp only at h
  simp [settle, h]
  cases d
  simp_all

/-! ## Taking entries -/

theorem takeOne_memory (s : State) : KeepsMemory s (takeOne s) := by
  unfold takeOne
  split
  · exact ⟨rfl, rfl, rfl⟩
  · split
    · exact ⟨rfl, rfl, rfl⟩
    · exact ⟨rfl, rfl, rfl⟩
    · unfold takeLane
      split <;> exact ⟨rfl, rfl, rfl⟩

theorem takeN_memory (n : Nat) (s : State) : KeepsMemory s (takeN n s) := by
  induction n generalizing s with
  | zero => exact ⟨rfl, rfl, rfl⟩
  | succ n ih =>
    obtain ⟨a, b, c⟩ := takeOne_memory s
    obtain ⟨a', b', c'⟩ := ih (takeOne s)
    exact ⟨a'.trans a, b'.trans b, c'.trans c⟩

/-- Taking entries changes neither the queue of commands nor a byte of memory. -/
theorem takeAll_memory (s : State) : KeepsMemory s (takeAll s) := takeN_memory _ s

@[simp] theorem takeAll_pending (s : State) : (takeAll s).pending = s.pending := (takeAll_memory s).1
@[simp] theorem takeAll_mem (s : State) : (takeAll s).mem = s.mem := (takeAll_memory s).2.1
@[simp] theorem takeAll_snap (s : State) : (takeAll s).snap = s.snap := (takeAll_memory s).2.2

/-! ## The forms of a command -/

theorem quiet_next (f : Dev → Dev) (s : State) : quiet f s = .next { s with dev := f s.dev } := rfl

theorem loud_next (f : Dev → Dev) (s : State) : loud f s = .next (settle { s with dev := f s.dev }) := rfl

theorem taking_next (f : Dev → Dev) (s : State) : taking f s = .next (takeAll (settle { s with dev := f s.dev })) := rfl

theorem losing_next (f : Dev → Dev) (s : State) : losing f s = .next { s with mem := [], snap := [], dev := f s.dev } := rfl

theorem losingSnap_next (f : Dev → Dev) (s : State) : losingSnap f s = .next { s with snap := [], dev := f s.dev } := rfl

/-- What every form leaves of the queue of commands and of the memories' canonical form. -/
structure Kept (s t : State) : Prop where
  pending : t.pending = s.pending
  memOk : MemOk s → MemOk t

theorem Kept.quiet (f : Dev → Dev) (s : State) : Kept s { s with dev := f s.dev } := ⟨rfl, id⟩

theorem Kept.settle (s : State) : Kept s (settle s) :=
  ⟨by simp, fun h => ⟨settle_wf h.1, by simpa using h.2⟩⟩

theorem Kept.takeAll (s : State) : Kept s (takeAll s) :=
  ⟨by simp, fun h => ⟨by simpa using h.1, by simpa using h.2⟩⟩

theorem Kept.trans {s t u : State} (h : Kept s t) (h' : Kept t u) : Kept s u :=
  ⟨h'.pending.trans h.pending, fun x => h'.memOk (h.memOk x)⟩

/-! ## Commands -/

/-- A row whose command is not live has no effect. -/
theorem withCmd_absent {d : Dev} {id : CmdId} (h : liveCmd d id = none) (op : Nat) (f : Cmd → Dev → Dev) :
    withCmd op id f d = d := by
  simp [withCmd, h]

/-- A row whose command is live, of its opcode and next in order, runs. -/
theorem withCmd_runs {d : Dev} {id : CmdId} {c : Cmd} {op : Nat} (h : liveCmd d id = some c) (ho : c.opcode = op)
    (hs : startable d.cmd.live id = true) (f : Cmd → Dev → Dev) : withCmd op id f d = f c d := by
  simp [withCmd, h, ho, hs]

/-- A row whose command has another opcode, or is not next in order, has no effect. -/
theorem withCmd_skips {d : Dev} {id : CmdId} {c : Cmd} {op : Nat} (h : liveCmd d id = some c)
    (hs : ¬(c.opcode = op ∧ startable d.cmd.live id = true)) (f : Cmd → Dev → Dev) : withCmd op id f d = d := by
  simp only [withCmd, h, Bool.and_eq_true]
  rw [if_neg]
  simpa using hs

/-- A command that no check refuses answers ST_OK. -/
theorem answer_ok {cs : List (Bool × Refuse)} (h : firstRefusal cs = none) (r : List Byte) (c : Cmd) (d : Dev) :
    answer cs r c d = complete c 0 0 r d := by
  simp [answer, h]

/-- A command that a check refuses carries its status. -/
theorem answer_refused {cs : List (Bool × Refuse)} {x : Refuse} (h : firstRefusal cs = some x) (r : List Byte) (c : Cmd)
    (d : Dev) : answer cs r c d = complete c x.status x.detail [] d := by
  simp [answer, h]

@[simp] theorem vSet_get_same {α : Type} {n : Nat} (v : Vector α n) (i : Fin n) (x : α) : (v.set i x).get i = x := by
  show (v.set i x)[i.val] = x
  simp

theorem vSet_get_other {α : Type} {n : Nat} (v : Vector α n) {i j : Fin n} (x : α) (h : i ≠ j) :
    (v.set i x).get j = v.get j := by
  have h' : (i : Nat) ≠ j := fun e => h (Fin.ext e)
  show (v.set i x)[j.val] = v[j.val]
  exact Vector.getElem_set_ne i.isLt j.isLt h'

@[simp] theorem vMod_get_same {α : Type} {n : Nat} (v : Vector α n) (i : Fin n) (f : α → α) :
    (vMod v i f).get i = f (v.get i) := vSet_get_same v i _

theorem vMod_get_other {α : Type} {n : Nat} (v : Vector α n) {i j : Fin n} (f : α → α) (h : i ≠ j) :
    (vMod v i f).get j = v.get j := vSet_get_other v _ h

/-- The completion waits at port 5 behind what waits there. -/
theorem complete_port (c : Cmd) (st dl : Nat) (x : List Byte) (d : Dev) :
    (complete c st dl x d).gate.ports.get 5 = d.gate.ports.get 5 ++ [.comp (compOf c st dl false x)] := by
  simp [complete]

end Sys2Proof.Machine
end

