-- ==== Sys2Proof/Laws/Host.lean ====
section
/-!
SUPPORT. Laws/Host.lean: a well-formed write on the host link passes its checks and carries its words.
-/
namespace Sys2Proof.Machine

/-- The words of a burst, as bytes. -/
@[simp] theorem flatBytes_length (vs : List Nat) : (vs.flatMap (beBytes 4)).length = 4 * vs.length := by
  induction vs with
  | nil => rfl
  | cons v vs ih => rw [List.flatMap_cons, List.length_append, ih, beBytes_length, List.length_cons]; omega

@[simp] theorem writeBytes_length (a : Nat) (vs : List Nat) : (writeBytes a vs).length = 5 + 4 * vs.length := by
  simp [writeBytes, -List.length_flatMap]; omega

/-- The words on the wire are the words written. -/
theorem wireWords_flat {vs : List Nat} (h : ∀ v ∈ vs, v < 2 ^ 32) (rest : List Byte) :
    wireWords vs.length (vs.flatMap (beBytes 4) ++ rest) = vs := by
  induction vs with
  | nil => rfl
  | cons v vs ih =>
    have hv : deBig (beBytes 4 v) = v := deBig_beBytes (h v (by simp))
    simp only [List.length_cons, wireWords, List.flatMap_cons, List.append_assoc]
    rw [List.take_append_of_le_length (by simp), List.drop_append_of_le_length (by simp),
      List.take_of_length_le (by simp), List.drop_eq_nil_of_le (by simp), hv, List.nil_append,
      ih fun w hw => h w (by simp [hw])]

/-- The head of a write: opcode and address. -/
def writeHead (a n : Nat) : List Byte := le 1 (if n = 1 then 0x80 else 0xC0 + (n - 1)) ++ beBytes 2 a

@[simp] theorem writeHead_length (a n : Nat) : (writeHead a n).length = 3 := by simp [writeHead]

theorem writeBytes_eq (a : Nat) (vs : List Nat) :
    writeBytes a vs = writeHead a vs.length ++ vs.flatMap (beBytes 4) ++
      beBytes 2 (crc16 (writeHead a vs.length ++ vs.flatMap (beBytes 4))) := by
  simp [writeBytes, writeHead]

/-- A well-formed write of words within a row of the window is applied (R57, R60). -/
theorem linkWrite_good {a : Nat} {vs : List Nat} (ha : a < 65536) (hv : ∀ v ∈ vs, v < 2 ^ 32)
    (hr : inRow a vs.length = true) (miso : List Byte) (s : State) :
    linkWrite vs.length (writeBytes a vs) miso s =
      { (windowWrites a vs s).2 with
        dev := linkEnd (if (windowWrites a vs s).1 then .good else .addr) miso (windowWrites a vs s).2.dev } := by
  have hh : (writeHead a vs.length ++ vs.flatMap (beBytes 4)).length = 3 + 4 * vs.length := by
    rw [List.length_append, flatBytes_length]
    simp
  have h1 : (writeBytes a vs).take (3 + 4 * vs.length) = writeHead a vs.length ++ vs.flatMap (beBytes 4) := by
    rw [writeBytes_eq, ← hh, List.take_left]
  have h2 : (writeBytes a vs).drop (3 + 4 * vs.length) =
      beBytes 2 (crc16 (writeHead a vs.length ++ vs.flatMap (beBytes 4))) := by
    rw [writeBytes_eq, ← hh, List.drop_left]
  have h3 : ((writeBytes a vs).drop 1).take 2 = beBytes 2 a := by
    simp [writeBytes, le]
  have h4 : (writeBytes a vs).drop 3 = vs.flatMap (beBytes 4) ++
      beBytes 2 (crc16 (writeHead a vs.length ++ vs.flatMap (beBytes 4))) := by
    rw [writeBytes_eq, List.append_assoc, List.drop_append_of_le_length (by simp), List.drop_eq_nil_of_le (by simp),
      List.nil_append]
  have hc := crc16_lt (writeHead a vs.length ++ vs.flatMap (beBytes 4))
  unfold linkWrite
  rw [if_neg (by simp), h1, h2, if_neg (by rw [deBig_beBytes (by omega)]; simp), h3, h4, deBig_beBytes (by omega)]
  simp [hr, wireWords_flat hv]

/-- A write transaction while the link runs (R57, R60). -/
theorem transaction_write {a : Nat} {vs : List Nat} {s : State} (hr : s.dev.host.hrdy = true) (ha : a < 65536) (hn : vs ≠ [])
    (hl : vs.length ≤ 64) (hv : ∀ v ∈ vs, v < 2 ^ 32) (hi : inRow a vs.length = true) :
    transaction (writeBytes a vs) s =
      (let x := windowWrites a vs { s with dev := healthCheck s.dev }
       let miso := padTo (5 + 4 * vs.length) (le 1 (statusByte (healthCheck s.dev)))
       { x.2 with dev := linkEnd (if x.1 then .good else .addr) miso x.2.dev }) := by
  have h0 : 0 < vs.length := List.length_pos_iff.mpr hn
  unfold transaction
  simp only [hr, Bool.not_true, Bool.false_eq_true, ↓reduceIte, writeBytes_length]
  have hb : writeBytes a vs = BitVec.ofNat 8 (if vs.length = 1 then 0x80 else 0xC0 + (vs.length - 1)) ::
      (writeBytes a vs).drop 1 := by simp [writeBytes, le]
  rw [hb]
  simp only [BitVec.toNat_ofNat]
  rw [← hb]
  by_cases h1 : vs.length = 1
  · have := linkWrite_good (s := { s with dev := healthCheck s.dev }) ha hv hi
      (padTo (5 + 4 * vs.length) (le 1 (statusByte (healthCheck s.dev))))
    simp only [h1] at this ⊢
    simpa using this
  · have h2 : (192 + (vs.length - 1)) % 2 ^ 8 = 192 + (vs.length - 1) := by omega
    have h3 : (192 + (vs.length - 1)) % 64 + 1 = vs.length := by omega
    have h4 : (192 + (vs.length - 1)) / 64 % 2 = 1 := by omega
    simp only [h1, ↓reduceIte, h2, h3, h4]
    rw [if_neg (by simp), if_pos (by omega)]
    exact linkWrite_good ha hv hi _ _

end Sys2Proof.Machine
end

