-- ==== Sys2Proof/Tests/Slice0.lean ====
section
/-!
SUPPORT. Tests/Slice0.lean: small tests of the model, and for each statement with hypotheses a theorem that shows states and
operands that meet them, clause by clause.
-/
namespace Sys2Proof.Tests

-- The tests are elaborated one after another: in parallel their threads' stacks exceed the memory of a check.
set_option Elab.async false

open Sys2Proof Sys2Proof.Machine

/-! ## States to test with -/

/-- A change of the device. -/
def onDev (f : Dev → Dev) (s : State) : State := { s with dev := f s.dev }

/-- A host command with tag 5, taken and not started. -/
def cmdOf (op target : Nat) (payload : List Byte) : Cmd where
  id := .host 5
  ring := 1
  commander := 0
  flags := 0
  opcode := op
  target := target
  length := payload.length
  timeout := 0
  batchId := 0
  payload := payload
  slot := 0
  dup := false
  phase := .taken
  written := false
  note := 0

/-- A state that holds one live command. -/
def holding (c : Cmd) (s : State) : State := onDev (fun d => { d with cmd := { d.cmd with live := [c] } }) s

/-- A state whose parameter has a value. -/
def param (key inst v : Nat) (s : State) : State :=
  onDev (fun d => { d with cmd := { d.cmd with params := alSet d.cmd.params (addrOf key inst) { words := [w32 v], tick := 0 } } }) s

/-- A state whose PAIRED parameter has a value in both copies. -/
def paired_ (key inst v : Nat) (s : State) : State :=
  let x : Pair := { resetPair (addrOf key inst) with prim := [mkPair (w32 v)], shad := [mkPair (w32 v)] }
  onDev (fun d => { d with cmd := { d.cmd with pairs := alSet d.cmd.pairs (addrOf key inst) x } }) s

/-- Changes of one chapter's state. -/
def hst (f : HostSt → HostSt) : State → State := onDev fun d => { d with host := f d.host }
def cmds (f : CmdSt → CmdSt) : State → State := onDev fun d => { d with cmd := f d.cmd }
def lft (f : LiftSt → LiftSt) : State → State := onDev fun d => { d with lift := f d.lift }
def dlx (f : DlxSt → DlxSt) : State → State := onDev fun d => { d with dlx := f d.dlx }
def svc (f : SvcSt → SvcSt) : State → State := onDev fun d => { d with svc := f d.svc }
def gns (f : GnsSt → GnsSt) : State → State := onDev fun d => { d with gns := f d.gns }
def pwr (f : PwrSt → PwrSt) : State → State := onDev fun d => { d with pwr := f d.pwr }
def hlt (f : HltSt → HltSt) : State → State := onDev fun d => { d with hlt := f d.hlt }
def ring (q : Fin 20) (f : Ring → Ring) : State → State := onDev fun d => { d with rings := vMod d.rings q f }

/-- A loop in a state of its own. -/
def loop (i : Fin 64) (b : CtlBase) : State → State := onDev (ctlMod i fun x => { x with base := b })

/-- The block in RUN: both dies powered, every domain on, the Lift in lock. -/
def running : State :=
  State.reset
    |> hst (fun h => { h with hrdy := true, stage := 0x80 })
    |> pwr (fun p => { p with pll := true, fieldUp := true, fieldPow := true, started := true })
    |> pwr (fun p => { p with hold := false, dom := Vector.replicate 11 0 })
    |> lft (fun l => { l with up := .locked 7, upSeq := 7, down := .locked 7, downSeq := 7, armed := true })
    |> svc (fun v => { v with ran := true, running := true })
    |> onDev (fun d => { d with time := { d.time with running := true } })

theorem ready_holding (op target : Nat) (p : List Byte) (s : State) :
    Ready (holding (cmdOf op target p) s) (.host 5) op (cmdOf op target p) := by
  refine ⟨?_, rfl, ?_⟩ <;> simp [holding, onDev, liveCmd, cmdOf, startable]

/-- The command is ready in the state that holds it, and both meet a condition. -/
structure Meets (op target : Nat) (p : List Byte) (s : State) (P : State → Cmd → Prop) : Prop where
  ready : Ready (holding (cmdOf op target p) s) (.host 5) op (cmdOf op target p)
  cond : P (holding (cmdOf op target p) s) (cmdOf op target p)

/-- The flash is free for the next flash command, as `FlashFree` has it; and a state in which it is not. -/
abbrev Free (s : State) : Prop := s.dev.hlt.flash = [] ∧ s.dev.pwr.lStep < 3

theorem free_iff (s : State) : Free s ↔ FlashFree s := Iff.rfl

def flashBusy : State := hlt (fun h => { h with flash := [{ cmd := none, kind := 0, ref := 0, result := [], wr := none }] }) running

theorem meets {op target : Nat} {p : List Byte} {s : State} {P : State → Cmd → Prop}
    (h : P (holding (cmdOf op target p) s) (cmdOf op target p)) : Meets op target p s P :=
  ⟨ready_holding op target p s, h⟩

/-! ## Well-formed and ill-formed commands -/

/-- A frame with nothing wrong. -/
def okFrame : BusFrame :=
  { id := 5, xtd := false, fdf := false, brs := false, esi := false, rtr := false, dlc := 2, data := [1, 2], sofAgo := 0 }

/-- A measurement of channel 3, band 1. -/
def meas : GnsMeas where
  ch := 3
  band := 1
  signal := 0
  range := 0
  phase := 0
  doppler := 0
  cn0 := 0
  rangeSigma := 0
  phaseSigma := 0
  mpErr := 0
  mpInd := 0
  loops := []
  jump := 0
  halfCycle := false
  inSolution := false
  residual := false

/-- A conversion window of so many MCLK periods. -/
def sampled (n : Nat) : AfeSample :=
  { bits := List.replicate n true, overWindow := false, pulseRise := false, fault := none }

/-- Tags 0 to 31 of a remote channel, and no more (R101). -/
theorem test_wellFormed_tag : WellFormed (.nop (.remote 1 31)) = true ∧ WellFormed (.nop (.remote 1 32)) = false := by decide

/-- A write sets the highest bit of its first byte, a read does not (R57). -/
theorem test_wellFormed_transaction :
    WellFormed (.registerWrite [0x80]) = true ∧ WellFormed (.registerWrite [0x7F]) = false ∧
    WellFormed (.readTransaction [0x7F]) = true ∧ WellFormed (.readTransaction [0x80]) = false := by decide

/-- A ring window write stays in the window and carries 1 to 64 words (R57, R62). -/
theorem test_wellFormed_window :
    WellFormed (.ringWindowWrite 0xBFFF [0]) = true ∧ WellFormed (.ringWindowWrite 0xC000 [0]) = false ∧
    WellFormed (.ringWindowWrite 0x7FFF [0]) = false ∧ WellFormed (.ringWindowWrite 0x8000 []) = false ∧
    WellFormed (.ringWindowWrite 0x8000 (List.replicate 65 0)) = false := by decide

/-- A window has the MCLK periods of a decimation ratio (R141). -/
theorem test_wellFormed_conversion :
    WellFormed (.conversionEnd 0 (sampled 1000)) = true ∧ WellFormed (.conversionEnd 0 (sampled 999)) = false := by
  decide +kernel

/-- A tick period of the input filter brings 1 to 1,000 samples (R231, R232). -/
theorem test_wellFormed_filter : WellFormed (.filterTick 0 [{ level := true, uA := 0 }]) = true ∧
    WellFormed (.filterTick 0 []) = false := by decide

/-- A frame has the bytes of its DLC, a remote frame none; only FD frames switch rate; a base identifier has 11 bits (R398). -/
theorem test_wellFormed_frame :
    WellFormed (.busFrameReceived 0 okFrame) = true ∧ WellFormed (.busFrameReceived 0 { okFrame with dlc := 3 }) = false ∧
    WellFormed (.busFrameReceived 0 { okFrame with rtr := true }) = false ∧
    WellFormed (.busFrameReceived 0 { okFrame with brs := true }) = false ∧
    WellFormed (.busFrameReceived 0 { okFrame with id := 2048 }) = false := by decide

/-- One measurement per channel and band at an epoch (R453). -/
theorem test_wellFormed_epoch :
    WellFormed (.gnssEpoch 0 [meas, { meas with band := 0 }] none) = true ∧ WellFormed (.gnssEpoch 0 [meas, meas] none) = false := by
  decide

/-- A navigation unit has a length of its signal (R448) and its bits lie in its bytes (R455); a fraction needs a sample
(R447). -/
theorem test_wellFormed_units :
    (let u : NavUnit := { ch := 0, signal := 0x10, bits := 30, data := [0, 0, 0, 0], passed := true, dt := 0 }
     WellFormed (.navUnitComplete u) = true ∧ WellFormed (.navUnitComplete { u with bits := 31 }) = false ∧
      WellFormed (.navUnitComplete { u with data := [0, 0, 0] }) = false) ∧
    WellFormed (.agcCheck 0 #v[0, 1, 0, 0]) = true ∧ WellFormed (.agcCheck 0 #v[0, 0, 0, 0]) = false := by decide

/-- A capture fills the snapshot buffer at most (R471). -/
theorem test_wellFormed_capture (l : List (BitVec 4)) (h : 1024000 < l.length) : WellFormed (.snapCaptureEnd l [] 0) = false := by
  simp [WellFormed, Nat.not_le.2 h]

/-- D0 is never off, so it does not return (R496). -/
theorem test_wellFormed_wake :
    WellFormed (.wake 0 2) = true ∧ WellFormed (.wake 0 1) = false ∧ WellFormed (.coreBrownoutLowPower 0 1) = false := by decide

/-! ## Values the spec works out -/

/-- The CRC of "123456789" (R59). -/
theorem test_crc16 : crc16 [0x31, 0x32, 0x33, 0x34, 0x35, 0x36, 0x37, 0x38, 0x39] = 0x29B1 := by decide +kernel

/-- Of bibs 0xFFFF_FFF0 and 0x10 the first comes first (01, after R30). -/
theorem test_bib_order : bibFrom 0xFFFFFFF0 0x10 = true ∧ bibFrom 0x10 0xFFFFFFF0 = false := by decide

/-- 20 ms as a complement pair (01, after R42). -/
theorem test_pair : mkPair 0x14 = (0x14, 0xFFFFFFEB) := by decide

/-- The default layout places Q2 at 0x0002_F000 and Q6 at 0x0003_1800 (02, worked example). -/
theorem test_layout :
    ((layout State.reset.dev).bind fun bs => (bs.find? fun e => e.1 = 2).map (·.2)) = some 0x2F000 ∧
    ((layout State.reset.dev).bind fun bs => (bs.find? fun e => e.1 = 6).map (·.2)) = some 0x31800 := by decide +kernel

/-- The host's write of the doorbell of Q2, and its burst to 0xBC70 (02, worked example). -/
theorem test_host_writes :
    (writeBytes 0x114 [8]).take 7 = [0x80, 0x01, 0x14, 0, 0, 0, 8] ∧
    (writeBytes 0xBC70 (List.replicate 16 0)).take 3 = [0xCF, 0xBC, 0x70] := by decide +kernel

/-- 114.768 ohm of a Pt100 is 38.000 °C, and its word with status OK and SEQ 4 (04, worked example). -/
theorem test_pt100 : ptTemp 100 (114768 / 1000) = 38000 ∧ resultWord 38000 sOk 4 = 0x00947004 := by decide +kernel

/-- 20 S/s with sinc4 and the 50 Hz notch settles in 260 ms (R145). -/
theorem test_settling : afeSettleUs (param kAfeRate 0 1 (param kAfeFilter 0 4 (param kAfeNotch 0 50 State.reset))).dev 0 = 260000 := by
  decide +kernel

/-- The plenum loop weighs 474 and takes 512 bytes (08, worked example). -/
theorem test_loop_weight :
    let b : List Byte := padTo 256 [1, 3, 1, 1, 1, 1, 1, 1, 2, 3]
    macCount b = 9 ∧ coefCount b = 10 ∧ weight b = 474 ∧ instBytes b = 512 := by decide +kernel

/-! ## Single steps -/

/-- The command in front runs and the rest waits. -/
theorem test_step_takes_the_front :
    step { running with pending := [.vfldHigh 0, .hostSilence] } = .next { running with pending := [.hostSilence] } := rfl

/-- VFLD of 33.001 V raises one event at port 6 and marks the condition (R483). -/
theorem test_vfld_high :
    (match exec (.vfldHigh 33001) running with
     | .next t => t.dev.pwr.vfldHigh && (t.dev.gate.ports.get 6).length == 1
     | _ => false) = true := by decide +kernel

/-- The Start Gate gives the first item bib 1 (R40). -/
theorem test_first_bib :
    (match exec (.vfldHigh 33001) State.reset with
     | .next t => (match exec .startGateAdmit t with
       | .next u => u.dev.gate.bib == 1 && (u.dev.gate.ports.get 6).isEmpty
       | _ => false)
     | _ => false) = true := by decide +kernel

/-- A TICK edge counts one tick and 1 ms (R24). -/
theorem test_tick :
    (match exec .tickEdge running with
     | .next t => t.dev.time.tick == 1 && t.dev.time.dtFs == 1000000000000
     | _ => false) = true := by decide +kernel

/-- The reset write clears the tags and says why (R490, R66). -/
theorem test_reset_cause :
    (match exec (.hstBootCtrlReset 0x7C190001) (holding (cmdOf 0x0001 0 []) running) with
     | .next t => t.dev.host.cause == 6 && t.dev.cmd.live.isEmpty
     | _ => false) = true := by decide +kernel

/-! ## Hypotheses of the statements -/

theorem witness_StepRunsFrontOrIdles :
    (∃ s : State, s.pending = .hostSilence :: [.tickEdge]) ∧ ∃ s : State, s.pending = [] :=
  ⟨⟨{ running with pending := [.hostSilence, .tickEdge] }, rfl⟩, State.reset, rfl⟩

theorem witness_MemoryStaysCanonical :
    MemOk { running with pending := [.hostSilence] } ∧ step { running with pending := [.hostSilence] } = .next running :=
  ⟨⟨by decide, by decide⟩, rfl⟩

theorem witness_EveryCommandCompletes : touchesMemory .hostSilence = false := rfl

theorem witness_RingWritesFrame :
    (ringOf running.dev 8).en = false ∧
    ((ringOf (ring 8 (fun r => { r with en := true, tail := 1024 }) running).dev 8).en = true ∧
      (ringOf (ring 8 (fun r => { r with en := true, tail := 1024 }) running).dev 8).free = 0) ∧
    (ringOf (ring 17 (fun r => { r with en := true, head := 65535, tail := 65535 }) running).dev 17).en = true ∧
      (ringOf (ring 17 (fun r => { r with en := true, head := 65535, tail := 65535 }) running).dev 17).free ≠ 0 := by decide

theorem witness_CommandRowsNeedTheirCommand :
    commandRow (.nop (.host 255)) = some (.host 255, 0x0001) ∧ ∀ c, ¬ Ready running (.host 255) 0x0001 c :=
  ⟨rfl, fun c h => absurd h.2.2 (by decide)⟩

theorem witness_HostWritesAreApplied :
    running.dev.host.hrdy = true ∧ 0x12 < 65536 ∧ [0xFFFFFFFF] ≠ ([] : List Nat) ∧ [0xFFFFFFFF].length ≤ 64 ∧
      (∀ v ∈ [0xFFFFFFFF], v < 2 ^ 32) ∧ inRow 0x12 [0xFFFFFFFF].length = true ∧
      resetsDevice (writeBytes 0x12 [0xFFFFFFFF]) running.dev = false ∧
      0x7C190002 / 65536 = 0x7C19 ∧ bitOf 0x7C190002 1 = true := by decide +kernel

theorem witness_DoorbellMovesTheIndex :
    (hostProduced 0 = true ∧ ((ringOf running.dev 0).tail + 65536 - (ringOf running.dev 0).back 0) % 65536 ≤
        (16 % 65536 + 65536 - (ringOf running.dev 0).back 0) % 65536 ∧
      (16 % 65536 + 65536 - (ringOf running.dev 0).back 0) % 65536 ≤ (ringOf running.dev 0).size) ∧
    (hostProduced 17 = false ∧
      (0 % 65536 + 65536 - (ringOf running.dev 17).head) % 65536 ≤ (ringOf running.dev 17).count) ∧
    (¬((ringOf running.dev 0).tail + 65536 - (ringOf running.dev 0).back 0) % 65536 ≤
        (17 % 65536 + 65536 - (ringOf running.dev 0).back 0) % 65536 ∨
      ¬(17 % 65536 + 65536 - (ringOf running.dev 0).back 0) % 65536 ≤ (ringOf running.dev 0).size) ∧
    ¬(1 % 65536 + 65536 - (ringOf running.dev 17).head) % 65536 ≤ (ringOf running.dev 17).count := by decide

theorem witness_HostResetResetsTheDevice :
    running.dev.host.hrdy = true ∧ (0x7C190001 : Word).toNat / 65536 = 0x7C19 ∧ bitOf (0x7C190001 : Word).toNat 0 = true := by
  decide

theorem witness_BadCrcWritesNothing :
    let mosi : List Byte := [0x80, 0, 0x12, 0, 0, 0, 1, 0, 0]
    running.dev.host.hrdy = true ∧ mosi = 0x80 :: [0, 0x12, 0, 0, 0, 1, 0, 0] ∧ 128 ≤ (0x80 : Byte).toNat ∧
      ((0x80 : Byte).toNat / 64 % 2 = 0 → (0x80 : Byte).toNat % 64 = 0) ∧
      mosi.length = 5 + 4 * ((0x80 : Byte).toNat % 64 + 1) ∧
      crc16 (mosi.take (3 + 4 * ((0x80 : Byte).toNat % 64 + 1))) ≠ deBig (mosi.drop (3 + 4 * ((0x80 : Byte).toNat % 64 + 1))) := by
  decide +kernel

theorem witness_HostReadsReturnTheirWord :
    running.dev.host.hrdy = true ∧ 8 < 65536 ∧ (windowRead { running with dev := healthCheck running.dev } 8 8).2 = true ∧
      windowBad (healthCheck running.dev) 8 = false := by decide

theorem witness_ReadAndInfoCommands :
    (∃ ch : Fin 32, Meets 0x1201 31 [] running fun _ c => targetN c = ch) ∧ Meets 0x1201 32 [] running (fun _ c => 32 ≤ targetN c) ∧
    (∃ n : Fin 4, Meets 0x1301 3 [] running fun _ c => targetN c = n) ∧ Meets 0x1301 4 [] running (fun _ c => 4 ≤ targetN c) ∧
    (∃ n : Fin 64, Meets 0x1101 63 [] running fun _ c => targetN c = n) ∧ Meets 0x1101 64 [] running (fun _ c => 64 ≤ targetN c) ∧
    (∃ b : Fin 8, Meets 0x1104 7 [] running fun _ c => targetN c = b) ∧ Meets 0x1104 8 [] running (fun _ c => 8 ≤ targetN c) ∧
    Meets 0x1402 15 [] running (fun s c => targetN c = (15 : Fin 16) ∧ claimed s.dev (64 + (15 : Fin 16)) = false ∧
      vlvSlave s.dev (15 : Fin 16) = false) ∧
    Meets 0x1402 15 [] (svc (fun v => { v with claims := 2 ^ 79 }) running) (fun s c => targetN c = (15 : Fin 16) ∧
      claimed s.dev (64 + (15 : Fin 16)) = true) ∧
    Meets 0x1402 15 [] (param kVlvMode 14 4 running) (fun s c => targetN c = (15 : Fin 16) ∧
      claimed s.dev (64 + (15 : Fin 16)) = false ∧ vlvSlave s.dev (15 : Fin 16) = true) ∧
    Meets 0x1402 16 [] running (fun _ c => 16 ≤ targetN c) ∧
    Meets 0x1507 63 [] running (fun s c => targetN c = (63 : Fin 64) ∧ (ctlInst s.dev 63).base = .free) ∧
    Meets 0x1507 63 [] (loop 63 .run running) (fun s c => targetN c = (63 : Fin 64) ∧ (ctlInst s.dev 63).base ≠ .free) ∧
    Meets 0x1507 64 [] running (fun _ c => 64 ≤ targetN c) ∧
    (∃ ch : Fin 2, Meets 0x1702 1 [] running fun _ c => c.target % 256 = ch) ∧
    Meets 0x1702 2 [] running (fun _ c => 2 ≤ c.target % 256) ∧
    Meets 0x1706 95 [] running (fun _ c => c.target % 256 < 96) ∧ Meets 0x1706 96 [] running (fun _ c => 96 ≤ c.target % 256) ∧
    Meets 0x1801 0 [] running (fun _ _ => True) ∧
    (∃ n : Fin 32, Meets 0x1806 0 [31] running fun _ c => byteAt c.payload 0 = n) ∧
    Meets 0x1806 0 [32] running (fun _ c => 32 ≤ byteAt c.payload 0) ∧
    Meets 0x1903 0 [] running (fun _ _ => True) ∧ Meets 0x1A01 0 [] running (fun _ _ => True) :=
  ⟨⟨31, meets rfl⟩, meets (by decide), ⟨3, meets rfl⟩, meets (by decide), ⟨63, meets rfl⟩, meets (by decide), ⟨7, meets rfl⟩,
    meets (by decide), meets (by decide), meets (by decide), meets (by decide), meets (by decide), meets (by decide),
    meets (by decide), meets (by decide), ⟨1, meets rfl⟩, meets (by decide), meets (by decide), meets (by decide), meets trivial,
    ⟨31, meets rfl⟩,
    meets (by decide), meets trivial, meets trivial⟩

theorem witness_IdReadAndInformation :
    Meets 0x1B02 0 [0] running (fun _ c => byteAt c.payload 0 = 0) ∧ Meets 0x1B02 0 [1] running (fun _ c => byteAt c.payload 0 = 1) ∧
    Meets 0x1B02 0 [2] running (fun _ c => byteAt c.payload 0 = 2) ∧ Meets 0x1B02 0 [4] running (fun _ c => byteAt c.payload 0 = 4) ∧
    Meets 0x1B02 0 [5] running (fun _ c => 4 < byteAt c.payload 0) ∧
    Meets 0x0001 0 [] running (fun _ _ => True) ∧ Meets 0x0002 0 [] running (fun _ _ => True) ∧
    Meets 0x0304 0 [1] running (fun _ c => byteAt c.payload 0 ≤ 1) ∧ Meets 0x0304 0 [2] running (fun _ c => 1 < byteAt c.payload 0) ∧
    (∃ p, Meets 0x0104 (addrOf kFioMode 63) [] running fun _ c => findDef (targetAddr c) = some p) ∧
    Meets 0x0104 (addrOf kFioMode 64) [] running (fun _ c => findDef (targetAddr c) = none) :=
  ⟨meets rfl, meets rfl, meets rfl, meets rfl, meets (by decide), meets trivial, meets trivial, meets (by decide),
    meets (by decide), ⟨_, meets rfl⟩, meets (by decide)⟩

theorem witness_RunStopSafeRelease :
    Meets 0x0010 0 [] running (fun s _ => s.dev.pwr.fieldUp = true) ∧
    Meets 0x0010 0 [] State.reset (fun s _ => s.dev.pwr.fieldUp = false) ∧
    Meets 0x0011 0 [] running (fun s _ => s.dev.pwr.fieldUp = true) ∧
    Meets 0x0011 0 [] State.reset (fun s _ => s.dev.pwr.fieldUp = false) ∧
    Meets 0x0012 0xFFFFFF [] running (fun _ c => targetScope c.target = some { scope := 0, object := 0 }) ∧
    Meets 0x0012 0x10003F [] running (fun _ c => targetScope c.target = some { scope := 2, object := 63 }) ∧
    Meets 0x0012 0x100040 [] running (fun _ c => targetScope c.target = none) ∧
    Meets 0x1606 0x40000F [] running (fun s c => targetScope c.target = some { scope := 2, object := 79 } ∧
      s.dev.lift.up.inLock = true ∧ s.dev.pwr.fStep < 4 ∧ s.dev.hlt.demand = false) ∧
    Meets 0x1606 0x40000F [] (pwr (fun p => { p with fStep := 4 }) running) (fun s c =>
      targetScope c.target = some { scope := 2, object := 79 } ∧
      (s.dev.lift.up.inLock = false ∨ 4 ≤ s.dev.pwr.fStep ∨ s.dev.hlt.demand = true)) ∧
    Meets 0x1606 0x400010 [] running (fun _ c => targetScope c.target = none) ∧
    Meets 0x0013 0 [0x19, 0x7C, 0, 0] running (fun _ c => field c.payload 0 4 = 0x7C19) ∧
    Meets 0x0013 0 [0x19, 0x7C, 0, 1] running (fun _ c => field c.payload 0 4 ≠ 0x7C19) :=
  ⟨meets rfl, meets rfl, meets rfl, meets rfl, meets (by decide), meets (by decide), meets (by decide), meets (by decide),
    meets (by decide), meets (by decide), meets (by decide), meets (by decide)⟩

/-- A batch with identifier 7 that holds nothing. -/
def batch7 : Batch := { id := 7, writes := [], failed := false, commit := none }

/-- A command with FLAGS [0] set, in batch 7. -/
def batched (op target : Nat) (p : List Byte) : Cmd := { cmdOf op target p with flags := 1, batchId := 7 }

theorem ready_batched (op target : Nat) (p : List Byte) (s : State) :
    Ready (holding (batched op target p) s) (.host 5) op (batched op target p) := by
  refine ⟨?_, rfl, ?_⟩ <;> simp [holding, onDev, liveCmd, batched, cmdOf, startable]

theorem witness_UndefinedAddressIsRefused :
    13 ≤ 0xD00000 / 2 ^ 20 ∧ findDef (targetAddr (cmdOf 0x0101 (addrOf kFioMode 64) [])) = none ∧
    (∃ s c, Ready s (.host 5) 0x0101 c ∧ c.flags % 2 = 0 ∧ findDef (targetAddr c) = none) ∧
    (∃ s c b, Ready s (.host 5) 0x0101 c ∧ batchOf s.dev c.batchId = some b ∧ c.flags % 2 = 1 ∧ findDef (targetAddr c) = none) ∧
    (∃ s c, Ready s (.host 5) 0x0101 c ∧ batchOf s.dev c.batchId = none ∧ c.flags % 2 = 1 ∧ findDef (targetAddr c) = none) ∧
    (∃ s c, Ready s (.host 5) 0x0100 c ∧ findDef (targetAddr c) = none) ∧
    (∃ s c, Ready s (.host 5) 0x0104 c ∧ findDef (targetAddr c) = none) ∧
    (∃ s c, Ready s (.host 5) 0x0103 c ∧ findDef (targetAddr c) = none) ∧
    ∃ s c, Ready s (.host 5) 0x0102 c ∧ c.flags % 2 = 0 ∧ findDef (targetAddr c) = none :=
  ⟨by decide, by decide, ⟨_, _, ready_holding 0x0101 (addrOf kFioMode 64) [] running, by decide, by decide⟩,
    ⟨_, _, batch7, ready_batched 0x0101 (addrOf kFioMode 64) [] (cmds (fun c => { c with batches := [batch7] }) running),
      by decide, by decide, by decide⟩,
    ⟨_, _, ready_batched 0x0101 (addrOf kFioMode 64) [] running, by decide, by decide, by decide⟩,
    ⟨_, _, ready_holding 0x0100 0xD00000 [] running, by decide⟩, ⟨_, _, ready_holding 0x0104 0xFFFFFF [] running, by decide⟩,
    ⟨_, _, ready_holding 0x0103 (addrOf kFioMode 64) [] running, by decide⟩,
    ⟨_, _, ready_holding 0x0102 (addrOf kFioMode 64) [] running, by decide, by decide⟩⟩

theorem witness_ParameterReads :
    (∃ p, Meets 0x0100 (addrOf kFioOutEn 7) [] running fun _ c => findDef (targetAddr c) = some p ∧ p.cls = .paired) ∧
    (∃ p, Meets 0x0100 (addrOf kFioFiltN 63) [] running fun _ c => findDef (targetAddr c) = some p ∧ p.cls ≠ .paired ∧
      p.cls ≠ .read ∧ p.ty.isBlob = false ∧ isCoefSet (targetAddr c) = false) ∧
    (∃ p, Meets 0x0100 (addrOf kHltPlan 0) [] running fun _ c => findDef (targetAddr c) = some p ∧ p.cls = .read) :=
  ⟨⟨_, meets ⟨rfl, by decide⟩⟩, ⟨_, meets ⟨rfl, by decide⟩⟩, _, meets ⟨rfl, by decide⟩⟩

theorem witness_ParameterWrites :
    (∃ r, Meets 0x0101 (addrOf kFioFiltN 0) (le 4 0) running fun s c => c.flags % 2 = 0 ∧
      writeCheck s.dev 0x0101 (targetAddr c) (wordsOf 1 c.payload) = some r) ∧
    (∃ p b left, Meets 0x0101 (addrOf kFioFiltN 63) (le 4 255) running fun s c => c.flags % 2 = 0 ∧
      writeCheck s.dev 0x0101 (targetAddr c) (wordsOf 1 c.payload) = none ∧ findDef (targetAddr c) = some p ∧
      boundaryOf (begin_ c.id s.dev) (targetAddr c) p = some (b, left) ∧ keyOf (targetAddr c) ≠ kSvcRecipe) ∧
    (∃ r, Meets 0x0102 (addrOf kFioOutEn 0) (le 4 256 ++ le 4 0xFFFFFEFF) running fun s c => c.flags % 2 = 0 ∧
      writeCheck s.dev 0x0102 (targetAddr c) (wordsOf (c.length / 4) (c.payload.take c.length)) = some r) ∧
    Meets 0x0102 (addrOf kFioOutEn 0) (le 4 255 ++ le 4 0xFFFFFF00) running (fun s c => c.flags % 2 = 0 ∧
      writeCheck s.dev 0x0102 (targetAddr c) (wordsOf (c.length / 4) (c.payload.take c.length)) = none) ∧
    (∃ s c, Ready s (.host 5) 0x0101 c ∧ batchOf s.dev c.batchId = some batch7 ∧ c.flags % 2 = 1 ∧
      batchCheck s.dev batch7 0x0101 (targetAddr c) (wordsOf 1 c.payload) = none) ∧
    (∃ p, Meets 0x0103 (addrOf kBusFilt 255) (le 2 0 ++ le 2 2 ++ [1, 2]) running fun _ c => findDef (targetAddr c) = some p ∧
      p.ty.isBlob = true ∧ (p.cls = .live ∨ p.cls = .staged) ∧ field c.payload 0 2 = 0 ∧ bitOf c.target 24 = false) ∧
    (∃ p x, Meets 0x0103 (2 ^ 24 + addrOf kBusFilt 0) (le 2 4 ++ le 2 8 ++ le 8 0)
      (cmds (fun c => { c with blobs := [{ addr := addrOf kBusFilt 0, commander := 0, bytes := le 4 0 }] }) running) fun s c =>
      findDef (targetAddr c) = some p ∧ p.ty.isBlob = true ∧ (p.cls = .live ∨ p.cls = .staged) ∧
      (s.dev.cmd.blobs.find? fun a => a.addr = targetAddr c && a.commander = c.commander) = some x ∧
      x.bytes.length = field c.payload 0 2 ∧ field c.payload 0 2 ≠ 0 ∧ bitOf c.target 24 = true ∧
      (x.bytes ++ (c.payload.drop 4).take (field c.payload 2 2)).length = blobSize s.dev (targetAddr c) p ∧ c.flags % 2 = 0 ∧
      writeCheck s.dev c.opcode (targetAddr c) (wordsOf 3 (x.bytes ++ (c.payload.drop 4).take (field c.payload 2 2))) = none) ∧
    (∃ p x, Meets 0x0103 (2 ^ 24 + addrOf kBusFilt 0) (le 2 4 ++ le 2 7 ++ le 7 0)
      (cmds (fun c => { c with blobs := [{ addr := addrOf kBusFilt 0, commander := 0, bytes := le 4 0 }] }) running) fun s c =>
      findDef (targetAddr c) = some p ∧
      (s.dev.cmd.blobs.find? fun a => a.addr = targetAddr c && a.commander = c.commander) = some x ∧
      x.bytes.length = field c.payload 0 2 ∧
      (x.bytes ++ (c.payload.drop 4).take (field c.payload 2 2)).length ≠ blobSize s.dev (targetAddr c) p) :=
  ⟨⟨_, meets ⟨rfl, rfl⟩⟩, ⟨_, _, _, meets ⟨rfl, by decide +kernel, rfl, rfl, by decide⟩⟩, ⟨_, meets ⟨rfl, rfl⟩⟩,
    meets (by decide +kernel),
    ⟨_, _, ready_batched 0x0101 (addrOf kFioFiltN 63) (le 4 255) (cmds (fun c => { c with batches := [batch7] }) running),
      by decide, by decide, by decide +kernel⟩,
    ⟨_, meets ⟨rfl, by decide⟩⟩, ⟨_, _, meets ⟨rfl, by decide, by decide, rfl, by decide +kernel⟩⟩,
    ⟨_, _, meets ⟨rfl, rfl, by decide +kernel⟩⟩⟩

theorem witness_BadPairIsRefused :
    (∃ p, Meets 0x0102 (addrOf kFioOutEn 7) (le 4 1 ++ le 4 0xFFFFFFFF) running fun _ c => c.flags % 2 = 0 ∧
      findDef (targetAddr c) = some p ∧ p.cls = .paired ∧ deviceOnly (targetAddr c) = none ∧
      (pairsOfWords (wordsOf (c.length / 4) (c.payload.take c.length))).length = p.ty.words ∧
      ∃ q ∈ pairsOfWords (wordsOf (c.length / 4) (c.payload.take c.length)), q.1 ^^^ q.2 ≠ 0xFFFFFFFF) ∧
    (∃ p b left, Meets 0x0102 (addrOf kFioOutEn 7) (le 4 1 ++ le 4 0xFFFFFFFE) running fun s c => c.flags % 2 = 0 ∧
      findDef (targetAddr c) = some p ∧ p.cls = .paired ∧ keyOf (targetAddr c) ≠ kSvcRecipe ∧
      writeCheck s.dev 0x0102 (targetAddr c) (wordsOf (c.length / 4) (c.payload.take c.length)) = none ∧
      boundaryOf (begin_ c.id s.dev) (targetAddr c) p = some (b, left)) ∧
    findDef (addrOf kFioOutEn 7) ≠ none ∧ ∀ p, findDef (addrOf kFioOutEn 7) = some p → p.cls = .paired :=
  ⟨⟨_, meets ⟨rfl, rfl, by decide +kernel⟩⟩, ⟨_, _, _, meets ⟨rfl, rfl, by decide, by decide, by decide +kernel, rfl⟩⟩,
    by decide, by rintro p ⟨⟩; rfl⟩

/-- A batch that has failed. -/
def batch9 : Batch := { batch7 with id := 9, failed := true }

theorem witness_Batches :
    let s := cmds (fun c => { c with batches := [batch7, batch9], discarded := [3] }) running
    Meets 0x0110 0 [] (cmds (fun c => { c with batches := [batch7, batch7, batch7, batch7] }) running)
      (fun s _ => 4 ≤ (openBatches s.dev).length) ∧
    Meets 0x0110 0 [] (cmds (fun c => { c with batches := [batch7, batch7, batch7] }) running)
      (fun s _ => (openBatches s.dev).length < 4) ∧
    Meets 0x0111 0 (le 2 7) s (fun s c => batchOf s.dev (field c.payload 0 2) = some batch7 ∧ batchGood s.dev batch7 = true) ∧
    Meets 0x0111 0 (le 2 9) s (fun s c => batchOf s.dev (field c.payload 0 2) = some batch9 ∧ batchGood s.dev batch9 = false) ∧
    Meets 0x0111 0 (le 2 3) s (fun s c => batchOf s.dev (field c.payload 0 2) = none ∧
      s.dev.cmd.discarded.contains (field c.payload 0 2) = true) ∧
    Meets 0x0111 0 (le 2 4) s (fun s c => batchOf s.dev (field c.payload 0 2) = none ∧
      s.dev.cmd.discarded.contains (field c.payload 0 2) = false) ∧
    Meets 0x0112 0 (le 2 7) s (fun s c => batchOf s.dev (field c.payload 0 2) = some batch7) ∧
    Meets 0x0112 0 (le 2 3) s (fun s c => batchOf s.dev (field c.payload 0 2) = none) ∧
    batchOf s.dev (7 : BitVec 16).toNat = some batch7 := by
  and_intros <;> first | decide | exact meets (by decide)

/-- A command of tag 6 that has come so far, with a time limit. -/
def other (ph : CmdPhase) : Cmd := { cmdOf 0x1901 0 [] with id := .host 6, phase := ph, timeout := 10 }

/-- CMD_ABORT for tag 6, beside tag 6 itself. -/
def aborting (ph : CmdPhase) : State :=
  cmds (fun c => { c with live := [other ph, cmdOf 0x0200 0 [6]] }) running

theorem ready_aborting (ph : CmdPhase) (h : ph ≠ .taken) :
    Ready (aborting ph) (.host 5) 0x0200 (cmdOf 0x0200 0 [6]) := by
  cases ph <;> first | exact absurd rfl h | exact ⟨by decide, rfl, by decide⟩

theorem witness_AbortsAndTimeouts :
    (Ready (aborting .waiting) (.host 5) 0x0200 (cmdOf 0x0200 0 [6]) ∧
      (cmdOf 0x0200 0 [6]).id ≠ .host ((cmdOf 0x0200 0 [6]).payload.headD 0) ∧
      liveCmd (aborting .waiting).dev (.host ((cmdOf 0x0200 0 [6]).payload.headD 0)) = some (other .waiting) ∧
      ((other .waiting).phase = .taken ∨ (other .waiting).phase = .waiting)) ∧
    (Ready (aborting .begun) (.host 5) 0x0200 (cmdOf 0x0200 0 [6]) ∧
      ∀ y, liveCmd (aborting .begun).dev (.host ((cmdOf 0x0200 0 [6]).payload.headD 0)) = some y →
        y.phase = .begun ∨ y.phase = .done) ∧
    Meets 0x0200 0 [5] running (fun _ c => c.id = .host (c.payload.headD 0)) ∧
    (liveCmd (aborting .waiting).dev (.host 6) = some (other .waiting) ∧ (other .waiting).timeout ≠ 0 ∧
      ((other .waiting).phase = .taken ∨ (other .waiting).phase = .waiting)) ∧
    ∀ y, liveCmd (aborting .done).dev (.host 6) = some y → y.timeout = 0 ∨ y.phase = .begun ∨ y.phase = .done := by
  refine ⟨⟨ready_aborting _ (by decide), by decide, by decide, by decide⟩, ⟨ready_aborting _ (by decide), ?_⟩,
    meets rfl, by decide, ?_⟩
  · rintro y h
    rw [show y = other .begun from (Option.some.inj h).symm]
    exact .inl rfl
  · rintro y h
    rw [show y = other .done from (Option.some.inj h).symm]
    exact .inr (.inr rfl)

/-- A configuration image slot that holds these records, closed and sealed. -/
def image (count : Nat) (body : List Byte) : ImgSlot :=
  let bs := le 4 0x3A9640C1 ++ le 2 1 ++ le 2 0 ++ le 4 (32 + body.length) ++ le 4 1 ++ le 8 0 ++ le 4 count ++ le 4 0 ++ body
  { bytes := bs.take 28 ++ le 4 (imgCrc bs) ++ body, opened := none, closed := true, header := bs.take 32 }

/-- Slot 1 is open for 64 bytes, and slot 0 holds a record that writes FIO_MODE of pin 0. -/
def imaged : State :=
  cmds (fun c => { c with slots := #v[image 1 (le 4 (2 ^ 24 + addrOf kFioMode 0) ++ le 4 4),
    { image 0 [] with bytes := List.replicate 64 0xFF, opened := some 64, closed := false }] }) running

/-- The inactive code-flash bank is open for this many bytes. -/
def fwOpened (n : Nat) : State :=
  cmds (fun c => { c with fw := { opened := some n, bytes := [], checked := true, nextBank := false } }) running

theorem witness_ImageAndFirmwareCommands :
    (∀ op ∈ [0x0300, 0x0301, 0x0302, 0x0305, 0x0310, 0x0311, 0x0312, 0x0313],
      Meets op 0 [] flashBusy (fun s _ => ¬ Free s)) ∧
    Meets 0x0300 0 (le 4 1 ++ le 4 131072) running (fun s c => Free s ∧ byteAt c.payload 0 ≤ 1 ∧ 32 ≤ field c.payload 4 4 ∧
      field c.payload 4 4 ≤ 131072) ∧
    Meets 0x0300 0 (le 4 1 ++ le 4 31) running (fun s c => Free s ∧ 1 < byteAt c.payload 0 ∨ field c.payload 4 4 < 32 ∨
      131072 < field c.payload 4 4) ∧
    Meets 0x0301 0 (le 4 0 ++ [1]) running (fun s _ => Free s ∧ openSlot s.dev = none) ∧
    Meets 0x0301 0 (le 4 64 ++ [1]) imaged (fun s c => Free s ∧ openSlot s.dev = some (1, 64) ∧
      64 < field c.payload 0 4 + ((c.payload.drop 4).take (c.length - 4)).length) ∧
    Meets 0x0301 0 (le 4 63 ++ [1]) imaged (fun s c => Free s ∧ openSlot s.dev = some (1, 64) ∧
      field c.payload 0 4 + ((c.payload.drop 4).take (c.length - 4)).length ≤ 64) ∧
    Meets 0x0302 0 (le 4 0) running (fun s _ => Free s ∧ openSlot s.dev = none) ∧
    Meets 0x0302 0 (le 4 0) imaged (fun s c => Free s ∧ openSlot s.dev = some (1, 64) ∧
      imgCrc (slotOf s.dev 1).bytes ≠ field c.payload 0 4) ∧
    Meets 0x0302 0 (le 4 (imgCrc (List.replicate 64 0xFF))) imaged (fun s c => Free s ∧ openSlot s.dev = some (1, 64) ∧
      imgCrc (slotOf s.dev 1).bytes = field c.payload 0 4) ∧
    Meets 0x0303 0 [2] imaged (fun _ c => 1 < byteAt c.payload 0) ∧
    Meets 0x0303 0 [1] imaged (fun s c => byteAt c.payload 0 ≤ 1 ∧ imageRecords s.dev (byteAt c.payload 0) = none) ∧
    (let rs := [(addrOf kFioMode 0, [w32 4])]
     Meets 0x0303 0 [0] imaged (fun s c => byteAt c.payload 0 ≤ 1 ∧ imageRecords s.dev (byteAt c.payload 0) = some rs ∧
       ∀ r ∈ rs, recordBusy s.dev r.1 = false)) ∧
    (let rs := [(addrOf kFioMode 0, [w32 4])]
     Meets 0x0303 0 [0] (paired_ kFioOutEn 0 1 imaged) (fun s c => byteAt c.payload 0 ≤ 1 ∧
       imageRecords s.dev (byteAt c.payload 0) = some rs ∧ ∃ r ∈ rs, recordBusy s.dev r.1 = true)) ∧
    Meets 0x0305 0 [2] imaged (fun s c => Free s ∧ 1 < byteAt c.payload 0) ∧
    Meets 0x0305 0 [1] imaged (fun s c => Free s ∧ byteAt c.payload 0 ≤ 1) ∧
    Meets 0x0310 0 (le 4 (2 ^ 21 + 1)) running (fun s c => Free s ∧ field c.payload 0 4 = 0 ∨ 2 ^ 21 < field c.payload 0 4) ∧
    Meets 0x0310 0 (le 4 (2 ^ 21)) running (fun s c => Free s ∧ field c.payload 0 4 ≠ 0 ∧ field c.payload 0 4 ≤ 2 ^ 21) ∧
    Meets 0x0311 0 (le 4 0) running (fun s _ => Free s ∧ s.dev.cmd.fw.opened = none) ∧
    Meets 0x0311 0 (le 4 64 ++ [1]) (fwOpened 64) (fun s c => Free s ∧ s.dev.cmd.fw.opened = some 64 ∧
      64 < field c.payload 0 4 + ((c.payload.drop 4).take (c.length - 4)).length) ∧
    Meets 0x0311 0 (le 4 63 ++ [1]) (fwOpened 64) (fun s c => Free s ∧ s.dev.cmd.fw.opened = some 64 ∧
      field c.payload 0 4 + ((c.payload.drop 4).take (c.length - 4)).length ≤ 64) ∧
    Meets 0x0312 0 [] running (fun s _ => Free s ∧ s.dev.cmd.fw.opened = none) ∧
    Meets 0x0312 0 [] (fwOpened 64) (fun s _ => Free s ∧ s.dev.cmd.fw.opened = some 64) ∧
    Meets 0x0313 0 [] running (fun s _ => Free s ∧ s.dev.cmd.fw.checked = false) ∧
    Meets 0x0313 0 [] (fwOpened 64) (fun s _ => Free s ∧ s.dev.cmd.fw.checked = true) := by
  refine ⟨fun op _ => meets (fun h => List.cons_ne_nil _ _ h.1), ?_⟩
  and_intros <;> exact meets (by decide +kernel)

theorem witness_ReplayCommands :
    Meets 0x1A03 0 [] flashBusy (fun s _ => ¬ Free s) ∧ Meets 0x1B04 0 [] flashBusy (fun s _ => ¬ Free s) ∧
    Meets 0x0400 0 [] running (fun _ _ => True) ∧ Meets 0x1A03 0 [2] running (fun s c => Free s ∧ 1 < byteAt c.payload 0) ∧
    Meets 0x1A03 0 [1] running (fun s c => Free s ∧ byteAt c.payload 0 ≤ 1) ∧
    Meets 0x1B04 0 (le 4 0 ++ le 4 1801) running (fun s c => Free s ∧ field c.payload 4 4 = 0 ∨ 1800 < field c.payload 4 4) ∧
    Meets 0x1B04 0 (le 4 0 ++ le 4 1800) running (fun s c => Free s ∧ field c.payload 4 4 ≠ 0 ∧ field c.payload 4 4 ≤ 1800) := by
  and_intros <;> exact meets (by decide)

theorem witness_SilenceAndQueueAge :
    let s := running |> param kHstSilenceMs 0 10 |> param kHstRmbSilenceMs 0 10 |>
      hst (fun h => { h with heard := true, rmbHeard := [15] }) |>
      ring 8 (fun r => { r with en := true, irqCount := 1, irqTime := 1, tail := 1 })
    (pget s.dev kHstSilenceMs 0 ≠ 0 ∧ s.dev.host.heard = true ∧ s.dev.host.silent = false ∧ domOn s.dev 6 = true) ∧
    pget running.dev kHstSilenceMs 0 = 0 ∧
    (pget s.dev kHstRmbSilenceMs 0 ≠ 0 ∧ (8 * (1 : Fin 2).val + (7 : Fin 8).val) ∈ s.dev.host.rmbHeard ∧
      (8 * (1 : Fin 2).val + (7 : Fin 8).val) ∉ s.dev.host.rmbSilent) ∧
    pget running.dev kHstRmbSilenceMs 0 = 0 ∧
    ((ringOf s.dev 8).en = true ∧ hostProduced 8 = false ∧ (ringOf s.dev 8).irqCount ≠ 0 ∧ (ringOf s.dev 8).irqTime ≠ 0 ∧
      (ringOf s.dev 8).count ≠ 0) ∧
    (ringOf running.dev 8).en = false ∧
    (let t := hst (fun h => { h with intStatus := 2 ^ 8 }) s
     t.dev.host.intStatus.getLsbD 8 = true ∧ irqCond 8 (ringOf t.dev 8) = true) := by decide

/-- An event, and a completion of tag 5, waiting at the Start Gate. -/
def someEvent : EvRec := { code := 0x1001, path := 0, dt := 0, time := 0, data := [] }
def someCompletion : Completion := compOf (cmdOf 0x0001 0 []) stOk 0 false []
def gated (g : GateItem) : State :=
  holding (cmdOf 0x0001 0 []) running |>
    onDev fun d => { d with gate := { d.gate with ports := vMod d.gate.ports 7 fun _ => [g] } }

theorem witness_AdmissionOrderAndBibs :
    nextItem running.dev = none ∧ nextItem (gated (.ev someEvent)).dev = some (7, .ev someEvent) := by decide

theorem witness_AdmittedEventsArePublished :
    let d := (ring 8 (fun r => { r with en := true }) running).dev
    let e := (param kHstEvtMask 0 0 (ring 8 (fun r => { r with en := true }) running)).dev
    let f := (ring 8 (fun r => { r with en := true, tail := 1024 }) running).dev
    (nextItem (gated (.ev someEvent)).dev = some (7, .ev someEvent) ∧ someEvent.code ≠ 0xC003) ∧
    (nextItem (gated (.comp someCompletion)).dev = some (7, .comp someCompletion) ∧ someCompletion.id = .host 5 ∧
      someCompletion.opcode ≠ 0x0013 ∧ compCmd (gated (.comp someCompletion)).dev someCompletion = some (cmdOf 0x0001 0 [])) ∧
    (ringOf running.dev 8).en = false ∧ bitOf (pget e kHstEvtMask 0) (0x1001 / 0x1000) = false ∧
    ((ringOf f 8).en = true ∧ bitOf (pget f kHstEvtMask 0) (0x1001 / 0x1000) = true ∧ (ringOf f 8).free = 0) ∧
    ((ringOf d 8).en = true ∧ bitOf (pget d kHstEvtMask 0) (0x1001 / 0x1000) = true ∧ (ringOf d 8).free ≠ 0 ∧
      d.gate.loss = none) := by decide

theorem witness_TickEdgeAndLevels :
    let s := hlt (fun h => { h with pl3 := true }) (param kPwrPlReq 0 2 running)
    State.reset.dev.time.running = false ∧ running.dev.time.running = true ∧
    (s.dev.host.limp = false ∧ domOn s.dev 1 = true ∧ s.dev.pwr.level < levelWanted s.dev ∧ s.dev.pwr.raiseTo = none) ∧
    levelWanted s.dev < (pwr (fun p => { p with level := 3 }) s).dev.pwr.level ∧
    (pwr (fun p => { p with raiseTo := some 2 }) s).dev.pwr.raiseTo = some (levelWanted s.dev) ∧
    (running.dev.lift.closed = none ∧ running.dev.time.running = true ∧ running.dev.host.limp = false) ∧
    (lft (fun l => { l with closed := some { tick := 1, mask := 0, epoch := 0, vals := SlotVal.idles } }) running).dev.lift.closed
      ≠ none := by decide

/-- A tick set that holds one value of every bank and channel. -/
def oneSet (mask epoch : Nat) : TickSet := { tick := 4, mask := mask, epoch := epoch, vals := SlotVal.idles }

/-- A demand for every object waits for its SAFE frame, or a request for its RELEASE. -/
def safeWaits : State := lft (fun l => { l with safePend := [{ sc := { scope := 0, object := 0 }, cause := 1, cmd := none }] }) running
def relWaits : State := lft (fun l => { l with relPend := [{ sc := { scope := 1, object := 7 }, cmd := none }] }) running
def applyWaits (copies : Nat) : State := lft (fun l => { l with applyLeft := copies }) running

theorem witness_DownlinkFrames :
    (∀ slot : Fin 64, downOn running.dev = true ∧ DownUsed (.rot slot) 1 running.dev ∧ DownUsed (.rot slot) 4096 running.dev) ∧
    ((applyWaits 2).dev.lift.applyLeft = (if false then 1 else 2) ∧ DownUsed .apply 1 (applyWaits 2).dev) ∧
    ((applyWaits 1).dev.lift.applyLeft = (if true then 1 else 2) ∧ DownUsed .apply 1 (applyWaits 1).dev) ∧
    running.dev.lift.applyLeft ≠ (if true then 1 else 2) ∧ running.dev.lift.applyLeft ≠ (if false then 1 else 2) ∧
    DownUsed .safe 1 safeWaits.dev ∧ DownUsed .release 1 relWaits.dev ∧ downIs .safe running.dev = false ∧
    downIs .release running.dev = false ∧
    (∃ ds f, (sentSet running.dev).vals.get ⟨(0 : Fin 64).val, by decide⟩ = .bank ds f) ∧
    (∃ x, pairSent (paired_ kSysLiftSilenceMs 0 20 running).dev (addrOf kSysLiftSilenceMs 0) = some x) ∧
    (domState (pwr (fun p => { p with dom := p.dom.set 7 1 }) running).dev 7 = 1 ∧ running.dev.pwr.pll = true ∧
      running.dev.pwr.fieldPow = true) ∧
    (lft (fun l => { l with down := .keepalive }) running).dev.lift.down = .keepalive :=
  ⟨fun _ => ⟨by decide, ⟨by decide, rfl, by decide, 7, by decide⟩, ⟨by decide, rfl, by decide, 7, by decide⟩⟩,
    ⟨by decide, by decide, by decide, by decide, 7, by decide⟩, ⟨by decide, by decide, by decide, by decide, 7, by decide⟩,
    by decide, by decide, ⟨by decide, by decide, by decide, 7, by decide⟩, ⟨by decide, by decide, by decide, 7, by decide⟩,
    by decide, by decide, ⟨_, _, rfl⟩, ⟨_, rfl⟩, by decide, by decide⟩

theorem witness_ApplyLatchesAllOrNothing :
    let s := lft (fun l => { l with apply := some (oneSet 0x800001 1) }) running
    let u := lft (fun l => { l with pairs := [(addrOf kHltEpoch 0, { act := mkPair 1, shad := mkPair 1, gen := 0, pend := none })] }) s
    let t := lft (fun l => { l with copies := l.copies.map fun x => x.set 0 (some { val := SlotVal.idle 0, epoch := 1 }) }) u
    let at_ (s : State) := enablesLost (adoptPairs (liftMod (fun l => { l with fTick := 4 }) s.dev))
    (s.dev.lift.apply = some (oneSet 0x800001 1) ∧ (oneSet 0x800001 1).epoch ≠ fpairV (at_ s) kHltEpoch 0 % 256) ∧
    ((oneSet 0x800001 1).epoch = fpairV (at_ u) kHltEpoch 0 % 256 ∧
      ∃ n : Fin 24, bitOf (oneSet 0x800001 1).mask n = true ∧
        slotCopy (at_ u) (oneSet 0x800001 1).tick (fpairV (at_ u) kHltEpoch 0 % 256) n = none) ∧
    ((oneSet 0x800001 1).epoch = fpairV (at_ t) kHltEpoch 0 % 256 ∧
      ∀ n : Fin 24, bitOf (oneSet 0x800001 1).mask n = true →
        slotCopy (at_ t) (oneSet 0x800001 1).tick (fpairV (at_ t) kHltEpoch 0 % 256) n ≠ none) := by decide +kernel

/-- A mask frame of the field die waits. -/
def aFrame : MaskFrame := { tick := 0, ofs := 0, mask := 1, late := false }
def urgWaits : State := lft (fun l => { l with urg := l.urg.set 4 (some aFrame) }) running
def evtWaits : State := lft (fun l => { l with evt := l.evt.set 6 (some aFrame) }) running

theorem witness_UplinkFrames :
    (UpUsed (.rot 0) 1 running.dev ∧ UpUsed (.rot 63) 4096 running.dev) ∧
    UpUsed .report 1 (lft (fun l => { l with reportLeft := 8 }) running).dev ∧
    (urgWaits.dev.lift.urg.get 4 = some aFrame ∧ UpUsed (.urg 4) 1 urgWaits.dev) ∧ running.dev.lift.urg.get 4 = none ∧
    (evtWaits.dev.lift.evt.get 6 = some aFrame ∧ UpUsed (.evt 6) 4 evtWaits.dev) ∧ running.dev.lift.evt.get 6 = none ∧
    (running.dev.lift.reportLeft = 0 ∧ (running.dev.lift.upSeq + 8) % 16 = 15) ∧
    (let s := lft (fun l => { l with reportLeft := 8 }) running
     s.dev.lift.reportLeft ≠ 0 ∧ s.dev.lift.reported = false) ∧
    (let s := lft (fun l => { l with reportLeft := 1, reported := true }) running
     s.dev.lift.reportLeft ≠ 0 ∧ s.dev.lift.reported = true) :=
  ⟨⟨⟨by decide, by decide, by decide, 7, by decide⟩, ⟨by decide, by decide, by decide, 7, by decide⟩⟩,
    ⟨by decide, by decide, by decide, 7, by decide⟩, ⟨rfl, by decide, by decide, by decide, 7, by decide⟩, by decide,
    ⟨rfl, by decide, by decide, by decide, 7, by decide⟩, by decide, by decide, by decide, by decide⟩

theorem witness_LiftDiscardsAndSilence :
    let s := svc (fun v => { v with release := some 500 }) running
    (fieldRuns running.dev = true ∧ downOn running.dev = true ∧ upIs (.rot 63) 1 running.dev = true ∧
      running.dev.lift.up = .locked 7 ∧ frameGood true 0 = false) ∧
    (downOn running.dev = true ∧ running.dev.pwr.fieldPow = true ∧ downIs (.rot 63) running.dev = true ∧
      running.dev.lift.down = .locked 7 ∧ frameGood false 0 = false) ∧
    (frameGood true (liftFrame 1 8 0) = true ∧ frameSeq (liftFrame 1 8 0) = (7 + 1) % 4096) ∧
    (running.dev.lift.silent = false ∧ downOn running.dev = true) ∧ downOn State.reset.dev = false ∧
    (let t := lft (fun l => { l with down := .out 0 0 }) running
     t.dev.lift.armed = true ∧ t.dev.pwr.fieldPow = true ∧ t.dev.lift.down.inLock = false ∧
       1000 * silenceMs t.dev ≤ 1000 ∧ 999 < 1000 * silenceMs t.dev) ∧
    (let t := lft (fun l => { l with secUp := 65536 }) running
     pget t.dev kSysLiftErrWarn 0 < max t.dev.lift.secUp t.dev.lift.secDown) ∧
    max running.dev.lift.secUp running.dev.lift.secDown ≤ pget running.dev kSysLiftErrWarn 0 ∧
    (let t := lft (fun l => { l with stopped := true }) s
     t.dev.svc.release = some 500 ∧ t.dev.lift.up.inLock = true ∧ t.dev.pwr.fStep < 4 ∧ t.dev.hlt.demand = false ∧
       t.dev.svc.spoiled = false ∧ t.dev.lift.stopped = true) ∧
    (let t := pwr (fun p => { p with fStep := 4 }) s
     t.dev.svc.release = some 500 ∧ 4 ≤ t.dev.pwr.fStep) := by decide +kernel

/-- Channel `ch` converts at 20 kS/s, and a window of it ends at the edge the field die has come to. -/
def converting (ch : Fin 32) : State :=
  lft (fun l => { l with fTick := 1 }) (onDev (afeMod ch fun c => { c with on := true }) (param kAfeRate ch 9 running))

/-- The same channel broken off in its window. -/
def brokenOff (ch : Fin 32) : State := onDev (afeMod ch fun c => { c with abandoned := true }) (converting ch)

theorem witness_ResultWordLayout :
    (-8388608 ≤ (-8388608 : Int) ∧ (-8388608 : Int) ≤ 8388607 ∧ 15 < 16) ∧
    (afeConverts (converting 31).dev 31 = true ∧
      windowEnds (converting 31).dev (31 : Fin 32) ((converting 31).dev.afe.ch.get 31) = some 0 ∧
      ((converting 31).dev.afe.ch.get 31).abandoned = false) := by decide +kernel

/-- A thermocouple on channel 0 with its cold junction on channel 1, which has a current source and no result yet. -/
def thermo : State :=
  onDev (fun d => afeMod 1 (fun c => { c with on := true }) (afeMod 0 (fun c => { c with on := true }) d))
    (param kAfeCurve 0 10 (param kAfeCjChan 0 1 (param kAfeRate 0 9 (param kAfeRate 1 9 (param kAfeExcMode 1 1 running)))))

/-- A conversion window that took nothing, with the break a monitor showed. -/
def shown (fault : Option (Fin 5)) : AfeSample := { bits := [], overWindow := false, pulseRise := false, fault := fault }

theorem witness_ConversionEndFormsResult :
    (let c := (brokenOff 7).dev.afe.ch.get 7
     afeConverts (brokenOff 7).dev 7 = true ∧ windowEnds (brokenOff 7).dev (7 : Fin 32) c = some 0 ∧ c.abandoned = true) ∧
    (let s := lft (fun l => { l with fTick := 1 }) thermo
     let c := s.dev.afe.ch.get 1
     afeConverts s.dev 1 = true ∧ windowEnds s.dev (1 : Fin 32) c = some 0 ∧ c.abandoned = false ∧
       breakCond s.dev 1 (filterWindow s.dev 1 c 0 (shown (some 0))).2 ≠ none ∧ afeDep s.dev (1 : Fin 32) = none) ∧
    (let s := lft (fun l => { l with fTick := 1 }) thermo
     let c := s.dev.afe.ch.get 0
     afeConverts s.dev 0 = true ∧ windowEnds s.dev (0 : Fin 32) c = some 0 ∧ c.abandoned = false ∧
       afeDep s.dev (0 : Fin 32) = some 1 ∧ (1 : Nat) ≠ (0 : Fin 32).val ∧ depStatus s.dev (0 : Fin 32) = some (1, sSettling) ∧
       (sSettling = sBroken ∨ sSettling = sStale ∨ sSettling = sSettling)) ∧
    afeConverts running.dev 0 = false ∧ windowEnds running.dev (0 : Fin 32) (running.dev.afe.ch.get 0) = none := by
  decide +kernel

/-- What the spare of a group found: its mean, and whether the channel fails. -/
def spared (mean : Int) (channelFails : Bool) : SpareSample :=
  { leadUv := 1000, mean := mean, channelFails := channelFails, spareFails := false }

theorem witness_AfeStepsAndConditions :
    let s := onDev (afeMod 8 fun c => { c with on := true, recent := [(0, 0)] })
      (param kAfeGain 8 1 (param kAfeRate 8 0 running))
    let l := param kAfeLeadMode 8 1 s
    let bad := onDev (afeMod 8 fun c => { c with shadow := 1 }) s
    let serving := onDev (afeGrpMod 1 fun x => { x with serves := some 0 }) s
    let excited := param kAfeExcMode 8 1 s
    let blanked := param kAfeBlkSel 0 1 (param kAfeBlkPol 0 1 (onDev (fun d =>
      { d with afe := { d.afe with blk := vMod d.afe.blk 0 fun b => { b with level := true } } }) s))
    ((s.dev.afe.ch.get 8).on = true ∧ fieldRuns s.dev = true ∧ domOn s.dev 9 = true ∧ (s.dev.afe.grp.get 1).serves = none ∧
      (s.dev.afe.grp.get 1).unavailable = false ∧ spareTarget s.dev 1 = some 8 ∧ pget s.dev kAfeLeadMode 8 ≠ 1 ∧
      shadowAgrees s.dev 8 (spared 8388 false).mean = true ∧ shadowAgrees s.dev 8 (spared 16777 false).mean = false ∧
      (s.dev.afe.ch.get 8).shadow = 0) ∧
    (spareTarget bad.dev 1 = some 8 ∧ pget bad.dev kAfeLeadMode 8 ≠ 1 ∧ (bad.dev.afe.ch.get 8).shadow ≠ 0 ∧
      shadowAgrees bad.dev 8 (spared 16777 true).mean = false ∧ (spared 16777 true).spareFails = false ∧
      (spared 16777 true).channelFails = true) ∧
    (spareTarget l.dev 1 = some 8 ∧ pget l.dev kAfeLeadMode 8 = 1 ∧ (l.dev.afe.ch.get 8).leadTurn = false ∧
      (l.dev.afe.ch.get 8).leadCmd = []) ∧
    ((s.dev.afe.ch.get 8).sub = .none ∧ s.dev.hlt.patrolLost = false ∧ (s.dev.afe.grp.get (afeGroup 8)).serves = none ∧
      (s.dev.afe.grp.get (afeGroup 8)).unavailable = false ∧ (serving.dev.afe.grp.get (afeGroup 8)).serves ≠ none) ∧
    (let c := onDev (afeMod 8 fun a => { a with sub := .calibrating }) serving
     (c.dev.afe.grp.get 1).serves = some 0 ∧ (8 : Fin 32).val = 8 * (1 : Fin 4).val + (0 : Fin 8).val ∧
       (c.dev.afe.ch.get 8).sub = .calibrating) ∧
    (blkActive blanked.dev (0 : Fin 2) = true ∧ (∃ g : Fin 4, bitOf (pget blanked.dev kAfeBlkSel g) (0 : Fin 2) = true) ∧
      (blanked.dev.afe.blk.get 0).stuck = false ∧ fieldRuns blanked.dev = true) ∧
    fieldRuns State.reset.dev = false ∧
    (let b := param kAfeExcMode 8 2 s
     pget b.dev kAfeExcMode 8 = 2 ∧ afeConverts b.dev 8 = true ∧ (b.dev.afe.ch.get 8).excOff = false ∧
       (b.dev.afe.ch.get 8).brk = none) ∧
    (pget excited.dev kAfeExcMode 8 = 1 ∧ afeConverts excited.dev 8 = true ∧
      (excited.dev.afe.ch.get 8).excOff = false ∧ (excited.dev.afe.ch.get 8).brk = none) ∧
    (let e := param kAfeEnable 8 1 s
     (e.dev.afe.ch.get 8).stale = false ∧ pget e.dev kAfeWiring 8 ≠ 5) ∧
    pget (param kAfeWiring 8 5 s).dev kAfeWiring 8 = 5 ∧
    ((7 : Fin 8).val = 4 + (3 : Fin 4).val ∧ pget (param kAfeGuardSrc 3 5 s).dev kAfeGuardSrc (3 : Fin 4) = 5 ∧
      pget (param kAfeGuardSrc 3 254 s).dev kAfeGuardSrc (3 : Fin 4) = 254 ∧
      pget (param kAfeGuardSrc 3 255 s).dev kAfeGuardSrc (3 : Fin 4) = 255) ∧
    (dielectricUse s.dev (28 + (3 : Fin 8)) = false ∧
      dielectricUse (param kDlxEnable 3 1 s).dev (28 + (3 : Fin 8)) = true) ∧
    Meets 0x1202 32 [] running (fun _ c => 32 ≤ targetN c) ∧
    Meets 0x1202 8 [] (param kAfeWiring 8 1 l) (fun s c => targetN c = (8 : Fin 32).val ∧ (s.dev.afe.ch.get 8).on = true ∧
      pget s.dev kAfeWiring 8 = 1 ∧ pget s.dev kAfeLeadMode 8 = 1 ∧ (s.dev.afe.grp.get (afeGroup 8)).serves = none ∧
      (s.dev.afe.grp.get (afeGroup 8)).unavailable = false) ∧
    Meets 0x1202 8 [] running (fun s c => targetN c = (8 : Fin 32).val ∧ (s.dev.afe.ch.get 8).on = false) := by
  and_intros <;> first | exact meets (by decide) | decide +kernel

/-- DX3 in a mode of its own. -/
def dxMode (m : Nat) (s : State) : State := onDev (dlxMod 3 fun c => { c with mode := m }) s

/-- A probe calibration record of every reference. -/
def recorded (m : Nat → Rat) : State :=
  let rs := Vector.ofFn fun k => { cap := some (m k.val, 0, 0, 0, 0, 8), oven := some (100 * k.val) }
  dlx (fun x => { x with recs := rs }) running

/-- A sweep of DX3 that has measured so many points. -/
def sweeping (n : Nat) : State :=
  let w : Sweep :=
    { ch := 3, pts := List.replicate n ({ re := 0, im := 0 }, 0), guardLimit := false, overload := false, forStep := false }
  dlx (fun x => { x with sweep := some w }) running

/-- DX3 measures with a window of one accepted attempt. -/
def measuring : State :=
  let a : Attempt := { acc := true, m := 14, rho := 700, t := 20, tBad := false, eps := [], ooc := none }
  onDev (dlxMod 3 fun c => { c with win := [a], filled := true }) (param kDlxAvg 3 1 (dxMode 1 running))

/-- A calibration step that waits. -/
def calWait : CalStep := { cmd := .host 9, step := 1, epsRef := 0, sweeps := [], overload := false }

theorem witness_DielectricSteps :
    let q := dlx (fun x => { x with queue := [3] }) running
    let r := dlx (fun x => { x with rot := 7 }) running
    let bad := onDev (dlxMod 3 fun c => { c with differs := 1 }) r
    (q.dev.dlx.queue.head? = some 3 ∧ q.dev.dlx.sweep = none ∧ dlxHeld q.dev = false ∧ q.dev.dlx.paused = false ∧
      (q.dev.dlx.ch.get 3).mode ≠ 2) ∧
    (let c := onDev (dlxMod 3 fun c => { c with steps := [calWait] }) (dxMode 2 q)
     (c.dev.dlx.ch.get 3).mode = 2 ∧ (c.dev.dlx.ch.get 3).steps = [calWait]) ∧
    running.dev.dlx.queue.head? ≠ some 3 ∧ dlxHeld (sweeping 0).dev = false ∧
    (∃ w, (sweeping 0).dev.dlx.sweep = some w ∧ w.ch = 3 ∧ w.pts.length + 1 < pget (sweeping 0).dev kDlxPoints (3 : Fin 4)) ∧
    (∃ w, (sweeping 31).dev.dlx.sweep = some w ∧ w.ch = 3 ∧ pget (sweeping 31).dev kDlxPoints (3 : Fin 4) ≤ w.pts.length + 1) ∧
    (dlxHeld r.dev = false ∧ r.dev.dlx.spareFree = true ∧ r.dev.dlx.rot % 4 = (3 : Fin 4).val ∧
      (r.dev.dlx.ch.get 3).differs = 0) ∧
    (bad.dev.dlx.rot % 4 = (3 : Fin 4).val ∧ (bad.dev.dlx.ch.get 3).differs ≠ 0) ∧
    ((onDev (dlxMod 3 fun c => { c with path := .subst }) running).dev.dlx.ch.get 3).path = .subst ∧
    ((running.dev.dlx.ch.get 3).stale = false ∧
      ((onDev (dlxMod 3 fun c => { c with stale := true }) running).dev.dlx.ch.get 3).stale = true) ∧
    Meets 0x1302 3 [0] running (fun s c => targetN c = (3 : Fin 4).val ∧ byteAt c.payload 0 ≤ 31 ∧
      (s.dev.dlx.ch.get 3).last[byteAt c.payload 0]? = none) ∧
    Meets 0x1302 3 [0] (onDev (dlxMod 3 fun c => { c with last := [(0, { re := 0, im := 0 }, 7)] }) running) (fun s c =>
      targetN c = (3 : Fin 4).val ∧ (s.dev.dlx.ch.get 3).last[byteAt c.payload 0]? = some (0, { re := 0, im := 0 }, 7)) ∧
    Meets 0x1302 3 [32] running (fun _ c => 4 ≤ targetN c ∨ 31 < byteAt c.payload 0) ∧
    Meets 0x1303 3 [5] running (fun s c => targetN c = (3 : Fin 4).val ∧ 1 ≤ byteAt c.payload 0 ∧ byteAt c.payload 0 ≤ 6 ∧
      (s.dev.dlx.ch.get 3).mode ≠ 2) ∧
    Meets 0x1303 3 [5] (dxMode 2 running) (fun s c => (s.dev.dlx.ch.get 3).mode = 2 ∧ byteAt c.payload 0 ≠ 6) ∧
    Meets 0x1303 3 [6] (dxMode 2 running) (fun s c => (s.dev.dlx.ch.get 3).mode = 2 ∧ byteAt c.payload 0 = 6 ∧
      (s.dev.dlx.ch.get 3).cal.open_ = none) ∧
    Meets 0x1304 3 [31, 47] (dxMode 1 running) (fun s c => targetN c = (3 : Fin 4).val ∧ byteAt c.payload 0 = (31 : Fin 32).val ∧
      grainOk (byteAt c.payload 1) = true ∧ (s.dev.dlx.ch.get 3).mode = 1 ∧
      (windowResult s.dev (3 : Fin 4) (s.dev.dlx.ch.get 3)).1 ≠ xOk ∧ accepted (s.dev.dlx.ch.get 3) = []) ∧
    Meets 0x1304 3 [31, 47] measuring (fun s c => grainOk (byteAt c.payload 1) = true ∧ (s.dev.dlx.ch.get 3).mode = 1 ∧
      (windowResult s.dev (3 : Fin 4) (s.dev.dlx.ch.get 3)).1 = xOk ∧ accepted (s.dev.dlx.ch.get 3) ≠ []) ∧
    Meets 0x1305 0 [31] running (fun _ c => byteAt c.payload 0 = (31 : Fin 32).val) ∧
    Meets 0x1305 0 [32] running (fun _ c => 32 ≤ byteAt c.payload 0) ∧
    Meets 0x1306 0 [15, 1, 12, 0, 7, 0, 0, 0, 0] running (fun s c => byteAt c.payload 0 ≤ 15 ∧ 1 ≤ byteAt c.payload 2 ∧
      byteAt c.payload 2 ≤ 12 ∧ byteAt c.payload 8 ≤ 1 ∧ byteAt c.payload 1 = 1 ∧
      (fitRecs s.dev (field c.payload 4 4)).length < 4) ∧
    Meets 0x1306 0 [15, 1, 12, 0, 15, 0, 0, 0, 0] (recorded fun _ => 1) (fun s c =>
      4 ≤ (fitRecs s.dev (field c.payload 4 4)).length ∧ fit1 (fitRecs s.dev (field c.payload 4 4)) = none) ∧
    Meets 0x1306 0 [15, 1, 12, 0, 15, 0, 0, 0, 0] (recorded fun k => k) (fun s c => byteAt c.payload 8 = 0 ∧
      4 ≤ (fitRecs s.dev (field c.payload 4 4)).length ∧ fit1 (fitRecs s.dev (field c.payload 4 4)) = some (0, 1)) ∧
    Meets 0x1306 0 [15, 0, 12, 0, 31, 0, 0, 0, 0] (recorded fun k => k) (fun s c => byteAt c.payload 1 = 0 ∧
      (fitRecs s.dev (field c.payload 4 4)).length < 6) ∧
    Meets 0x1307 0 [47, 15] running (fun _ c => grainOk (byteAt c.payload 0) = true ∧ byteAt c.payload 1 ≤ 15) ∧
    Meets 0x1307 0 [13, 0] running (fun _ c => grainOk (byteAt c.payload 0) = false ∨ 15 < byteAt c.payload 1) := by
  and_intros <;> first
    | exact ⟨_, rfl, by decide +kernel⟩
    | exact meets (by decide +kernel)
    | decide +kernel

/-- Pin 63 as an output that is driven at full duty. -/
def driven : State :=
  param kFioMode 63 4 (lft (fun l => { l with pairs :=
    [(addrOf kFioOutEn 7, { act := mkPair 255, shad := mkPair 255, gen := 0, pend := none })] }) running)
    |> onDev (pinMod 63 fun p => { p with cmd := 255 })

/-- Pin 63 changed. -/
def pin63 (f : Pin → Pin) : State → State := onDev (pinMod 63 f)

theorem witness_PinProtectionAndConditions :
    let off := pin63 (fun p => { p with cmd := 0 }) driven
    ((driven.dev.fio.pin.get 63).ilim = false ∧ pinDrive driven.dev 63 ≠ 0 ∧ (driven.dev.fio.pin.get 63).therm = false ∧
      (driven.dev.fio.pin.get 63).latched = false ∧
      (recentRestarts driven.dev (driven.dev.fio.pin.get 63).restarts).length < 8) ∧
    (let s := pin63 (fun p => { p with restarts := List.replicate 8 0 }) driven
     8 ≤ (recentRestarts s.dev (s.dev.fio.pin.get 63).restarts).length ∧ pinDrive s.dev 63 ≠ 0 ∧
       (s.dev.fio.pin.get 63).therm = false) ∧
    pinDrive running.dev 63 = 0 ∧
    (let s := pin63 (fun p => { p with therm := true }) driven
     (s.dev.fio.pin.get 63).therm = true ∧ (s.dev.fio.pin.get 63).latched = false ∧ pinWanted s.dev 63 ≠ 0) ∧
    ((pin63 (fun p => { p with latched := true }) driven).dev.fio.pin.get 63).latched = true ∧
    (let s := param kFioOlOn 63 1 (param kFioVfbLowMv 7 0 driven)
     fieldRuns s.dev = true ∧ bankLowNow s.dev (pinBank (63 : Fin 64)) = false ∧ (s.dev.fio.pin.get 63).openLoad = none ∧
       pinDrive s.dev 63 ≠ 0 ∧ pget s.dev kFioOlOn (63 : Fin 64) = 1 ∧ (s.dev.fio.pin.get 63).reverse = false ∧
       (s.dev.fio.pin.get 63).overLoad = false) ∧
    (let s := param kFioOlOff 63 1 (param kFioVfbLowMv 7 0 off)
     fieldRuns s.dev = true ∧ bankLowNow s.dev (pinBank (63 : Fin 64)) = false ∧ pinDrive s.dev 63 = 0 ∧
       isOutput (pinMode s.dev (63 : Fin 64)) = true ∧ pget s.dev kFioOlOff (63 : Fin 64) = 1 ∧
       (s.dev.fio.pin.get 63).shortSup = false) ∧
    ((onDev (bankMod 7 fun k => { k with low := 3 }) running).dev.fio.bank.get 7).lowRaised = false ∧
    3 ≤ ((onDev (bankMod 7 fun k => { k with low := 3 }) running).dev.fio.bank.get 7).low ∧
    ((onDev (bankMod 7 fun k => { k with low := 2 }) running).dev.fio.bank.get 7).low < 3 ∧ (62 : Fin 64) ≠ 63 := by
  decide +kernel

theorem witness_PinFilterAndGate :
    let i := pin63 (fun p => { p with fresh := false }) (param kFioMode 63 1 running)
    let c := pin63 (fun p => { p with cdTick := some 100 }) (param kFioMode 63 3 running)
    let g := pin63 (fun p => { p with gate := some (0, 7) }) c
    let edge (s : State) := s.dev.time.tick / pget s.dev kFioCntGateMs (63 : Fin 64) * pget s.dev kFioCntGateMs (63 : Fin 64)
    pinMode running.dev (63 : Fin 64) = 0 ∧
    (addrOf kFioMode 63, 0) ∈ (lft (fun l => { l with cfg := [(addrOf kFioMode 63, 0)] }) running).dev.lift.cfg ∧
    i.dev.lift.cfg = [] ∧
    ((i.dev.fio.pin.get 63).since + 1 < pget i.dev kFioFiltTick (63 : Fin 64) ∧
      pget (param kFioFiltTick 63 1 i).dev kFioFiltTick (63 : Fin 64) ≤ (i.dev.fio.pin.get 63).since + 1) ∧
    ((param kFioMode 63 3 running).dev.fio.pin.get 63).cdTick = none ∧
    (edge c ≤ 100 ∧ edge g ≤ 100) ∧
    (fieldRuns i.dev = true ∧ domOn i.dev 8 = true ∧ pinMode i.dev (63 : Fin 64) ≠ 0 ∧ pinMode i.dev (63 : Fin 64) ≠ 2 ∧
      (i.dev.fio.pin.get 63).fresh = false) ∧
    (pinMode c.dev (63 : Fin 64) = 3 ∧ (c.dev.fio.pin.get 63).cdTick = some 100 ∧ (c.dev.fio.pin.get 63).gate = none) ∧
    (pinMode g.dev (63 : Fin 64) = 3 ∧ (g.dev.fio.pin.get 63).cdTick = some 100 ∧ (g.dev.fio.pin.get 63).gate = some (0, 7) ∧
      0 < 100) ∧
    pinMode i.dev (63 : Fin 64) ≠ 3 ∧
    Meets 0x1102 64 [] running (fun _ c => 64 ≤ targetN c) ∧
    Meets 0x1102 63 [] (pwr (fun p => { p with pinFail := 2 ^ 63 }) running) (fun s c => targetN c = (63 : Fin 64).val ∧
      bitOf s.dev.pwr.pinFail (63 : Fin 64) = true) ∧
    Meets 0x1102 63 [] running (fun s c => targetN c = (63 : Fin 64).val ∧ bitOf s.dev.pwr.pinFail (63 : Fin 64) = false ∧
      (s.dev.fio.pin.get 63).latchRec = false) ∧
    Meets 0x1102 63 [] (pin63 (fun p => { p with latchRec := true }) running) (fun s _ =>
      bitOf s.dev.pwr.pinFail (63 : Fin 64) = false ∧ (s.dev.fio.pin.get 63).latchRec = true) ∧
    Meets 0x1103 64 [] running (fun _ c => 64 ≤ targetN c) ∧
    Meets 0x1103 63 [] (pwr (fun p => { p with pinFail := 2 ^ 63 }) running) (fun s c => targetN c = (63 : Fin 64).val ∧
      bitOf s.dev.pwr.pinFail (63 : Fin 64) = true) ∧
    Meets 0x1103 63 [] running (fun s c => targetN c = (63 : Fin 64).val ∧ bitOf s.dev.pwr.pinFail (63 : Fin 64) = false) := by
  and_intros <;> first | exact meets (by decide +kernel) | decide +kernel

/-- The parameters of a profile that VD15 runs. -/
def profile (deferMax : Nat) : Profile where
  delayUs := 0
  peakMa := 1000
  peakMaxUs := 1000
  dwellUs := 0
  holdMa := 300
  holdT := 0
  fast := false
  ttpMin := 100
  ttpMax := 500
  deferMax := deferMax
  cmd := none
  tick := 0

/-- VD15 in a phase of such a profile, and changed. -/
def vd15 (p : VPhase) (deferMax : Nat) (f : VlvCh → VlvCh) (s : State) : State :=
  onDev (vlvMod 15 fun c => f { c with phase := p, prof := some (profile deferMax) }) s

theorem witness_ValvePhases :
    let delay := vd15 .delay 0 id running
    let shared := onDev (vlvMod 14 fun c => { c with phase := .peak }) running
    ((vlvCh delay.dev 15).phase = .delay ∧ fieldRuns delay.dev = true ∧ mustDefer delay.dev 15 = false) ∧
    (let s := vd15 .delay 1 id shared
     mustDefer s.dev 15 = true ∧ ((vlvCh s.dev 15).prof.map (·.deferMax)).getD 0 ≠ 0) ∧
    (let s := vd15 .delay 0 id shared
     mustDefer s.dev 15 = true ∧ (vlvCh s.dev 15).safePeak = false ∧ ((vlvCh s.dev 15).prof.map (·.deferMax)).getD 0 = 0) ∧
    (vlvCh running.dev 15).phase ≠ .delay ∧
    ((vlvCh (vd15 .defer 0 id running).dev 15).phase = .defer ∧ (vlvCh (vd15 .defer 0 id running).dev 15).safePeak = false) ∧
    (vlvCh (vd15 .shedWait 0 id running).dev 15).phase = .shedWait ∧
    (let s := vd15 .peak 0 id running
     (vlvCh s.dev 15).phase = .peak ∧ (vlvCh s.dev 15).ttp = none ∧ f2On s.dev = false ∧
       (vlvCh s.dev 15).prof = some (profile 0)) ∧
    ((profile 0).ttpMin ≤ 100 ∧ 500 ≤ (profile 0).ttpMax ∧ 99 < (profile 0).ttpMin ∧ (profile 0).ttpMax < 501) ∧
    (let s := vd15 .peak 0 (fun c => { c with ttp := some 20 }) running
     (vlvCh s.dev 15).phase = .peak ∧ (vlvCh s.dev 15).ttp ≠ none ∧ (vlvCh s.dev 15).safePeak = false ∧
       (vlvCh s.dev 15).cause = 0) ∧
    (let s := vd15 .peak 0 (fun c => { c with ttp := some 20, safePeak := true, prof := none }) running
     (vlvCh s.dev 15).phase = .peak ∧ (vlvCh s.dev 15).ttp ≠ none ∧ (vlvCh s.dev 15).safePeak = true ∧
       (vlvCh s.dev 15).prof = none) ∧
    (vlvCh running.dev 15).phase ≠ .peak ∧
    (vlvCh (vd15 .hold 0 id running).dev 15).phase = .hold ∧ (vlvCh running.dev 15).phase ≠ .hold ∧
    ((vlvCh (vd15 .decaySlow 0 id running).dev 15).prof = some (profile 0) ∧
      (vlvCh (vd15 .decaySlow 0 id running).dev 15).phase = .decaySlow) ∧
    (vlvCh (vd15 .decayFast 0 id running).dev 15).phase = .decayFast := by decide +kernel

theorem witness_ValveFaults :
    let held := vd15 .hold 0 id running
    let hot := vd15 .hold 0 (fun c => { c with therm := true }) running
    let prop := vd15 .prop 0 id running
    let joined := onDev (vlvMod 14 fun c => { c with phase := .hold, prof := some (profile 0) }) (param kVlvMode 14 3 running)
    (vlvJoined held.dev 15 = false ∧ carries held.dev 15 false = true) ∧
    (∃ k ∈ [pairEven (vlvPair (15 : Fin 16)), pairOdd (vlvPair (15 : Fin 16))], carries held.dev k true = true) ∧
    (vlvJoined joined.dev 14 = true ∧ carries joined.dev 14 false = true) ∧
    (carries running.dev 15 false = false ∧ carries running.dev (pairEven (vlvPair (15 : Fin 16))) true = false ∧
      carries running.dev (pairOdd (vlvPair (15 : Fin 16))) true = false) ∧
    ((vlvCh held.dev 15).therm = false ∧ carries held.dev 15 true = true) ∧
    ((held.dev.vlv.hs.get (vlvPair 15)).therm = false ∧ carries held.dev (pairOdd (vlvPair (15 : Fin 16))) true = true) ∧
    ((vlvCh hot.dev 15).therm = true ∧ ∀ k ∈ vlvEnded hot.dev 15 false, (vlvCh hot.dev k).latched = false) ∧
    (let s := vd15 .latched 0 (fun c => { c with latched := true }) running
     ∃ k ∈ vlvEnded s.dev 15 false, (vlvCh s.dev k).latched = true) ∧
    (vlvCh (vd15 .safeSet 0 id running).dev 15).phase = .safeSet ∧
    ((vlvCh held.dev 15).openCoil = false ∧ (vlvCh held.dev 15).phase = .hold) ∧ (vlvCh prop.dev 15).phase = .prop ∧
    (let s := param kVlvMode 15 1 (param kVlvDutyWinS 15 1 (vd15 .hold 0 (fun c => { c with bins := [(true, 999)] }) running))
     let d := vlvMod 15 (fun c => { c with hot := true, bins := binsCut 600000 (binsPush true c.bins) }) s.dev
     isPulseMode (vlvMode s.dev (15 : Fin 16)) = true ∧ s.dev.pwr.fieldPow = true ∧ (vlvCh s.dev 15).dutyLimit = false ∧
       fpairV d kVlvDutyPct (15 : Fin 16) * dutyWin d (15 : Fin 16) <
         binsOn (dutyWin d (15 : Fin 16)) (vlvCh d 15).bins * 100) ∧
    (let s := param kVlvMode 15 1 running
     isPulseMode (vlvMode s.dev (15 : Fin 16)) = true ∧ binsOn (dutyWin s.dev (15 : Fin 16)) (vlvCh s.dev 15).bins * 100 ≤
       fpairV s.dev kVlvDutyPct (15 : Fin 16) * dutyWin s.dev (15 : Fin 16)) := by decide +kernel

theorem witness_ValveCommands :
    let on := param kVlvMode 15 1 running
    Meets 0x1401 16 [] running (fun _ c => 16 ≤ targetN c) ∧ Meets 0x1403 16 [] running (fun _ c => 16 ≤ targetN c) ∧
    Meets 0x1401 15 [] (pwr (fun p => { p with vdFail := 2 ^ 15 }) on) (fun s c => targetN c = (15 : Fin 16).val ∧
      bitOf s.dev.pwr.vdFail (15 : Fin 16) = true) ∧
    Meets 0x1401 15 [] (svc (fun v => { v with claims := 2 ^ 79 }) on) (fun s _ =>
      bitOf s.dev.pwr.vdFail (15 : Fin 16) = false ∧ claimed s.dev (64 + (15 : Fin 16)) = true) ∧
    Meets 0x1401 15 [] running (fun s _ => claimed s.dev (64 + (15 : Fin 16)) = false ∧
      isPulseMode (pget s.dev kVlvMode (15 : Fin 16)) = false) ∧
    Meets 0x1401 15 [] (param kVlvMode 14 3 running) (fun s _ => vlvSlave s.dev (15 : Fin 16) = true) ∧
    Meets 0x1401 15 [] (onDev (vlvMod 15 fun c => { c with latchRec := true }) on) (fun s _ =>
      vlvSlave s.dev (15 : Fin 16) = false ∧ isPulseMode (pget s.dev kVlvMode (15 : Fin 16)) = true ∧
      latchKnown (vlvCh s.dev 15) = true) ∧
    Meets 0x1401 15 (le 4 6000001) on (fun s c => latchKnown (vlvCh s.dev 15) = false ∧ field c.payload 0 4 ≠ 0 ∧
      (field c.payload 0 4 < 10 ∨ 6000000 < field c.payload 0 4)) ∧
    Meets 0x1401 15 (le 4 6000000) (onDev (vlvMod 15 fun c => { c with status := 4 }) on) (fun s c =>
      10 ≤ field c.payload 0 4 ∧ field c.payload 0 4 ≤ 6000000 ∧ bitOf (vlvCh s.dev 15).status.toNat 2 = true) ∧
    Meets 0x1401 15 (le 4 10) on (fun s c => 10 ≤ field c.payload 0 4 ∧ bitOf (vlvCh s.dev 15).status.toNat 2 = false ∧
      pulsePlaced s.dev 15 = false ∧ (vlvCh s.dev 15).reqs = []) ∧
    Meets 0x1401 15 (le 4 0) (onDev (vlvMod 15 fun c => { c with reqs := [{ cmd := none, holdT := 0 }] }) on) (fun s c =>
      field c.payload 0 4 = 0 ∧ (vlvCh s.dev 15).reqs ≠ []) ∧
    Meets 0x1403 15 [] (pwr (fun p => { p with vdFail := 2 ^ 15 }) on) (fun s c => targetN c = (15 : Fin 16).val ∧
      bitOf s.dev.pwr.vdFail (15 : Fin 16) = true) ∧
    Meets 0x1403 15 [] (svc (fun v => { v with claims := 2 ^ 79 }) on) (fun s _ =>
      bitOf s.dev.pwr.vdFail (15 : Fin 16) = false ∧ claimed s.dev (64 + (15 : Fin 16)) = true) ∧
    Meets 0x1403 15 [] (param kVlvMode 14 3 running) (fun s _ => bitOf s.dev.pwr.vdFail (15 : Fin 16) = false ∧
      claimed s.dev (64 + (15 : Fin 16)) = false ∧ vlvSlave s.dev (15 : Fin 16) = true) ∧
    Meets 0x1403 15 [] on (fun s c => targetN c = (15 : Fin 16).val ∧ bitOf s.dev.pwr.vdFail (15 : Fin 16) = false ∧
      claimed s.dev (64 + (15 : Fin 16)) = false ∧ vlvSlave s.dev (15 : Fin 16) = false ∧ latchKnown (vlvCh s.dev 15) = false) ∧
    Meets 0x1403 15 [] (onDev (vlvMod 15 fun c => { c with latchRec := true }) on) (fun s _ =>
      claimed s.dev (64 + (15 : Fin 16)) = false ∧ vlvSlave s.dev (15 : Fin 16) = false ∧
      latchKnown (vlvCh s.dev 15) = true) := by
  and_intros <;> exact meets (by decide +kernel)

/-- The state block that a gate has taken for a computation. -/
def gateRec : GateRec :=
  { tick := 0, y := [0], used := [true], r := [0], u := [0], uraw := [0], frz := [false], obs := false }

/-- Loop 63 changed. -/
def loop63 (f : CtlInst → CtlInst) (s : State) : State := onDev (ctlMod 63 f) s

theorem witness_LoopEvents :
    let g := loop63 (fun x => { x with base := .run, gate := some gateRec, next := some ([0], [0]) }) running
    let gated (s : State) := boundary ctlHook (fun w => w.bnd == .gate 63) (pairsUse (gatePairs s.dev 63) s.dev)
    (ctlInst (gated running) 63).base = .free ∧ (ctlInst (gated g) 63).base = .run ∧
    (ctlInst (gated (loop 63 .fallback running)) 63).base = .fallback ∧
    ctlPending (ctlInst running.dev 63) = none ∧
    (ctlPending (ctlInst g.dev 63) = some gateRec ∧ (ctlInst g.dev 63).gate = some gateRec ∧
      (ctlInst g.dev 63).backlog = [] ∧ g.dev.ctl.serving.get (ctlHome 63) ≠ (2 : Fin 3).val) ∧
    (g.dev.ctl.serving.get (ctlHome 63) = (1 : Fin 3).val ∧ g.dev.ctl.faulty.get 1 = false) ∧
    (ctlRuns (ctlInst g.dev 63) = true ∧ (ctlInst g.dev 63).base = .run ∧ (ctlInst g.dev 63).next = some ([0], [0])) ∧
    ctlRuns (ctlInst running.dev 63) = false ∧
    (let s := loop63 (fun x => { x with coast := true }) g
     (ctlInst s.dev 63).coast = true ∧ (ctlInst s.dev 63).base = .run) ∧
    (ctlInst g.dev 63).coast = false ∧
    (ctlInst (loop 63 .start running).dev 63).base = .start ∧ (ctlInst running.dev 63).base ≠ .start ∧
    (let s := onDev (fun d => { d with ctl := { d.ctl with faulty := d.ctl.faulty.set 1 true } }) running
     s.dev.ctl.faulty.get 1 = true ∧ heir s.dev 1 = some 2) ∧
    (running.dev.ctl.faulty.get 1 = false ∧ (1 : Fin 3).val < 2 ∧ running.dev.ctl.serving.get ⟨1, by decide⟩ = (1 : Fin 3).val ∧
      2 ∉ running.dev.ctl.serving.toList ∧ running.dev.ctl.faulty.get 2 = false ∧ running.dev.hlt.patrolLost = false) ∧
    heir running.dev 1 = none := by decide +kernel

/-- A descriptor of one state, integral, output, input, reference and set. -/
def desc : List Byte := padTo 256 [1, 0, 1, 1, 1, 1, 1, 0, 0, 1, 0, 0, 1, 1]

/-- Loop 63 has that descriptor, and a state of its own. -/
def described (b : CtlBase) (f : CtlInst → CtlInst) : State :=
  let e : PEntry := { words := wordsOf 64 desc, tick := 0 }
  cmds (fun c => { c with params := alSet c.params (addrOf kCtlDesc 63) e })
    (loop63 (fun x => f { x with base := b, sets := [(1, { coefs := List.replicate (coefCount desc) (0, 0), crc := 0, valid := false })] })
      running)

theorem witness_LoopCommands :
    let set := setCrc (List.replicate (coefCount desc) (0, 0))
    let sealed (v : Bool) : CoefSet := { coefs := List.replicate (coefCount desc) (0, 0), crc := 0, valid := v }
    Meets 0x1501 64 [] running (fun _ c => 64 ≤ targetN c) ∧
    Meets 0x1501 63 [] running (fun s c => targetN c = (63 : Fin 64).val ∧ (ctlInst s.dev 63).base = .free) ∧
    (∃ k, Meets 0x1501 63 ([0, 0, 0, 31] ++ le 4 7) (described .run id) fun s c => targetN c = (63 : Fin 64).val ∧
      (ctlInst s.dev 63).base ≠ .free ∧
      coefIdx (ctlDesc s.dev (63 : Fin 64)) (byteAt c.payload 0) (byteAt c.payload 1) (byteAt c.payload 2) = some k ∧
      byteAt c.payload 3 ≤ 31) ∧
    (∃ k, Meets 0x1501 63 ([0, 0, 0, 32] ++ le 4 7) (described .run id) fun s c =>
      coefIdx (ctlDesc s.dev (63 : Fin 64)) (byteAt c.payload 0) (byteAt c.payload 1) (byteAt c.payload 2) = some k ∧
      31 < byteAt c.payload 3) ∧
    Meets 0x1502 63 ([1, 0] ++ le 2 0 ++ [1, 0, 0, 0] ++ le 4 5 ++ [31]) (described .run fun x => { x with setUse := 1 }) (fun s c =>
      1 ≤ byteAt c.payload 0 ∧ byteAt c.payload 0 ≤ dSets (ctlDesc s.dev (63 : Fin 64)) ∧ 1 ≤ byteAt c.payload 4 ∧
      byteAt c.payload 4 ≤ 8 ∧ field c.payload 2 2 + byteAt c.payload 4 ≤ coefCount (ctlDesc s.dev (63 : Fin 64)) ∧
      (∀ y ∈ setWriteCoefs c.payload (byteAt c.payload 4), y.2 ≤ 31) ∧ (ctlInst s.dev 63).setUse = byteAt c.payload 0 ∧
      ctlRuns (ctlInst s.dev 63) = true) ∧
    Meets 0x1502 63 ([1, 0] ++ le 2 0 ++ [1, 0, 0, 0] ++ le 4 5 ++ [31]) (described .run id) (fun s c =>
      byteAt c.payload 0 ≤ dSets (ctlDesc s.dev (63 : Fin 64)) ∧
      field c.payload 2 2 + byteAt c.payload 4 ≤ coefCount (ctlDesc s.dev (63 : Fin 64)) ∧
      (∀ y ∈ setWriteCoefs c.payload (byteAt c.payload 4), y.2 ≤ 31) ∧ (ctlInst s.dev 63).setUse ≠ byteAt c.payload 0) ∧
    Meets 0x1503 63 ([1, 0, 0, 0] ++ le 4 set.toNat) (described .run id) (fun s c =>
      byteAt c.payload 0 ≤ dSets (ctlDesc s.dev (63 : Fin 64)) ∧
      (setCrc (setFilled (ctlDesc s.dev (63 : Fin 64)) (ctlSet (ctlInst s.dev 63) (byteAt c.payload 0))).coefs).toNat =
        field c.payload 4 4) ∧
    Meets 0x1503 63 ([1, 0, 0, 0] ++ le 4 (set.toNat + 1)) (described .run id) (fun s c =>
      (setCrc (setFilled (ctlDesc s.dev (63 : Fin 64)) (ctlSet (ctlInst s.dev 63) (byteAt c.payload 0))).coefs).toNat ≠
        field c.payload 4 4) ∧
    Meets 0x1504 63 [1] (described .run id) (fun s c => byteAt c.payload 0 ≠ 0xFF ∧
      byteAt c.payload 0 ≤ dSets (ctlDesc s.dev (63 : Fin 64)) ∧
      (ctlSet (ctlInst s.dev 63) (byteAt c.payload 0)).valid = false) ∧
    Meets 0x1504 63 [1] (described .run fun x => { x with sets := [(1, sealed true)] }) (fun s c =>
      (ctlSet (ctlInst s.dev 63) (byteAt c.payload 0)).valid = true) ∧
    Meets 0x1505 63 [] (described .run id) (fun s _ => (ctlInst s.dev 63).base ≠ .fallback) ∧
    Meets 0x1505 63 [] (described .fallback id) (fun s _ => (ctlInst s.dev 63).base = .fallback ∧ (ctlInst s.dev 63).cause ≠ 4) ∧
    Meets 0x1506 63 [] (described .run id) (fun s _ => (ctlInst s.dev 63).base ≠ .stopped ∧
      (ctlInst s.dev 63).base ≠ .fallback) ∧
    Meets 0x1506 63 [0] (described .stopped id) (fun s c => (ctlInst s.dev 63).base = .stopped ∧ byteAt c.payload 0 < 0x80 ∧
      byteAt c.payload 0 < dNo (ctlDesc s.dev (63 : Fin 64))) ∧
    Meets 0x150A 63 ([1, 0] ++ le 2 0 ++ [1]) (described .run id) (fun s c => byteAt c.payload 0 ≤ 8 ∧ byteAt c.payload 4 = 1 ∧
      field c.payload 2 2 + 1 ≤ coefCount (ctlDesc s.dev (63 : Fin 64)) ∧
      (ctlSet (ctlInst s.dev 63) (byteAt c.payload 0)).valid = false) ∧
    Meets 0x150A 63 ([1, 0] ++ le 2 0 ++ [1]) (described .run fun x => { x with sets := [(1, sealed true)] }) (fun s c =>
      (ctlSet (ctlInst s.dev 63) (byteAt c.payload 0)).valid = true) := by
  and_intros <;> first
    | exact meets (by decide +kernel)
    | exact ⟨0, meets (by decide +kernel)⟩

/-- What the law of that descriptor starts from. -/
def lawIn : LawIn where
  b := desc
  cs := List.replicate (coefCount desc) (0, 0)
  bfp := false
  st := [2147483647, -2147483648]
  ste := 0
  g := { gateRec with frz := [true] }
  lim := [(0, 0)]
  zlim := [0]
  exc := none

theorem witness_LoopStatesAndFrozenIntegrals :
    (ctlInst (loop 63 .fallback running).dev 63).base = .fallback ∧
    (let s := loop63 (fun x => { x with held := true }) (loop 63 .run running)
     (ctlInst s.dev 63).base ≠ .fallback ∧ (ctlInst s.dev 63).held = true) ∧
    (let s := loop63 (fun x => { x with coast := true }) (loop 63 .run running)
     (ctlInst s.dev 63).base ≠ .fallback ∧ (ctlInst s.dev 63).held = false ∧ (ctlInst s.dev 63).coast = true) ∧
    ((ctlInst (loop 63 .start running).dev 63).base = .start ∧ (ctlInst (loop 63 .start running).dev 63).held = false ∧
      (ctlInst (loop 63 .start running).dev 63).coast = false) ∧
    (ctlInst (loop 63 .run running).dev 63).base = .run ∧
    (lawIn.bfp = false ∧ lawIn.ste = 0 ∧ 0 < dNi lawIn.b ∧ lawIn.st.length = dNo lawIn.b + dNi lawIn.b ∧
      (∀ v ∈ lawIn.st, -2147483648 ≤ v ∧ v ≤ 2147483647) ∧ lawIn.g.frz.getD 0 false = true) := by decide +kernel

/-- A ledger record of 40 bytes is kept, and BIN 3 has a resume record. -/
def kept : State :=
  let r : Resume := { inst := ownerCode 1 3, phase := 2, ms := 5000, dryMs := 0, state := 0x21, cdr := none, recipe := 0xFF, lot := none }
  svc (fun v => { v with resume := [r], ledger := { v.ledger with records := [List.replicate 40 1] } }) running

theorem witness_ServiceCommands :
    Meets 0x1601 0x103 [] running (fun _ c => svcInst c < kindCount (svcKind c)) ∧
    Meets 0x160C 0x60F [] running (fun _ c => kindCount (svcKind c) ≤ svcInst c) ∧
    Meets 0x1605 0x104 [0] running (fun _ c => kindCount (svcKind c) ≤ svcInst c ∨ 1 < byteAt c.payload 0) ∧
    Meets 0x1605 0x603 [0] running (fun _ c => svcInst c < kindCount (svcKind c) ∧ byteAt c.payload 0 = 0) ∧
    (∃ r, Meets 0x1605 0x103 [1] kept fun s c => svcInst c < kindCount (svcKind c) ∧ byteAt c.payload 0 = 1 ∧
      (s.dev.svc.resume.find? fun r => r.inst = ownerCode (svcKind c) (svcInst c)) = some r) ∧
    Meets 0x160A 0 [0, 0, 0, 0] flashBusy (fun s _ => ¬ Free s) ∧
    Meets 0x160A 0 [0, 0, 0, 0] running (fun s c => Free s ∧ s.dev.svc.ledger.records[field c.payload 0 2]? = none) ∧
    (∃ r, Meets 0x160A 0 [0, 0, 1, 0] kept fun s c => Free s ∧ byteAt c.payload 2 ≤ 1 ∧
      s.dev.svc.ledger.records[field c.payload 0 2]? = some r) := by
  and_intros <;> first | exact meets (by decide +kernel) | exact ⟨_, meets ⟨by decide, by decide, rfl⟩⟩

theorem witness_ServiceSteps :
    let s := onDev (fun d => { d with time := { d.time with tick := 100 } }) running
    State.reset.dev.time.running = false ∧
    (s.dev.time.running = true ∧ s.dev.time.tick % 100 = 0 ∧ s.dev.svc.lastStep ≠ some s.dev.time.tick) := by decide

/-- A classical frame with this identifier and data. -/
def frame (id : Nat) (data : List Byte) : BusFrame where
  id := BitVec.ofNat 29 id
  xtd := false
  fdf := false
  brs := false
  esi := false
  rtr := false
  dlc := ⟨data.length % 16, by omega⟩
  data := data
  sofAgo := 0

/-- FDB1 in a mode, and changed. -/
def fdb (mode : Nat) (f : BusCh → BusCh) (s : State) : State := param kBusMode 1 mode (onDev (busMod 1 f) s)

/-- Filter element 127 of FDB1 gives every identifier to a destination. -/
def filtered (dest : Nat) (s : State) : State :=
  let e : PEntry := { words := [w32 (2 ^ 30 + dest * 2 ^ 26), 0, 2047], tick := 0 }
  cmds (fun c => { c with params := alSet c.params (addrOf kBusFilt 255) e }) s

theorem witness_BusFramesIn :
    let s := fdb 1 id running
    let data : List Byte := List.replicate 8 0
    let r : RateDetect := { cmd := .host 5, dwellMs := 1, apply := false, pair := 0, good := 2, brs := false, start := 0 }
    let x : RmbSt := { next := 1, count := 3, bytes := [0], skip := false }
    let m := onDev (fun d => { d with bus := { d.bus with rmb := d.bus.rmb.set 15 (some x) } }) s
    (busHears s.dev 1 = true ∧ (busCh s.dev 1).rate = none) ∧
    (let t := fdb 0 (fun c => { c with rate := some r }) running
     busHears t.dev 1 = true ∧ (busCh t.dev 1).rate = some r) ∧
    busHears running.dev 1 = false ∧
    frameUser (filtered 1 s).dev 1 (frame 0x47F data) = 1 ∧ frameUser (filtered 1 s).dev 1 (frame 0x480 data) = 2 ∧
    frameUser (filtered 2 s).dev 1 (frame 5 data) = 3 ∧
    frameUser (filtered 3 s).dev 1 (frame 23 data) = 4 ∧ frameUser (filtered 3 s).dev 1 (frame 24 data) = 5 ∧
    frameUser s.dev 1 (frame 24 data) ≠ 1 ∧ frameUser s.dev 1 (frame 24 data) ≠ 3 ∧
    vAt s.dev.bus.rmb (8 * (1 : Fin 2) + (7 : Fin 8)) none = none ∧
    (vAt m.dev.bus.rmb (8 * (1 : Fin 2) + (7 : Fin 8)) none = some x ∧ x.skip = false) := by decide +kernel

theorem witness_BusTransmission :
    let up := fdb 1 id (ring 14 (fun r => { r with en := true, head := 65535, tail := 0 }) running)
    let own := fdb 1 (fun c => { c with inner := [{ user := 0, msg := smoMsg [], head := false }] }) running
    ((ringOf up.dev (txRing 1)).en = true ∧ (ringOf up.dev (txRing 1)).head ≠ (ringOf up.dev (txRing 1)).tail ∧
      (outstanding (busCh up.dev 1)).length < 64 ∧ busMode up.dev 1 = 1 ∧
      txBad up.dev 1 (memRead up.mem ((ringOf up.dev (txRing 1)).slotAt (txRing 1) (ringOf up.dev (txRing 1)).head) 96) = false ∧
      (busCh up.dev 1).down = false ∧ (busCh up.dev 1).flt ≠ 2) ∧
    (ringOf running.dev (txRing 1)).en = false ∧ offered running.dev 1 0 = none ∧
    (∃ o, offered own.dev 1 0 = some o) ∧
    (let s := fdb 1 (fun c => { c with flt := 2 }) running
     (busCh s.dev 1).flt = 2 ∧ (busCh s.dev 1).down = false) ∧
    (busCh running.dev 1).flt ≠ 2 ∧ (busCh running.dev 1).down = false ∧
    (busCh (fdb 1 (fun c => { c with down := true }) running).dev 1).down = true ∧
    Meets 0x1703 1 [] running (fun _ c => c.target % 256 = (1 : Fin 2).val) ∧
    Meets 0x1703 2 [] running (fun _ c => 2 ≤ c.target % 256) := by
  and_intros <;> first | exact meets (by decide) | exact ⟨_, rfl⟩ | decide +kernel

/-- A system matrix of one column with one trigger at column 0: exclusive for object 31, or arbitrated. -/
def matrixOf (excl : Bool) : List Word :=
  let w0 := if excl then 1 else 2
  let bytes : List Byte := padTo 400 ([0, 0, 0, 0, 0, 1, 0, 0, 1, 0] ++ List.replicate 134 0 ++ [0, BitVec.ofNat 8 (64 * w0), 1, 31])
  wordsOf 100 bytes

/-- FDB1 in TT mode as a slave with that matrix. -/
def timed (excl : Bool) (f : TtSt → TtSt) : State :=
  let e : PEntry := { words := matrixOf excl, tick := 0 }
  cmds (fun c => { c with params := alSet c.params (addrOf kBusPiste 1) e })
    (fdb 3 (fun c => { c with tt := f { c.tt with state := 2 } }) running)

theorem witness_BusTimeTriggered :
    let s := timed true fun t => { t with serve := true }
    let a := timed false fun t => { t with serve := true }
    let n := timed true id
    busMode running.dev 1 ≠ 3 ∧
    (busMode s.dev 1 = 3 ∧ 2 ≤ (busCh s.dev 1).tt.state ∧ (0 : Fin 32).val < pisteColumns (piste s.dev 1) ∧
      (busCh s.dev 1).tt.excl = none ∧ (busCh s.dev 1).tt.serve = true ∧ (busCh s.dev 1).down = false ∧
      (busCh s.dev 1).flt ≠ 2) ∧
    (∃ t, cellOf (piste s.dev 1) (0 : Fin 32) (busCh s.dev 1).tt.cycle = some t ∧ t.kind = 1) ∧
    (∃ t, cellOf (piste a.dev 1) (0 : Fin 32) (busCh a.dev 1).tt.cycle = some t ∧ t.kind ≠ 1) ∧
    (busCh n.dev 1).tt.serve = false ∧
    (busCh (timed true fun t => { t with excl := some 31 }).dev 1).tt.excl ≠ none ∧
    (busCh running.dev 1).tt.state < 2 ∧ mayRefer running.dev 1 = false ∧
    mayRefer (param kBusTmPrio 1 0 (gns (fun g => { g with tq := 3 }) (timed true fun t => { t with take := true }))).dev 1 = true := by
  and_intros <;> first | exact ⟨_, rfl, by decide⟩ | decide +kernel

/-- Role 95 changed. -/
def role95 (f : RoleSt → RoleSt) (s : State) : State := onDev (roleMod 95 f) s

/-- A node that obeys commands. -/
def node : NodeSt := { tick := 0, role := 95, epoch := 0, state := 1, obeys := true, ch := 1 }

theorem witness_BusRoster :
    let on := param kBusRstEnable 0 3 running
    (let s := role95 (fun x => { x with state := 3 }) on
     (roleOf s.dev (95 : Fin 96)).state = 3 ∧ pget s.dev kBusRstEnable 0 ≠ 0) ∧
    (roleOf running.dev (95 : Fin 96)).state ≠ 3 ∧
    (let s := role95 (fun x => { x with state := 2 }) on
     (roleOf s.dev (95 : Fin 96)).state = 2 ∧ pget s.dev kBusRstEnable 0 ≠ 0) ∧
    (roleOf running.dev (95 : Fin 96)).state ≠ 2 ∧
    (let s := onDev (fun d => { d with bus := { d.bus with nodes := [(127, node)] } })
       (role95 (fun x => { x with stale := [{ node := 127, sending := true, standbys := 0 }] }) on)
     nodeObeys s.dev (127 : Fin 128) = true ∧
       ∃ x ∈ (roleOf s.dev (95 : Fin 96)).stale, x.node = (127 : Fin 128).val ∧ x.sending = true) ∧
    (∀ x ∈ (roleOf running.dev (95 : Fin 96)).stale, x.node ≠ (127 : Fin 128).val ∨ x.sending = false) ∧
    bitOf (pget on.dev kBusRstEnable 0) (1 : Fin 2) = true ∧ bitOf (pget running.dev kBusRstEnable 0) (1 : Fin 2) = false ∧
    Meets 0x1705 95 [128] running (fun _ c => 96 ≤ c.target % 256 ∨ byteAt c.payload 0 = 0 ∨ 127 < byteAt c.payload 0) ∧
    Meets 0x1705 95 [127] running (fun s c => c.target % 256 < 96 ∧ byteAt c.payload 0 ≠ 0 ∧ byteAt c.payload 0 ≤ 127 ∧
      (roleOf s.dev (c.target % 256)).state = 0) ∧
    Meets 0x1705 95 [1] (role95 (fun x => { x with state := 1 }) running) (fun s c => c.target % 256 < 96 ∧
      byteAt c.payload 0 ≠ 0 ∧ (roleOf s.dev (c.target % 256)).state ≠ 0) := by
  and_intros <;> first | exact meets (by decide +kernel) | decide +kernel

theorem witness_BusModeAndRates :
    let r : RateDetect := { cmd := .host 5, dwellMs := 1, apply := false, pair := 0, good := 0, brs := false, start := 0 }
    (busCh (fdb 0 (fun c => { c with rate := some r }) running).dev 1).rate = some r ∧ (busCh running.dev 1).rate = none ∧
    Meets 0x1701 2 [] running (fun _ c => 2 ≤ c.target % 256) ∧
    Meets 0x1701 1 [] (fdb 1 id running) (fun s c => c.target % 256 = (1 : Fin 2).val ∧ busMode s.dev 1 ≠ 0) ∧
    Meets 0x1701 1 [] running (fun s c => c.target % 256 = (1 : Fin 2).val ∧ busMode s.dev 1 = 0 ∧ (busCh s.dev 1).rate = none) ∧
    Meets 0x1704 2 [] running (fun _ c => 2 ≤ c.target % 256) ∧
    Meets 0x1704 1 [1, 1, 1, 15] running (fun _ c => c.target % 256 = (1 : Fin 2).val ∧ byteAt c.payload 0 ≤ 1 ∧
      byteAt c.payload 1 ≤ 1 ∧ byteAt c.payload 2 ≤ 1 ∧ byteAt c.payload 3 ≤ 15 ∧
      (byteAt c.payload 3 ≤ 8 ∨ byteAt c.payload 1 = 1)) ∧
    Meets 0x1704 1 [0, 0, 0, 9] running (fun _ c => 8 < byteAt c.payload 3 ∧ byteAt c.payload 1 = 0) := by
  and_intros <;> first | exact meets (by decide +kernel) | decide +kernel

theorem witness_DuplicateTagIsNotExecuted :
    ∃ x, liveCmd (cmds (fun c => { c with live := [{ cmdOf 0x0001 0 [] with id := .host 0 }] }) running).dev
      (.host ((headEntry (cmds (fun c => { c with live := [{ cmdOf 0x0001 0 [] with id := .host 0 }] }) running) 3).headD 0)) = some x :=
  ⟨_, rfl⟩

theorem witness_AgcEventOncePerEntry :
    let s := param kGnsEnable 0 1 running
    gnsSamples s.dev = true ∧ magPct (pget s.dev kGnsIfFmt 0) #v[86, 7, 0, 7] = 14 ∧ (14 < 15 ∨ 50 < 14) ∧
    magPct (pget s.dev kGnsIfFmt 0) #v[49, 51, 0, 0] = 51 ∧ (51 < 15 ∨ 50 < 51) ∧ s.dev.gns.agcOut.get 1 = false ∧
    (gns (fun g => { g with agcOut := g.agcOut.set 1 true }) s).dev.gns.agcOut.get 1 = true ∧
    gnsSamples running.dev = false := by decide

theorem witness_VfldHighEvent :
    (running.dev.pwr.vfldHigh = false ∧ 33000 < 33001) ∧
    ((pwr (fun p => { p with vfldHigh := true }) running).dev.pwr.vfldHigh = true ∧ 32499 < 32500) ∧
    ((running.dev.pwr.vfldHigh = false → 33000 ≤ 33000) ∧ (running.dev.pwr.vfldHigh = true → 32500 ≤ 33000)) := by decide

/-- The receiver on, tracking channel 31 changed. -/
def tracking (f : GnsCh → GnsCh) : State := onDev (gchMod 31 f) (param kGnsEnable 0 1 running)

/-- A solution with so many satellites that passes its checks. -/
def solution (sats : Nat) : GnsSol where
  e := 0
  sysOfs := Vector.replicate 3 0
  freq := 0
  pos := Vector.replicate 3 0
  surveySigma := 0
  sats := sats
  dual := 0
  systems := 1
  tdop := 0
  sigmaT := 0
  passes := true
  excluded := []
  utc := Vector.replicate 3 none
  fitY0 := 0
  fitA := 0
  fitC := 0
  fitSigmaY := 0
  fitSigmaTheta := 0

/-- A navigation unit of 9 bits on channel 31. -/
def unit31 : NavUnit := { ch := 31, signal := 0, bits := 9, data := [1, 0x80], passed := true, dt := 0 }

theorem witness_SatelliteSignals :
    let s := tracking id
    let weak : Vector GnsLock 2 := Vector.replicate 2 { GnsLock.reset with weak := 10000 }
    let u := tracking fun c => { c with used := true, bands := 3, lock := weak }
    (∃ n : Fin 32, gnsTracks s.dev = true ∧ bitOf (pget s.dev kGnsSystems 0) (0 : Fin 3) = true ∧ (63 : Fin 64) ≠ 0 ∧
      pget s.dev kGnsElevMask 0 ≤ 10 ∧
      (∀ p ∈ gnsUsed s.dev, p.2.system ≠ (0 : Fin 3).val ∨ p.2.sv ≠ (63 : Fin 64).val) ∧
      (3 : Fin 4).val &&& pget s.dev kGnsBands 0 ≠ 0 ∧ (gnsUsed s.dev).length < chLimit s.dev ∧
      (s.dev.gns.chans.get n).used = false ∧ ∀ m, m < n → (s.dev.gns.chans.get m).used = true) ∧
    gnsTracks running.dev = false ∧
    gnsTracks (boundary gnsHook (fun w => w.bnd == .gnsEpoch) running.dev) = false ∧
    (let d := boundary gnsHook (fun w => w.bnd == .gnsEpoch) s.dev
     gnsTracks d = true ∧ solValid d (solution 6) = true ∧ solValid d (solution 5) = false ∧ d.gns.tq ≠ 1) ∧
    (gnsTracks u.dev = true ∧ (u.dev.gns.chans.get unit31.ch).used = true ∧
      bitOf (pget (param kGnsOut 0 2 u).dev kGnsOut 0) 1 = true) ∧
    (s.dev.gns.chans.get unit31.ch).used = false ∧
    ((-100 : Int).natAbs ≤ 100 ∧ 100 < (-101 : Int).natAbs ∧ 800 < 801 ∧ 800 ≤ 800) ∧
    ((u.dev.gns.chans.get 31).used = true ∧ 10000 ≤ ((u.dev.gns.chans.get 31).lock.get 0).weak ∧
      (u.dev.gns.chans.get 31).bands = 3) ∧
    (let v := tracking fun c => { c with used := true, bands := 2, lock := weak }
     (v.dev.gns.chans.get 31).used = true ∧ 10000 ≤ ((v.dev.gns.chans.get 31).lock.get 1).weak ∧
      (v.dev.gns.chans.get 31).bands = 2 ^ (1 : Fin 2).val) ∧
    ((s.dev.gns.chans.get 31).lock.get 0).weak < 10000 := by
  and_intros <;> first | exact ⟨0, by decide +kernel⟩ | decide +kernel

theorem witness_DeviceTimeEvents :
    let due := gns (fun g => { g with due := some (fsPerS, 5) }) running
    let pulse := param kGnsPulseHz 0 1 running
    let on := param kGnsEnable 0 1 running
    let lost := gns (fun g => { g with lost := g.lost.set 1 true, goodCounts := g.goodCounts.set 1 9 }) on
    (let s := onDev (fun d => { d with time := { d.time with tick := 3000 } }) (gns (fun g => { g with tq := 3, lastValid := 1 }) running)
     s.dev.gns.tq = 3 ∧ s.dev.time.tick - s.dev.gns.lastValid < 3000 ∧ 3000 ≤ s.dev.time.tick - s.dev.gns.lastDual) ∧
    (let s := gns (fun g => { g with tq := 3 }) running
     s.dev.time.tick - s.dev.gns.lastValid < 3000 ∧ s.dev.time.tick - s.dev.gns.lastDual < 3000) ∧
    (let s := onDev (fun d => { d with time := { d.time with tick := 3000 } }) (gns (fun g => { g with tq := 3 }) running)
     2 ≤ s.dev.gns.tq ∧ 3000 ≤ s.dev.time.tick - s.dev.gns.lastValid) ∧
    running.dev.gns.tq < 2 ∧
    running.dev.gns.due = none ∧ (due.dev.gns.due = some (fsPerS, 5) ∧ due.dev.time.nextDt ≤ fsPerS) ∧
    (let s := onDev (fun d => { d with time := { d.time with nextDt := fsPerS + 1 } }) due
     s.dev.gns.due = some (fsPerS, 5) ∧ fsPerS < s.dev.time.nextDt) ∧
    ((gns (fun g => { g with tq := 1 }) running).dev.gns.tq = 1 ∧ running.dev.gns.tq ≠ 1) ∧
    (pget (param kGnsPulseHz 0 0 running).dev kGnsPulseHz 0 = 0 ∧ pget pulse.dev kGnsPulseHz 0 ≠ 0) ∧
    (let s := param kGnsPulseHz 0 1 due
     s.dev.gns.due = some (((1 : Nat) : Int) * (fsPerS / pget s.dev kGnsPulseHz 0) + pgetI s.dev kGnsPulseOfs 0 * 100000, 5)) ∧
    (pulse.dev.gns.due = none ∧ pulse.dev.gns.lastPulse = none ∧
      (let d := boundary gnsHook (fun w => w.bnd == .pulse) pulse.dev
       pget d kGnsPulseMinTq 0 ≤ d.gns.tq)) ∧
    (let s := param kGnsPulseMinTq 0 1 pulse
     let d := boundary gnsHook (fun w => w.bnd == .pulse) s.dev
     s.dev.gns.due = none ∧ s.dev.gns.lastPulse = none ∧ d.gns.tq < pget d kGnsPulseMinTq 0) ∧
    (gnsSamples on.dev = true ∧ (39995 < 39996 ∨ 40004 < 39995) ∧ (40005 < 39996 ∨ 40004 < 40005) ∧
      on.dev.gns.lost.get 1 = false) ∧
    (gnsSamples lost.dev = true ∧ lost.dev.gns.lost.get 1 = true ∧ lost.dev.gns.goodCounts.get 1 = 9 ∧
      lost.dev.gns.goodCounts.get 0 ≠ 9) ∧
    gnsSamples running.dev = false ∧
    Meets 0x1802 0 (le 8 5 ++ le 4 1) (gns (fun g => { g with tq := 1 }) running) (fun s _ => s.dev.gns.tq ≠ 0) ∧
    Meets 0x1802 0 (le 8 5 ++ le 4 1000000001) running (fun s c => s.dev.gns.tq = 0 ∧
      (field c.payload 8 4 = 0 ∨ 1000000000 < field c.payload 8 4)) ∧
    Meets 0x1802 0 (le 8 5 ++ le 4 1000000000) running (fun s c => s.dev.gns.tq = 0 ∧ field c.payload 8 4 ≠ 0 ∧
      field c.payload 8 4 ≤ 1000000000) ∧
    Meets 0x1803 0 [] running (fun _ _ => True) := by
  and_intros <;> first | exact meets (by decide +kernel) | decide +kernel

/-- The snapshot buffer in a state, with the receiver on. -/
def snapIn (st : Nat) (f : SnapSt → SnapSt) : State :=
  gns (fun g => { g with snap := f { g.snap with st := st } }) (param kGnsEnable 0 1 running)

theorem witness_SnapshotCaptures :
    let range (c : Cmd) : Prop := 2 < byteAt c.payload 0 ∨ 1 < byteAt c.payload 1 ∨ field c.payload 2 2 < 10 ∨
      (if byteAt c.payload 0 = 0 then 128 else 256) < field c.payload 2 2 ∨ 1 < byteAt c.payload 4
    let miss (s : State) (c : Cmd) : Prop :=
      let need := if byteAt c.payload 0 = 0 then 3 else byteAt c.payload 0
      need &&& pget s.dev kGnsBands 0 ≠ need ∨ pget s.dev kGnsEnable 0 = 0 ∨
        (byteAt c.payload 0 ≠ 2 ∧ s.dev.gns.lost.get 0 = true) ∨ (byteAt c.payload 0 ≠ 1 ∧ s.dev.gns.lost.get 1 = true)
    Meets 0x1804 0 [0, 0, 129, 0, 0] (snapIn 0 id) (fun _ c => range c) ∧
    Meets 0x1804 0 [2, 0, 0, 1, 0] (snapIn 1 id) (fun s c => ¬ range c ∧ s.dev.gns.snap.st ≠ 0) ∧
    Meets 0x1804 0 [2, 0, 0, 1, 0] running (fun s c => ¬ range c ∧ s.dev.gns.snap.st = 0 ∧ miss s c) ∧
    Meets 0x1804 0 [0, 1, 128, 0, 1] (gns (fun g => { g with hold := true }) (snapIn 0 id)) (fun s c =>
      ¬ range c ∧ s.dev.gns.snap.st = 0 ∧ ¬ miss s c ∧ byteAt c.payload 1 = 1 ∧ s.dev.gns.hold = true) ∧
    Meets 0x1804 0 [0, 1, 128, 0, 1] (snapIn 0 id) (fun s c => ¬ range c ∧ s.dev.gns.snap.st = 0 ∧ ¬ miss s c ∧
      (byteAt c.payload 1 = 0 ∨ s.dev.gns.hold = false)) ∧
    Meets 0x1805 0 [] (snapIn 3 id) (fun s _ => s.dev.gns.snap.st = 1 ∨ s.dev.gns.snap.st = 3) ∧
    Meets 0x1805 0 [] (snapIn 2 id) (fun s _ => s.dev.gns.snap.st ≠ 1 ∧ s.dev.gns.snap.st ≠ 3) ∧
    (let s := snapIn 1 id
     s.dev.gns.snap.st = 1 ∧ s.dev.gns.snap.begun = false ∧ gnsSamples s.dev = true) ∧
    gnsSamples running.dev = false ∧ snapRuns (snapIn 1 fun x => { x with begun := true }).dev = true ∧
    snapRuns running.dev = false ∧
    (let s := snapIn 3 id
     s.dev.gns.snap.st = 3 ∧ s.dev.gns.snap.desc = none) ∧
    running.dev.gns.snap.st ≠ 3 := by
  and_intros <;> first | exact meets (by decide +kernel) | decide +kernel

/-- What the self-test of the field die finds when nothing is wrong. -/
def allGood : FieldTest := { pins := 0, valves := 0, mods := 0, highs := 0, excs := 0, uncal := 0, pairStore := false }

theorem witness_ResetsAndStartUp :
    let dark := pwr (fun p => { p with powered := false }) State.reset
    let low := pwr (fun p => { p with lowPower := true }) running
    (dark.dev.pwr.powered = false ∧ dark.dev.hlt.ctlLatch = false) ∧
    (hlt (fun h => { h with ctlLatch := true }) dark).dev.hlt.ctlLatch = true ∧ running.dev.pwr.powered = true ∧
    running.dev.pwr.lowPower = false ∧ low.dev.pwr.lowPower = true ∧
    running.dev.host.stage ≠ 0 ∧
    (State.reset.dev.pwr.powered = true ∧ State.reset.dev.host.limp = false ∧ State.reset.dev.host.stage = 0 ∧
      State.reset.dev.host.bootMode ≠ 3 ∧ State.reset.dev.host.loaderNext = false ∧
      State.reset.dev.hlt.fieldLatch = false) ∧
    (hst (fun h => { h with bootMode := 3 }) State.reset).dev.host.bootMode = 3 ∧
    ((if State.reset.dev.cmd.fw.nextBank then true else false) = false ∧
      (if State.reset.dev.cmd.fw.nextBank then false else true) = true ∧ false = State.reset.dev.cmd.fw.nextBank) ∧
    (let s := lft (fun l => { l with up := .out 0 0 }) (hst (fun h => { h with stage := 0x30 }) running)
     s.dev.host.stage = 0x30 ∧ s.dev.lift.up.inLock = false) ∧
    running.dev.pwr.fieldUp = true ∧
    (let s := pwr (fun p => { p with fieldUp := false }) running
     s.dev.pwr.fieldUp = false ∧ s.dev.hlt.fieldLatch = false ∧ s.dev.pwr.fStep ≠ 5 ∧ downOn s.dev = true ∧
       s.dev.host.stage ≠ 0x30) ∧
    (running.dev.pwr.fieldPow = true ∧ State.reset.dev.pwr.fieldPow = false) := by decide

theorem witness_SleepAndWake :
    let asked (s : State) (c : Cmd) : Option (Nat × Nat) × Dev := sleepAsk c.id (field c.payload 0 2) (field c.payload 2 2) askOrder
      (begin_ c.id (pwrMod (fun p =>
        { p with stopped := [], enterD6 := none, enterD1 := none, sleepSlot := false, sleepCmd := some c.id }) (groomAbandon true s.dev)))
    let ret := pwr (fun p => { p with dom := p.dom.set 3 3 }) running
    let boot := hst (fun h => { h with stage := 0x40 }) running
    Meets 0x1901 0 (le 2 1 ++ le 2 0) running (fun s c =>
      sleepRange (groomAbandon true s.dev) (field c.payload 0 2) (field c.payload 2 2) = true) ∧
    Meets 0x1901 0 (le 2 8 ++ le 2 0) running (fun s c =>
      sleepRange (groomAbandon true s.dev) (field c.payload 0 2) (field c.payload 2 2) = false ∧ (asked s c).1 = none) ∧
    (∃ n why, Meets 0x1901 0 (le 2 4 ++ le 2 0) (loop 63 .run running) fun s c =>
      sleepRange (groomAbandon true s.dev) (field c.payload 0 2) (field c.payload 2 2) = false ∧ (asked s c).1 = some (n, why)) ∧
    (running.dev.pwr.sleepSlot = false ∧ (pwr (fun p => { p with sleepSlot := true }) running).dev.pwr.sleepSlot = true) ∧
    Meets 0x1902 0 (le 2 2048) running (fun _ c => 2 ^ 11 ≤ field c.payload 0 2) ∧
    Meets 0x1902 0 (le 2 256) (pwr (fun p => { p with fStep := 4 }) running) (fun s c => field c.payload 0 2 < 2 ^ 11 ∧
      (bitOf (field c.payload 0 2) 8 && (field c.payload 0 2 != 0 || vAt s.dev.pwr.pads 8 false)) = true ∧
      releaseBarred s.dev = true) ∧
    Meets 0x1902 0 (le 2 0) running (fun s c => field c.payload 0 2 = 0 ∧ vAt s.dev.pwr.pads 8 false = false) ∧
    Meets 0x1902 0 (le 2 256) running (fun s c => bitOf (field c.payload 0 2) 8 = true ∧ releaseBarred s.dev = false ∧
      s.dev.pwr.hold = false) ∧
    (let s := param kPwrWakeSrc 0 1 (pwr (fun p => { p with stopped := [(6, 1)], dom := p.dom.set 6 1 }) running)
     s.dev.pwr.stopped ≠ [] ∧ wakeEnabled s.dev 0 = true) ∧
    running.dev.pwr.stopped = [] ∧ (pwr (fun p => { p with lowPower := true }) running).dev.pwr.lowPower = true ∧
    running.dev.pwr.lowPower = false ∧ attempting running.dev = false ∧
    (attempting boot.dev = true ∧ boot.dev.pwr.wakeRetry < 3) ∧
    (let s := pwr (fun p => { p with wakeRetry := 3 }) boot
     attempting s.dev = true ∧ 3 ≤ s.dev.pwr.wakeRetry) ∧
    domState running.dev (10 : Fin 11) ≠ 3 ∧ (domState ret.dev (3 : Fin 11) = 3 ∧ vAt ret.dev.pwr.domRetry (3 : Fin 11) 0 < 3) ∧
    (let s := pwr (fun p => { p with domRetry := p.domRetry.set 3 3 }) ret
     domState s.dev (3 : Fin 11) = 3 ∧ 3 ≤ vAt s.dev.pwr.domRetry (3 : Fin 11) 0 ∧ (3 : Fin 11) ≠ 1) := by
  and_intros <;> first
    | exact meets (by decide +kernel)
    | exact ⟨2, 1, meets (by decide +kernel)⟩
    | decide +kernel

theorem witness_SideslipLadders :
    let f (n : Nat) := pwr (fun p => { p with fStep := n }) running
    let l (n : Nat) := pwr (fun p => { p with lStep := n }) running
    5 ≤ (f 5).dev.pwr.fStep ∧ fieldThreshold ((f 0).dev.pwr.fStep + 1) ≤ 19000 ∧
    ((f 3).dev.pwr.fStep < 5 ∧ (f 3).dev.pwr.fieldPow = true ∧ 13999 < fieldThreshold ((f 3).dev.pwr.fStep + 1) ∧
      (f 4).dev.pwr.fStep < 5 ∧ 11999 < fieldThreshold ((f 4).dev.pwr.fStep + 1)) ∧
    ((f 0).dev.pwr.fStep = 0 ∧ 12499 < fieldThreshold (f 5).dev.pwr.fStep + 500) ∧
    ((f 5).dev.pwr.fStep ≠ 0 ∧ fieldThreshold (f 5).dev.pwr.fStep + 500 ≤ 12500) ∧
    ((f 2).dev.pwr.fStep < 3 ∧ (3 : Fin 4) ≠ 0 ∧ 3 ≤ (f 3).dev.pwr.fStep ∧ (f 3).dev.pwr.shed.get 3 = false) ∧
    (let s := pwr (fun p => { p with f3Ended := true, shed := p.shed.set 3 true }) (f 2)
     s.dev.pwr.f3Ended = true ∧ s.dev.pwr.fStep < 3 ∧ s.dev.pwr.shed.get 3 = true) ∧
    (f 2).dev.pwr.f3Ended = false ∧
    (5 ≤ (l 5).dev.pwr.lStep ∧ logicThreshold ((l 0).dev.pwr.lStep + 1) ≤ 3100) ∧
    ((l 0).dev.pwr.lStep < 4 ∧ (l 0).dev.pwr.powered = true ∧ 3099 < logicThreshold ((l 0).dev.pwr.lStep + 1) ∧
      (l 3).dev.pwr.lStep < 4 ∧ 2849 < logicThreshold ((l 3).dev.pwr.lStep + 1)) ∧
    ((l 4).dev.pwr.lStep = 4 ∧ (l 4).dev.pwr.powered = true ∧ 2749 < logicThreshold 5) ∧
    ((l 0).dev.pwr.lStep = 0 ∧ 3149 < logicThreshold (l 1).dev.pwr.lStep + 50) ∧
    ((l 1).dev.pwr.lStep ≠ 0 ∧ (l 4).dev.pwr.lStep ≤ 4 ∧ logicThreshold (l 4).dev.pwr.lStep + 50 ≤ 2900) := by decide

/-- A housekeeping round with ROOT at this frequency. -/
def round (khz : Nat) : HouseRound := { temps := Vector.replicate 6 2500, vlogMv := 3300, refs := Vector.replicate 3 0, rootKhz := khz, sramFixed := 0, flashFixed := 0 }

/-- A unit of R550 in a state. -/
def unitIn (u : Fin 52) (st : Nat) (s : State) : State := hlt (fun h => { h with units := vMod h.units u fun x => { x with st := st } }) s

theorem witness_HealthEvents :
    let dark := pwr (fun p => { p with powered := false }) State.reset
    let slow := hlt (fun h => { h with clockRounds := 1 }) running
    let cap := hlt (fun h => { h with capOn := true, thrStep := 3, capLevel := 3, capMargin := 1000 }) running
    let alone := unitIn 2 3 running
    dark.dev.pwr.powered = false ∧ (running.dev.pwr.powered = true ∧ clockFails (round 960000) running.dev = false) ∧
    (clockFails (round 940799) slow.dev = true ∧ (slow.dev.hlt.causes.get 1 = true → slow.dev.hlt.demand = true)) ∧
    running.dev.hlt.capOn = false ∧
    (cap.dev.hlt.capOn = true ∧ 3 ≤ cap.dev.hlt.thrStep ∧ cap.dev.hlt.margin < cap.dev.hlt.capMargin + 100 ∧
      (if anyLoopRuns cap.dev then 1 else 0) < cap.dev.hlt.capLevel) ∧
    (let s := hlt (fun h => { h with margin := 1100 }) cap
     s.dev.hlt.capMargin + 100 ≤ s.dev.hlt.margin) ∧
    (let s := hlt (fun h => { h with thrStep := 2 }) cap
     s.dev.hlt.capOn = true ∧ s.dev.hlt.thrStep < 3) ∧
    (mismatchSeen dark.dev = false ∧ mismatchSeen running.dev = true ∧ mismatchPersists false running.dev = false ∧
      mismatchPersists true running.dev = true) ∧
    (running.dev.pwr.powered = true ∧ standby running.dev = some 2) ∧
    (standby alone.dev = none ∧ (alone.dev.hlt.causes.get 0 = true → alone.dev.hlt.demand = true)) ∧
    (hlt (fun h => { h with patrolLost := true }) running).dev.hlt.patrolLost = true ∧
    (let s := onDev (fun d => { d with time := { d.time with tick := 3600000 } })
       (hlt (fun h => { h with patrolRestart := some 0 }) running)
     s.dev.hlt.patrolLost = false ∧ s.dev.hlt.patrolRestart = some 0 ∧ s.dev.time.tick - 0 ≤ 3600000) ∧
    (running.dev.hlt.patrolLost = false ∧ running.dev.hlt.patrolRestart = none) ∧
    ((5 : Fin 9) = 4 ∨ (5 : Fin 9) = 5) ∧ ((7 : Fin 9) = 6 ∨ ((7 : Fin 9) = 7 ∧ true = true)) ∧
    (unitOf running.dev (51 : Fin 52)).st ≠ 2 ∧
    (let s := unitIn 51 2 running
     (unitOf s.dev (51 : Fin 52)).st = 2 ∧ s.dev.hlt.patrolLost = false ∧ (unitOf s.dev (51 : Fin 52)).again = false ∧
       3 ≤ (51 : Fin 52).val) ∧
    (let s := hlt (fun h => { h with units := vMod h.units 51 fun x => { x with again := true } }) (unitIn 51 2 running)
     (unitOf s.dev (51 : Fin 52)).st = 2 ∧ (unitOf s.dev (51 : Fin 52)).again = true) := by decide +kernel

theorem witness_GroomingShutdownAndFlash :
    let due := hlt (fun h => { h with groomBoot := true }) running
    let run := hlt (fun h => { h with groomRun := true }) running
    let op : FlashOp := { cmd := some (.host 5), kind := 0, ref := 0, result := [], wr := none }
    (due.dev.hlt.groomRun = false ∧ groomDeferred due.dev = false ∧ groomDue due.dev = true ∧ due.dev.host.stage = 0x80) ∧
    groomDue running.dev = false ∧ (running.dev.hlt.groomRun = false ∧ run.dev.hlt.groomRun = true) ∧
    Meets 0x1A02 0 [] run (fun s _ => s.dev.hlt.groomRun = true ∨ s.dev.hlt.groomCmd.isSome = true) ∧
    Meets 0x1A02 0 [] running (fun s _ => s.dev.hlt.groomRun = false ∧ s.dev.hlt.groomCmd = none) ∧
    Meets 0x1A04 0 [] (hlt (fun h => { h with causes := h.causes.set 2 true, echoCycles := 8 }) running) (fun s _ =>
      ∃ k, s.dev.hlt.causes.get k = true ∧ causeHolds s.dev k = true) ∧
    Meets 0x1A04 0 [] (hlt (fun h => { h with causes := h.causes.set 2 true, echoCycles := 7, demand := true }) running) (fun s _ =>
      ∀ k, s.dev.hlt.causes.get k = true → causeHolds s.dev k = false) ∧
    ((pwr (fun p => { p with powered := false }) State.reset).dev.pwr.powered = false ∧ running.dev.pwr.powered = true ∧
      State.reset.dev.pwr.fieldPow = false ∧ running.dev.pwr.fieldPow = true) ∧
    running.dev.hlt.flash = [] ∧
    (let s := hlt (fun h => { h with flash := [op] }) running
     s.dev.hlt.flash = op :: [] ∧ flashRuns s.dev = true ∧ op.kind ≠ 5 ∧ op.cmd = some (.host 5) ∧
       { op with cmd := none }.cmd = none ∧ { op with kind := 5 }.kind = 5) ∧
    (domOn State.reset.dev 5 = false ∧ domOn running.dev 5 = true ∧ running.dev.pwr.lStep < 3) := by
  and_intros <;> first | exact meets (by decide +kernel) | decide +kernel

/-- A closed lot whose event has its bib. -/
def closedLot : Lot := { (openLot 1 3 1 0 0 0 0 running.dev).1 with closeBib := some (7, 0) }

/-- `enrolRefusal d req = none` asks for an ECDSA signature over the part's opaque fingerprint, so no numeral shows it; what it
asks of the key and the nonce can be shown. -/
theorem witness_IdentityCommands :
    let lot := svc (fun v => { v with closed := [closedLot] }) running
    (∀ l ∈ running.dev.svc.closed, l.closeBib = none) ∧
    (lot.dev.svc.closed.find? (fun l => l.closeBib.isSome) = some closedLot ∧ lot.dev.pwr.lStep < 3) ∧
    Meets 0x1B01 0 (List.replicate 32 1) (onDev (fun d => { d with idn := { d.idn with keyFault := true } }) running) (fun s _ =>
      s.dev.idn.keyFault = true) ∧
    Meets 0x1B01 0 (List.replicate 32 1) running (fun s _ => s.dev.idn.keyFault = false) ∧
    Meets 0x1B03 0 [] flashBusy (fun s _ => ¬ Free s) ∧
    (∃ r, Meets 0x1B03 0 [] (onDev (fun d => { d with idn := { d.idn with keyFault := true } }) running) fun s _ => Free s ∧
      enrolRefusal (atBoundary (fun w => w.bnd == .enrol) s.dev)
        (padTo 224 (pbytes (atBoundary (fun w => w.bnd == .enrol) s.dev) kIdnEnrolReq 0)) = some r) ∧
    Meets 0x1B05 0 [] running (fun _ _ => True) := by
  and_intros <;> first
    | exact meets (by decide +kernel)
    | exact ⟨⟨stIntegrity, 0⟩, meets ⟨by decide, rfl⟩⟩
    | decide +kernel

end Sys2Proof.Tests
end

section
/-!
Access to a parameter that is not there, and the reading of one that is (R8, R9, R14, R42, R90, R91, R93).
-/
namespace Sys2Proof.Machine

/-! ## A ready command runs its row's meaning -/

/-- A row without ring writes moves the device by its meaning. -/
theorem quiet_of_ready {s : State} {id : CmdId} {op : Nat} {c : Cmd} (h : Ready s id op c) (f : Cmd → Dev → Dev) :
    quiet (withCmd op id f) s = .next { s with dev := f c s.dev } := by
  obtain ⟨hlive, hop, hstart⟩ := h
  rw [quiet_next, withCmd_runs hlive hop hstart]

/-- A row with ring writes moves the device by its meaning, and the ring writes follow. -/
theorem loud_of_ready {s : State} {id : CmdId} {op : Nat} {c : Cmd} (h : Ready s id op c) (f : Cmd → Dev → Dev) :
    loud (withCmd op id f) s = .next (settle { s with dev := f c s.dev }) := by
  obtain ⟨hlive, hop, hstart⟩ := h
  rw [loud_next, withCmd_runs hlive hop hstart]

section
variable {s : State} {id : CmdId} {c : Cmd}

theorem paramRead_moves (h : Ready s id 0x0100 c) : Moves (.paramRead id) s (cmdParamRead c s.dev) :=
  quiet_of_ready h _

theorem paramInfo_moves (h : Ready s id 0x0104 c) : Moves (.paramInfo id) s (cmdParamInfo c s.dev) :=
  quiet_of_ready h _

theorem paramWrite_settles (h : Ready s id 0x0101 c) : Settles (.paramWrite id) s (cmdParamWrite c s.dev) :=
  loud_of_ready h _

theorem paramWritePaired_settles (h : Ready s id 0x0102 c) :
    Settles (.paramWritePaired id) s (cmdParamWritePaired c s.dev) :=
  loud_of_ready h _

theorem paramWriteBlob_settles (h : Ready s id 0x0103 c) : Settles (.paramWriteBlob id) s (cmdParamWriteBlob c s.dev) :=
  loud_of_ready h _

end

/-! ## Addresses that name no parameter (R8) -/

/-- A reserved subsystem code has no parameters (R3). -/
theorem paramTable_reserved {sub : Nat} (h : 13 ≤ sub) : paramTable sub = [] := by
  obtain ⟨k, rfl⟩ := Nat.exists_eq_add_of_le' h
  rfl

theorem findDef_reserved {a : Nat} (h : 13 ≤ a / 2 ^ 20) : findDef a = none := by
  rw [findDef, paramTable_reserved h, List.find?_nil]

theorem findDef_eq_none_iff (a : Nat) : findDef a = none ↔ ∀ p ∈ paramTable (a / 2 ^ 20),
    ¬(p.key ≤ keyOf a ∧ keyOf a < p.key + p.keys ∧ instOk p (instOf a) = true) := by
  simp only [findDef, List.find?_eq_none, Bool.and_eq_true, decide_eq_true_eq, and_assoc]

theorem writeCheck_undefined {a : Nat} (h : findDef a = none) (d : Dev) (op : Nat) (ws : List Word) :
    writeCheck d op a ws = some ⟨stRange, 0⟩ := by
  rw [writeCheck, h]

theorem batchCheck_undefined {a : Nat} (h : findDef a = none) (d : Dev) (b : Batch) (op : Nat) (ws : List Word) :
    batchCheck d b op a ws = some ⟨stRange, 0⟩ := by
  rw [batchCheck, h]

/-! ## A write refused before it is whole (R90, R91) -/

section
variable {c : Cmd} (r : Refuse) {d : Dev}

theorem refuseWrite_outside (h : c.flags % 2 = 0) : refuseWrite c r d = complete c r.status r.detail [] d := by
  rw [refuseWrite, if_pos h, refuse]

theorem refuseWrite_inBatch {b : Batch} (h : c.flags % 2 = 1) (hb : batchOf d c.batchId = some b) :
    refuseWrite c r d = complete c r.status r.detail [] (batchMod b.id (fun x => { x with failed := true }) d) := by
  rw [refuseWrite, if_neg (by omega), hb]
  rfl

theorem refuseWrite_noBatch (h : c.flags % 2 = 1) (hb : batchOf d c.batchId = none) :
    refuseWrite c r d = refuse c (noBatch d c.batchId) d := by
  rw [refuseWrite, if_neg (by omega), hb]

end

/-! ## The commands on an address that names no parameter -/

section
variable {c : Cmd}

/-- A whole write to no parameter is refused as one that is not yet whole. -/
theorem writeWhole_undefined {a : Nat} (h : findDef a = none) (ws : List Word) (d : Dev) :
    writeWhole c a ws d = refuseWrite c ⟨stRange, 0⟩ d := by
  rcases Nat.mod_two_eq_zero_or_one c.flags with hf | hf
  · simp only [writeWhole, refuseWrite, hf, writeCheck_undefined h]
    rfl
  · simp only [writeWhole, refuseWrite, hf, batchWrite, batchCheck_undefined h]
    rfl

variable (h : findDef (targetAddr c) = none) (d : Dev)
include h

theorem cmdParamRead_undefined : cmdParamRead c d = complete c stRange 0 [] d := by
  simp only [cmdParamRead, h, refuse]

theorem cmdParamInfo_undefined : cmdParamInfo c d = complete c stRange 0 [] d := by
  simp only [cmdParamInfo, h, refuse]

theorem cmdParamWrite_undefined : cmdParamWrite c d = refuseWrite c ⟨stRange, 0⟩ d :=
  writeWhole_undefined h _ d

theorem cmdParamWritePaired_undefined : cmdParamWritePaired c d = refuseWrite c ⟨stRange, 0⟩ d :=
  writeWhole_undefined h _ d

theorem cmdParamWriteBlob_undefined : cmdParamWriteBlob c d = refuseWrite c ⟨stRange, 0⟩ d := by
  simp only [cmdParamWriteBlob, h]

end

/-- The three write commands on an address that names no parameter, where such a write is refused as `t`. -/
theorem writes_undefined {s : State} {id : CmdId} {c : Cmd} {t : Dev} (h : findDef (targetAddr c) = none)
    (ht : refuseWrite c ⟨stRange, 0⟩ s.dev = t) :
    (Ready s id 0x0101 c → Settles (.paramWrite id) s t) ∧ (Ready s id 0x0102 c → Settles (.paramWritePaired id) s t) ∧
      (Ready s id 0x0103 c → Settles (.paramWriteBlob id) s t) := by
  subst ht
  refine ⟨fun hr => ?_, fun hr => ?_, fun hr => ?_⟩
  · simpa only [cmdParamWrite_undefined h] using paramWrite_settles hr
  · simpa only [cmdParamWritePaired_undefined h] using paramWritePaired_settles hr
  · simpa only [cmdParamWriteBlob_undefined h] using paramWriteBlob_settles hr

/-! ## Reading a parameter (R93) -/

/-- The RESULT of `PARAM_READ` of a parameter whose value has the size of its type: two words, class, type, size and the
tick of the last change. -/
def readResult (p : PDef) (v w : Word) (tick : Nat) : List Byte :=
  le 4 v.toNat ++ le 4 w.toNat ++ le 1 p.cls.code ++ le 1 p.ty.code ++ le 2 p.ty.words ++ le 8 tick

/-- The tick of the last change of a LIVE or STAGED parameter; 0 for one never written. -/
def writtenTick (d : Dev) (a : Nat) : Nat := ((d.cmd.params.find? fun e => e.1 = a).map (·.2.tick)).getD 0

section
variable {c : Cmd} {p : PDef} (hp : findDef (targetAddr c) = some p) (d : Dev)
include hp

/-- A PAIRED parameter is read after its check and repair (R46). -/
theorem cmdParamRead_paired (hc : p.cls = .paired) :
    let e := pairFix 6 (targetAddr c) d
    let q := pairOf e (targetAddr c)
    cmdParamRead c d = complete c stOk 0 (readResult p (q.prim.headD (0, 0)).1 (q.prim.headD (0, 0)).2 q.tick) e := by
  simp only [cmdParamRead, hp, hc, readResult]
  rfl

/-- A READ parameter answers its current words. -/
theorem cmdParamRead_read (hc : p.cls = .read) :
    cmdParamRead c d = complete c stOk 0 (readResult p ((readWords d (targetAddr c)).headD 0)
      ((readWords d (targetAddr c)).getD 1 0) (readTick d (targetAddr c))) d := by
  simp only [cmdParamRead, hp, hc, readResult]
  rfl

/-- A LIVE or STAGED parameter of one word answers it, with 0 beside it. -/
theorem cmdParamRead_written (hc : p.cls = .live ∨ p.cls = .staged) (hb : p.ty.isBlob = false)
    (hs : isCoefSet (targetAddr c) = false) :
    cmdParamRead c d = complete c stOk 0
      (readResult p ((pwords d (targetAddr c)).headD 0) 0 (writtenTick d (targetAddr c))) d := by
  rcases hc with hc | hc <;>
    cases ht : d.cmd.params.find? fun e => e.1 = targetAddr c <;>
    simp [cmdParamRead, hp, hc, hb, hs, readResult, writtenTick, ht, stOk]

end

/-- A pair valid and equal in both copies needs no repair. -/
theorem pairFix_sound {port : Fin 8} {a : Nat} {d : Dev} (hv : pairsValid (pairOf d a).prim = true)
    (he : (pairOf d a).shad = (pairOf d a).prim) : pairFix port a d = d := by
  simp only [pairFix, he, hv, if_true]

/-- A class that is neither PAIRED nor READ is LIVE or STAGED (R9). -/
theorem PClass.live_or_staged {k : PClass} (hp : k ≠ .paired) (hr : k ≠ .read) : k = .live ∨ k = .staged := by
  cases k <;> simp_all

end Sys2Proof.Machine

namespace Sys2Proof

open Machine

/-- Settles O14: the three writes come down to one refusal, `refuseWrite`, whose three branches are the three clauses. -/
theorem undefinedAddressIsRefused : Obligations.UndefinedAddressIsRefused := by
  refine ⟨fun a => findDef_reserved, findDef_eq_none_iff, fun s id c h => ?_⟩
  refine ⟨fun hr => ?read, fun hr => ?info, fun hr hf => ?blob, fun hr hf => ?word, fun hr hf => ?paired,
    fun b hb hf => ?inBatch, fun hb hf => ?noBatch⟩
  case read =>
    have hm := paramRead_moves hr
    rwa [cmdParamRead_undefined h] at hm
  case info =>
    have hm := paramInfo_moves hr
    rwa [cmdParamInfo_undefined h] at hm
  case blob =>
    obtain ⟨-, -, hblob⟩ := writes_undefined h (refuseWrite_outside _ hf)
    exact hblob hr
  case word =>
    obtain ⟨hword, -, -⟩ := writes_undefined h (refuseWrite_outside _ hf)
    exact hword hr
  case paired =>
    obtain ⟨-, hpaired, -⟩ := writes_undefined h (refuseWrite_outside _ hf)
    exact hpaired hr
  case inBatch => exact writes_undefined h (refuseWrite_inBatch _ hf hb)
  case noBatch => exact writes_undefined h (refuseWrite_noBatch _ hf hb)

/-- Settles O15, by the class of the parameter. -/
theorem parameterReads : Obligations.ParameterReads := by
  intro s id c p hr hp
  have hm := paramRead_moves hr
  refine ⟨fun hc => ⟨?paired, fun hv he => pairFix_sound hv he⟩, fun hnp hnr hb hs => ?written, fun hc => ?read⟩
  case paired => rwa [cmdParamRead_paired hp _ hc] at hm
  case written => rwa [cmdParamRead_written hp _ (PClass.live_or_staged hnp hnr) hb hs] at hm
  case read => rwa [cmdParamRead_read hp _ hc] at hm

end Sys2Proof
end

section
/-!
The Lift: its frames, the tick APPLY, discards, silence and the Snowplough stop (R106-R131, R392, R522).
-/
namespace Sys2Proof.Machine

/-- What every round of a loop keeps, the loop keeps. -/
theorem forEach_keeps {α β : Type} {f : α → Dev → Dev} (g : Dev → β) (h : ∀ x d, g (f x d) = g d) (xs : List α) (d : Dev) :
    g (forEach xs f d) = g d := by
  induction xs generalizing d with
  | nil => rfl
  | cons x xs ih => exact (ih (f x d)).trans (h x d)

/-! ## A row runs its meaning -/

section
variable {i : Instr} {s : State} {t : Dev} (f : Dev → Dev)

/-- A row without ring writes moves the device by its meaning. -/
theorem moves_of_quiet (hx : exec i s = quiet f s) (h : f s.dev = t) : Moves i s t := by
  rw [Moves, hx, quiet_next, h]

/-- A row with ring writes moves the device by its meaning, and the ring writes follow. -/
theorem settles_of_loud (hx : exec i s = loud f s) (h : f s.dev = t) : Settles i s t := by
  rw [Settles, hx, loud_next, h]

/-- A row whose meaning leaves the device as it is has no effect. -/
theorem stays_of_quiet (hx : exec i s = quiet f s) (h : f s.dev = s.dev) : exec i s = .next s := by
  rw [hx, quiet_next, h]

end

/-! ## A receiver's next state (R106, R107) -/

section
variable {run last : Nat}

/-- In lock, a frame is used where it is good and its SEQ is the one expected. -/
@[simp] theorem lockNext_locked (x seq p : Nat) (good : Bool) :
    lockNext (.locked x) good seq p = (.locked ((x + p) % 4096), good && (x + p) % 4096 == seq) := rfl

/-- Out of lock, a bad frame ends the candidate run. -/
theorem lockNext_bad (run last seq p : Nat) : lockNext (.out run last) false seq p = (.out 0 0, false) := rfl

/-- A good frame that does not follow the last one starts a run. -/
theorem lockNext_starts {seq p : Nat} (h : run = 0 ∨ p ≠ 1 ∨ seq ≠ (last + 1) % 4096) :
    lockNext (.out run last) true seq p = (.out 1 seq, false) := by
  simp [lockNext, h]

/-- A good frame that follows the last one makes the run longer. -/
theorem lockNext_extends (h0 : run ≠ 0) (h : run < 3) :
    lockNext (.out run last) true ((last + 1) % 4096) 1 = (.out (run + 1) ((last + 1) % 4096), false) := by
  have h4 : ¬ 4 ≤ run + 1 := by omega
  simp [lockNext, h0, h4]

/-- The fourth good frame in succession gains lock. -/
theorem lockNext_gains (h : 3 ≤ run) :
    lockNext (.out run last) true ((last + 1) % 4096) 1 = (.locked ((last + 1) % 4096), false) := by
  have h0 : run ≠ 0 := by omega
  have h4 : 4 ≤ run + 1 := by omega
  simp [lockNext, h0, h4]

/-- In lock, a frame that is not used is a bad one or one at another SEQ. -/
theorem unused_locked (x raw p : Nat) (up : Bool) :
    unused (.locked x) up raw p = true ↔ frameGood up raw = false ∨ frameSeq raw ≠ (x + p) % 4096 := by
  simp only [unused, lockNext_locked, Bool.not_eq_true', Bool.and_eq_false_iff, beq_eq_false_iff_ne, ne_comm]

end

/-! ## Downlink frames (R106, R112) -/

section
variable {k : LiftFrame} {p x : Nat} {f : Dev → Dev} {d : Dev}

@[simp] theorem downCount_down (p : Nat) (d : Dev) : (downCount p d).lift.down = d.lift.down := rfl
@[simp] theorem downCount_pwr (p : Nat) (d : Dev) : (downCount p d).pwr = d.pwr := rfl

/-- A field die in lock uses a good frame at the SEQ it expects. -/
theorem downLine_used (hp : d.pwr.fieldPow = true) (hl : d.lift.down = .locked x)
    (hs : (x + p) % 4096 = (d.lift.downSeq + p) % 4096) :
    downLine k p true ((d.lift.downSeq + p) % 4096) f d = downSent k (f (downTaken p d)) := by
  simp [downLine, hp, hl, hs, downTaken]

/-- A field die in lock discards any other frame. -/
theorem downLine_discards {good : Bool} {seq : Nat} (hp : d.pwr.fieldPow = true) (hl : d.lift.down = .locked x)
    (h : good = false ∨ seq ≠ (x + p) % 4096) :
    downLine k p good seq f d =
      downSent k (downLost k (liftMod (fun l => { l with down := .locked ((x + p) % 4096) }) (downCount p d))) := by
  have hn : (good && (x + p) % 4096 == seq) = false := by
    simpa only [Bool.and_eq_false_iff, beq_eq_false_iff_ne, ne_comm] using h
  simp [downLine, hp, hl, hn, LockSt.inLock]

theorem downRow_used (h : DownUsed k p d) (f : Dev → Dev) : downRow k p f d = downSent k (f (downTaken p d)) := by
  obtain ⟨hon, hk, hp, x, hl, hs⟩ := h
  simp only [downRow, hon, hk, Bool.and_self, if_true, downLine_used hp hl hs]

/-- A frame that the downlink does not send now changes nothing. -/
theorem downRow_unsent (h : downOn d = false ∨ downIs k d = false) : downRow k p f d = d := by
  rw [← Bool.and_eq_false_iff] at h
  simp [downRow, h]

/-- A frame of the rotation, its word checked first where the slot is a PAIR slot (R46). -/
theorem downRot_used {slot : Fin 64} (hon : downOn d = true)
    (h : DownUsed (.rot slot) p (if 36 ≤ slot.val ∧ slot.val < 52 then pairFix 6 (pairNext d) d else d)) :
    downRot slot p d = downSent (.rot slot) (rotDown slot (downTaken p
      (if 36 ≤ slot.val ∧ slot.val < 52 then pairFix 6 (pairNext d) d else d))) := by
  rw [← downRow_used h, downRot]
  simp only [hon, and_true]

end

/-! ## Uplink frames (R106, R111, R121) -/

section
variable {k : LiftFrame} {p x : Nat} {f : Dev → Dev} {d : Dev}

@[simp] theorem upCount_up (p : Nat) (d : Dev) : (upCount p d).lift.up = d.lift.up := rfl

theorem diag_up (vd kind : Nat) (d : Dev) : (diag vd kind d).lift.up = d.lift.up := by
  simp only [diag]
  repeat' split
  all_goals rfl

/-- Closing a mask frame leaves the receiver alone. -/
@[simp] theorem frameClose_up (k : LiftFrame) (d : Dev) : (frameClose k d).lift.up = d.lift.up := by
  cases k with
  | evt code =>
    simp only [frameClose, diagOpen]
    split
    · exact forEach_keeps (fun d => d.lift.up) (fun (p : Nat × Nat) d => diag_up p.1 p.2 d) _ _
    · rfl
  | _ => rfl

/-- A control die in lock uses a good frame at the SEQ it expects. -/
theorem upLine_used (hl : d.lift.up = .locked x) (hs : (x + p) % 4096 = (d.lift.upSeq + p) % 4096) :
    upLine k p true ((d.lift.upSeq + p) % 4096) f d = upSent k (f (upTaken k p d)) := by
  simp [upLine, hl, hs, upTaken]

/-- A control die in lock discards any other frame. -/
theorem upLine_discards {good : Bool} {seq : Nat} (hl : d.lift.up = .locked x)
    (h : good = false ∨ seq ≠ (x + p) % 4096) :
    upLine k p good seq f d =
      upSent k (upLost (liftMod (fun l => { l with up := .locked ((x + p) % 4096) }) (frameClose k (upCount p d)))) := by
  have hn : (good && (x + p) % 4096 == seq) = false := by
    simpa only [Bool.and_eq_false_iff, beq_eq_false_iff_ne, ne_comm] using h
  simp [upLine, hl, hn, LockSt.inLock]

theorem upRow_used (h : UpUsed k p d) (f : Dev → Dev) : upRow k p f d = upSent k (f (upTaken k p d)) := by
  obtain ⟨hr, hon, hk, x, hl, hs⟩ := h
  simp only [upRow, upOn, hr, hon, hk, Bool.and_self, if_true, upLine_used hl hs]

theorem urgRow_some {code : Fin 5} {m : MaskFrame} (h : d.lift.urg.get code = some m) (p : Nat) :
    urgRow code p d = upRow (.urg code) p (urgFrame code m) d := by
  simp only [urgRow, h]

theorem urgRow_none {code : Fin 5} (h : d.lift.urg.get code = none) (p : Nat) : urgRow code p d = d := by
  simp only [urgRow, h]

theorem evtRow_some {code : Fin 8} {m : MaskFrame} (h : d.lift.evt.get code = some m) (p : Nat) :
    evtRow code p d = upRow (.evt code) p (evtFrame code m) d := by
  simp only [evtRow, h]

theorem evtRow_none {code : Fin 8} (h : d.lift.evt.get code = none) (p : Nat) : evtRow code p d = d := by
  simp only [evtRow, h]

/-- The urgent frame of a code leaves that code empty. -/
theorem frameClose_urg (code : Fin 5) (d : Dev) : (frameClose (.urg code) d).lift.urg.get code = none := by
  simp [frameClose]

/-- So does an ordinary frame, but for the valve diagnostics that were held for the next. -/
theorem frameClose_evt {code : Fin 8} (h : code ≠ 7) (d : Dev) : (frameClose (.evt code) d).lift.evt.get code = none := by
  simp [frameClose, h]

/-- In the first frames after a stop the uplink sends SAFE_REPORT alone. -/
theorem upIs_afterStop (h : d.lift.reportLeft ≠ 0) : upIs k p d = true ↔ k = .report := by
  simp [upIs, h]

/-- The last of sixteen SEQ is the rotation's. -/
theorem upIs_lastOfSixteen (h : d.lift.reportLeft = 0) (hn : (d.lift.upSeq + p) % 16 = 15) :
    upIs k p d = true ↔ ∃ n, k = .rot n := by
  cases k <;> simp [upIs, h, hn]

/-- The first SAFE_REPORT after a stop. -/
theorem safeReport_first (h : d.lift.reported = false) :
    safeReport d =
      (let e := cancelReleases allObjects { d with lift := { d.lift with reported := true, stopSeen := true } }
       autoDue (svcSuspend allObjects (raiseAt 1 0x0012 (diePath 0 1)
        (toBits 64 ((edgeDt e d.lift.lastApply + 125 * d.lift.stopOfs : Nat) : Int))
        (timeCode e.gns.tq (e.gns.unc.map (· + 100 * d.lift.stopUs))) (le 4 d.lift.stopUs ++ le 4 d.lift.lastApply) e))) := by
  simp only [safeReport, h, Bool.false_eq_true, if_false]
  rfl

/-- A later copy raises nothing. -/
theorem safeReport_later (h : d.lift.reported = true) : safeReport d = d := by
  simp [safeReport, h]

end

/-! ## Downlink rotation slots (R109, R114, R123, R150, R225) -/

section
variable {d : Dev} {n : Fin 64}

/-- A bank's slot is held as the copy of its TAG. -/
theorem outputSlot_bank {b : Fin 24} {ds : List Nat} {f : Option (Nat × Nat)} (h : (sentSet d).vals.get b = .bank ds f) :
    ((outputSlot b d).lift.copies.get b).get ⟨(sentSet d).tick % 4, by omega⟩ =
      some { val := .bank ds f, epoch := (sentSet d).epoch } := by
  simp only [outputSlot, h, liftMod_lift, vMod_get_same]
  exact vSet_get_same _ (⟨(sentSet d).tick % 4, by omega⟩ : Fin 4) _

/-- Values that have arrived leave the payloads of the slots alone. -/
theorem cfgArrived_excSlot (q : Nat × Nat → Bool) (d : Dev) : (cfgArrived q d).lift.excSlot = d.lift.excSlot :=
  forEach_keeps (f := afeRestart) (fun d => d.lift.excSlot) (fun _ _ => rfl) _ _

theorem cfgArrived_sweepSlot (q : Nat × Nat → Bool) (d : Dev) : (cfgArrived q d).lift.sweepSlot = d.lift.sweepSlot :=
  forEach_keeps (f := afeRestart) (fun d => d.lift.sweepSlot) (fun _ _ => rfl) _ _

@[simp] theorem waitsArrived_lift (q : Wait → Bool) (d : Dev) : (waitsArrived q d).lift = d.lift := rfl

theorem afeSlot_excSlot (j : Fin 8) (d : Dev) : (afeSlot j d).lift.excSlot.get j = afePayload d j := by
  simp [afeSlot, cfgArrived_excSlot]

theorem dlxSlot_sweepSlot (j : Fin 4) (d : Dev) : (dlxSlot j d).lift.sweepSlot.get j = dlxPayload d j := by
  simp [dlxSlot, cfgArrived_sweepSlot]

/-- A key that has been set is found with its value. -/
theorem find?_alSet {α : Type} (xs : List (Nat × α)) (k : Nat) (v : α) :
    (alSet xs k v).find? (fun e => e.1 = k) = some (k, v) := by
  induction xs with
  | nil => simp [alSet]
  | cons y ys ih =>
    simp only [alSet]
    split
    · next h => simp [h]
    · next h => simp [h, ih]

/-- The field die holds a changed copy of a word. -/
theorem fieldPair_fieldPairMod (a : Nat) (f : FieldPair → FieldPair) (d : Dev) : fieldPair (fieldPairMod a f d) a =
    some (f ((fieldPair d a).getD { act := (0, 0), shad := (0, 0), gen := 0, pend := none })) := by
  simp [fieldPair, fieldPairMod, find?_alSet]

theorem pairSlot_none (h : pairSent d (pairNext d) = none) : pairSlot d = d := by
  simp [pairSlot, h]

/-- The pair that a PAIR slot carries is held until the next APPLY. -/
theorem pairSlot_some {x : Word × Word × Nat} (h : pairSent d (pairNext d) = some x) :
    ∃ f, fieldPair (pairSlot d) (pairNext d) = some f ∧ f.pend = some x := by
  simp only [pairSlot, h]
  exact ⟨_, fieldPair_fieldPairMod (pairNext d) (fun f => { f with pend := some x }) d, rfl⟩

theorem rotDown_output (h : n.val < 24) : rotDown n d = outputSlot ⟨n.val, h⟩ d := by
  simp [rotDown, h]

theorem rotDown_afe (h : 24 ≤ n.val) (h' : n.val < 32) : rotDown n d = afeSlot ⟨n.val - 24, by omega⟩ d := by
  simp [rotDown, h', show ¬ n.val < 24 by omega]

theorem rotDown_dlx (h : 32 ≤ n.val) (h' : n.val < 36) : rotDown n d = dlxSlot ⟨n.val - 32, by omega⟩ d := by
  simp [rotDown, h', show ¬ n.val < 24 by omega, show ¬ n.val < 32 by omega]

theorem rotDown_pair (h : 36 ≤ n.val) (h' : n.val < 52) : rotDown n d = pairSlot d := by
  simp [rotDown, h', show ¬ n.val < 24 by omega, show ¬ n.val < 32 by omega, show ¬ n.val < 36 by omega]

theorem rotDown_house (h : 60 ≤ n.val) (h' : n.val < 63) : rotDown n d = houseSlot (n.val - 60) d := by
  simp [rotDown, h', show ¬ n.val < 24 by omega, show ¬ n.val < 32 by omega, show ¬ n.val < 36 by omega,
    show ¬ n.val < 52 by omega, show ¬ n.val < 60 by omega]

end

/-! ## Keepalive (R131) -/

section
variable {d : Dev} (h7 : domState d 7 = 1)
include h7

theorem keepDown_sends (hpll : d.pwr.pll = true) (hp : d.pwr.fieldPow = true) :
    keepDown d = validNote { d with lift := { d.lift with
      down := .keepalive, armed := true, fTick := d.time.tick, fDom := d.pwr.dom, sent := (d.lift.sent + 1) % 2 ^ 32 } } := by
  rw [keepDown, if_neg (by simp [h7, hpll, hp])]
  rfl

theorem keepUp_answers (hk : d.lift.down = .keepalive) :
    keepUp d = { d with lift := { d.lift with
      up := .keepalive, rcvd := (d.lift.rcvd + 1) % 2 ^ 32, lastUpTick := d.time.tick } } := by
  rw [keepUp, if_neg (by simp [h7, hk])]
  rfl

end

/-! ## The APPLY (R114, R117, R119, R522) -/

/-- The APPLY counted as fenced. -/
def frameFenced (c : TickSet) (d : Dev) : Dev :=
  liftMod (fun l => { l with fenced := (l.fenced + 1) % 256, fencedEpoch := c.epoch, applyLost := l.applyLost + 1 }) d

/-- The held copies of other epochs counted as fenced. -/
def slotsFenced (bad : List Nat) (d : Dev) : Dev :=
  liftMod (fun l => { l with fenced := (l.fenced + bad.length) % 256, fencedEpoch := bad.getLastD l.fencedEpoch }) d

/-- A set is whole where no slot of it lacks a copy of its TAG and EPOCH. -/
theorem setWhole_iff (m t epoch : Nat) (d : Dev) :
    ((List.finRange 24).all fun n => !bitOf m n || (slotCopy d t epoch n).isSome) = true ↔
      ∀ n : Fin 24, bitOf m n = true → slotCopy d t epoch n ≠ none := by
  simp only [List.all_eq_true, List.mem_finRange, true_implies, Bool.or_eq_true, Bool.not_eq_true', Option.isSome_iff_ne_none,
    ← Bool.not_eq_true, ← Decidable.imp_iff_not_or]

/-! ### A miss counts itself and carries its set; pins, valve channels and the count of fenced frames stay (R117) -/

@[simp] theorem applyMiss_fio (c : TickSet) (d : Dev) : (applyMiss c d).fio = d.fio := by
  simp [applyMiss, applyCarry, copiesClear]
@[simp] theorem applyMiss_vlv (c : TickSet) (d : Dev) : (applyMiss c d).vlv = d.vlv := by
  simp [applyMiss, applyCarry, copiesClear]
@[simp] theorem applyMiss_fenced (c : TickSet) (d : Dev) : (applyMiss c d).lift.fenced = d.lift.fenced := by
  simp [applyMiss, applyCarry, copiesClear]
@[simp] theorem applyMiss_fencedEpoch (c : TickSet) (d : Dev) : (applyMiss c d).lift.fencedEpoch = d.lift.fencedEpoch := by
  simp [applyMiss, applyCarry, copiesClear]
@[simp] theorem applyMiss_miss (c : TickSet) (d : Dev) : (applyMiss c d).lift.miss = (d.lift.miss + 1) % 256 := by
  simp [applyMiss, applyCarry, copiesClear]
@[simp] theorem applyMiss_openMask (c : TickSet) (d : Dev) :
    (applyMiss c d).lift.openMask = d.lift.openMask ||| c.mask := by
  simp [applyMiss, applyCarry, copiesClear]

/-- Counting fenced copies leaves the copies. -/
@[simp] theorem slotCopy_slotsFenced (bad : List Nat) (d : Dev) (t epoch : Nat) (n : Fin 24) :
    slotCopy (slotsFenced bad d) t epoch n = slotCopy d t epoch n := rfl

section
variable {c : TickSet} {d e : Dev} {held : Nat} (copy : Bool) (ha : d.lift.apply = some c)
  (he : e = enablesLost (adoptPairs (liftMod (fun l => { l with fTick := c.tick }) d)))
  (hh : held = fpairV e kHltEpoch 0 % 256)
include ha he hh

/-- The judgement of an APPLY, `e` being the field die once it has adopted its pairs and `held` the epoch in force. -/
theorem applyFrame_eq : applyFrame copy d =
    if c.epoch ≠ held then
      if copy || 2 ≤ (frameFenced c e).lift.applyLost then applyMiss c (frameFenced c e) else frameFenced c e
    else if (List.finRange 24).all fun n => !bitOf c.mask n || (slotCopy e c.tick held n).isSome then
      applySet c held (slotsFenced (staleSlots e c.tick held) e)
    else applyMiss c (slotsFenced (staleSlots e c.tick held) e) := by
  simp only [applyFrame, ha, ← he, ← hh]
  rfl

/-- An APPLY of another EPOCH is fenced, and missed where no copy of it can follow. -/
theorem applyFrame_fenced (h : c.epoch ≠ held) : applyFrame copy d =
    if copy || 2 ≤ (frameFenced c e).lift.applyLost then applyMiss c (frameFenced c e) else frameFenced c e := by
  rw [applyFrame_eq copy ha he hh, if_pos h]

/-- An APPLY of the EPOCH in force latches a set that is whole. -/
theorem applyFrame_latches (h : c.epoch = held)
    (hall : ∀ n : Fin 24, bitOf c.mask n = true → slotCopy e c.tick held n ≠ none) :
    applyFrame copy d = applySet c held (slotsFenced (staleSlots e c.tick held) e) := by
  rw [applyFrame_eq copy ha he hh, if_neg (not_not_intro h), if_pos ((setWhole_iff ..).2 hall)]

/-- With a slot of its set missing it is a miss. -/
theorem applyFrame_misses (h : c.epoch = held)
    (hmiss : ∃ n : Fin 24, bitOf c.mask n = true ∧ slotCopy e c.tick held n = none) :
    applyFrame copy d = applyMiss c (slotsFenced (staleSlots e c.tick held) e) := by
  obtain ⟨n, hn, hnone⟩ := hmiss
  rw [applyFrame_eq copy ha he hh, if_neg (not_not_intro h), if_neg fun hall => (setWhole_iff ..).1 hall n hn hnone]

end

/-! ## Lock, silence and the stop (R107, R124-R129, R392) -/

section
variable {raw p x rcUs : Nat} {k : LiftFrame} {d : Dev}

theorem downDiscard_locked (hon : downOn d = true) (hp : d.pwr.fieldPow = true) (hk : downIs k d = true)
    (hl : d.lift.down = .locked x) (h : frameGood false raw = false ∨ frameSeq raw ≠ (x + p) % 4096) :
    downDiscard raw p k d =
      downSent k (downLost k (liftMod (fun l => { l with down := .locked ((x + p) % 4096) }) (downCount p d))) := by
  rw [downDiscard, if_pos (by simp [hon, hp, hk, hl, (unused_locked ..).2 h])]
  exact downLine_discards hp hl h

theorem upDiscard_locked (hr : fieldRuns d = true) (hon : downOn d = true) (hk : upIs k p d = true)
    (hl : d.lift.up = .locked x) (h : frameGood true raw = false ∨ frameSeq raw ≠ (x + p) % 4096) :
    upDiscard raw p k d =
      upSent k (upLost (liftMod (fun l => { l with up := .locked ((x + p) % 4096) }) (frameClose k (upCount p d)))) := by
  rw [upDiscard, if_pos (by simp [upOn, hr, hon, hk, hl, (unused_locked ..).2 h])]
  exact upLine_discards hl h

/-- A good frame at the SEQ expected is no discard. -/
theorem upDiscard_good (hl : d.lift.up = .locked x) (hg : frameGood true raw = true) (hs : frameSeq raw = (x + p) % 4096) :
    upDiscard raw p k d = d := by
  have hu : unused d.lift.up true raw p = false := by
    rw [hl, ← Bool.not_eq_true, unused_locked]
    simp [hg, hs]
  simp [upDiscard, hu]

/-- A discard is counted once, whether or not it is the second lost copy of an APPLY. -/
theorem downLost_downDisc (k : LiftFrame) (d : Dev) :
    (downLost k d).lift.downDisc = (d.lift.downDisc + 1) % 65536 := by
  simp only [downLost]
  repeat' split
  all_goals rfl

theorem lockLoss_up (h : d.lift.up = .locked x) :
    lockLoss true d = { d with lift := { d.lift with up := .out 0 0 } } := by
  rw [lockLoss, if_pos rfl, if_pos (by rw [h]; rfl)]
  rfl

theorem lockLoss_down (h : d.lift.down = .locked x) :
    lockLoss false d = dlxPause { d with lift := { d.lift with down := .out 0 0 } } := by
  rw [lockLoss, if_neg Bool.false_ne_true, if_pos (by rw [h]; rfl)]
  rfl

theorem liftSilence_begins (hs : d.lift.silent = false) (hon : downOn d = true) :
    liftSilence d = fieldShutdownSeen (fioSilence
      (forEach (List.finRange 4) dlxMarkStale (forEach (List.finRange 32) afeMarkStale
        (raise 1 0x0010 (diePath 0 0) (le 8 d.lift.lastUpTick)
          { d with lift := { d.lift with silent := true, silentFr := 10, staleSlots := 2 ^ 64 - 1 } })))) := by
  rw [liftSilence, if_neg (by simp [hs, hon])]
  rfl

/-- Silence begins once, and only while the downlink runs. -/
theorem liftSilence_not (h : d.lift.silent = true ∨ downOn d = false) : liftSilence d = d := by
  rw [liftSilence, if_pos (by simpa using h)]

theorem snowplough_stops (ha : d.lift.armed = true) (hp : d.pwr.fieldPow = true) (hl : d.lift.down.inLock = false)
    (ht : 1000 * silenceMs d ≤ rcUs) :
    snowplough rcUs d = stopAll { d with lift := { d.lift with
      armed := false, stopUs := rcUs % 2 ^ 32, stopOfs := (d.lift.validOfs + rcUs * 8) % 2 ^ 32, reportLeft := 8,
      reported := false } } := by
  rw [snowplough, if_neg (by simp [ha, hp, hl, ht])]
  rfl

theorem snowplough_not (h : d.lift.armed = false ∨ d.pwr.fieldPow = false ∨ d.lift.down.inLock = true ∨
    rcUs < 1000 * silenceMs d) : snowplough rcUs d = d := by
  rw [snowplough, if_pos]
  simpa [or_assoc] using h

/-- Discards beyond the warning are reported. -/
theorem errorSecond_warns (h : pget d kSysLiftErrWarn 0 < max d.lift.secUp d.lift.secDown) :
    errorSecond d = liftMod (fun l => { l with secUp := 0, secDown := 0 }) (raise 1 0x0014 (diePath 0 0)
      (le 2 (min d.lift.secUp 65535) ++ le 2 (min d.lift.secDown 65535)) d) := by
  have hw : (decide (pget d kSysLiftErrWarn 0 < d.lift.secUp) || decide (pget d kSysLiftErrWarn 0 < d.lift.secDown)) = true := by
    simp only [Bool.or_eq_true, decide_eq_true_eq]
    omega
  simp only [errorSecond, when, hw, if_true]

theorem errorSecond_quiet (h : max d.lift.secUp d.lift.secDown ≤ pget d kSysLiftErrWarn 0) :
    errorSecond d = { d with lift := { d.lift with secUp := 0, secDown := 0 } } := by
  have hw : (decide (pget d kSysLiftErrWarn 0 < d.lift.secUp) || decide (pget d kSysLiftErrWarn 0 < d.lift.secDown)) = false := by
    simp only [Bool.or_eq_false_iff, decide_eq_false_iff_not]
    omega
  simp only [errorSecond, when, hw, Bool.false_eq_true, if_false]
  rfl

section
variable {ms : Nat} (hr : d.svc.release = some ms)
include hr

theorem autoRelease_asks (hl : d.lift.up.inLock = true) (hf : d.pwr.fStep < 4) (hd : d.hlt.demand = false)
    (hsp : d.svc.spoiled = false) (hst : d.lift.stopped = true) :
    autoRelease d = askRelease { scope := 0, object := 0 } none { d with svc := { d.svc with release := none } } := by
  have hb : ¬ 4 ≤ d.pwr.fStep := by omega
  rw [autoRelease, hr]
  exact if_pos (by simp [releaseBarred, hl, hb, hd, hsp, hst])

theorem autoRelease_barred (h : d.lift.up.inLock = false ∨ 4 ≤ d.pwr.fStep ∨ d.hlt.demand = true ∨ d.svc.spoiled = true) :
    autoRelease d = { d with svc := { d.svc with release := none } } := by
  rw [autoRelease, hr]
  refine if_neg ?_
  rcases h with h | h | h | h <;> simp [releaseBarred, h]

end

end

end Sys2Proof.Machine

namespace Sys2Proof

open Machine

/-- Settles O26: each row is `downRow` of its frame, and each slot of `rotDown` the slot's own function. -/
theorem downlinkFrames : Obligations.DownlinkFrames := by
  refine ⟨fun s p => ⟨fun slot hon hu => ?rot, fun copy hc hu => ?apply, fun copy hc => ?notDue, fun hu => ?safe,
      fun hu => ?release, fun h => ?unsentSafe, fun h => ?unsentRelease⟩,
    fun d n => ⟨fun h ds f hv => ?bank, fun h h' => ?afe, fun h h' => ?dlx, fun h h' => ⟨fun hn => ?noPair, fun x hx => ?pair⟩,
      fun h => ?tick, fun h => ?dt, fun h => ?trim⟩,
    fun s => ⟨fun h7 hpll hp => ?keepDown, fun h7 hk => ?keepUp⟩⟩
  case rot => exact settles_of_loud (downRot slot p) rfl (downRot_used hon hu)
  case apply => exact settles_of_loud (downRow .apply p (applyFrame copy)) (if_pos hc) (downRow_used hu _)
  case notDue => exact stays_of_quiet id (if_neg hc) rfl
  case safe => exact moves_of_quiet (downRow .safe p safeFrame) rfl (downRow_used hu _)
  case release => exact moves_of_quiet (downRow .release p releaseFrame) rfl (downRow_used hu _)
  case unsentSafe => exact stays_of_quiet (downRow .safe p safeFrame) rfl (downRow_unsent h)
  case unsentRelease => exact stays_of_quiet (downRow .release p releaseFrame) rfl (downRow_unsent h)
  case bank =>
    rw [rotDown_output h]
    exact outputSlot_bank hv
  case afe =>
    rw [rotDown_afe h h']
    exact afeSlot_excSlot _ d
  case dlx =>
    rw [rotDown_dlx h h']
    exact dlxSlot_sweepSlot _ d
  case noPair => rw [rotDown_pair h h', pairSlot_none hn]
  case pair =>
    rw [rotDown_pair h h']
    exact pairSlot_some hx
  case tick =>
    rw [rotDown_house (by omega) (by omega), h]
    rfl
  case dt =>
    rw [rotDown_house (by omega) (by omega), h]
    rfl
  case trim =>
    rw [rotDown_house (by omega) (by omega), h]
    rfl
  case keepDown => exact moves_of_quiet keepDown rfl (keepDown_sends h7 hpll hp)
  case keepUp => exact moves_of_quiet keepUp rfl (keepUp_answers h7 hk)

/-- Settles O27: the three outcomes of an APPLY; a miss touches the Lift's state alone. -/
theorem applyLatchesAllOrNothing : Obligations.ApplyLatchesAllOrNothing := by
  intro d c copy ha e held bad
  have he : e = enablesLost (adoptPairs (liftMod (fun l => { l with fTick := c.tick }) d)) := rfl
  have hh : held = fpairV e kHltEpoch 0 % 256 := rfl
  refine ⟨fun h => ?fenced, fun h hmiss => ?miss, fun h hall => applyFrame_latches copy ha he hh h hall⟩
  case fenced =>
    rw [applyFrame_fenced copy ha he hh h]
    split <;> simp [frameFenced]
  case miss =>
    rw [applyFrame_misses copy ha he hh h hmiss]
    simp [slotsFenced]

/-- Settles O28: each row is `upRow` of its frame; what the uplink sends, and the first SAFE_REPORT, are read off `upIs` and
`safeReport`. -/
theorem uplinkFrames : Obligations.UplinkFrames := by
  refine ⟨fun s p => ⟨fun slot meas hu => ?rot, fun hu => ?report, fun code f hf hu => ⟨?urg, frameClose_urg code s.dev⟩,
      fun code hf => ?noUrg, fun code f hf hu => ⟨?evt, fun h7 => frameClose_evt h7 s.dev⟩, fun code hf => ?noEvt⟩,
    fun d k p => ⟨upIs_afterStop, upIs_lastOfSixteen⟩, fun d => ⟨safeReport_later, safeReport_first⟩⟩
  case rot => exact settles_of_loud (upRow (.rot slot) p (rotUp slot meas)) rfl (upRow_used hu _)
  case report => exact moves_of_quiet (upRow .report p safeReport) rfl (upRow_used hu _)
  case urg => exact moves_of_quiet (urgRow code p) rfl ((urgRow_some hf p).trans (upRow_used hu _))
  case noUrg => exact stays_of_quiet (urgRow code p) rfl (urgRow_none hf p)
  case evt => exact moves_of_quiet (evtRow code p) rfl ((evtRow_some hf p).trans (upRow_used hu _))
  case noEvt => exact stays_of_quiet (evtRow code p) rfl (evtRow_none hf p)

/-- Settles O29: a receiver in lock, one out of lock, and the rows that lose lock, begin a silence, stop, report and release. -/
theorem liftDiscardsAndSilence : Obligations.LiftDiscardsAndSilence := by
  intro s raw p x rcUs
  refine ⟨fun k hr hon hk hl h => ?upDiscard, fun k hon hp hk hl h => ?downDiscard,
    fun k => ⟨rfl, rfl, downLost_downDisc k s.dev⟩, fun k hl hg hs => ?good,
    fun last => ⟨lockNext_starts (.inl rfl), lockNext_extends (by omega) (by omega), lockNext_extends (by omega) (by omega),
      lockNext_gains (by omega), fun run hx => lockNext_starts (.inr (.inr hx)), fun run => lockNext_bad run last x p⟩,
    fun hl => ?lossUp, fun hl => ?lossDown, fun hs hon => ?silence, fun h => ?noSilence, fun ha hp hl ht => ?stop,
    fun h => ?noStop, fun h => ?warn, fun h => ?noWarn, fun ms hr => ⟨fun hl hf hd hsp hst => ?asks, fun h => ?barred⟩⟩
  case upDiscard => exact moves_of_quiet (upDiscard raw.toNat p k) rfl (upDiscard_locked hr hon hk hl h)
  case downDiscard => exact moves_of_quiet (downDiscard raw.toNat p k) rfl (downDiscard_locked hon hp hk hl h)
  case good => exact stays_of_quiet (upDiscard raw.toNat p k) rfl (upDiscard_good hl hg hs)
  case lossUp => exact moves_of_quiet (lockLoss true) rfl (lockLoss_up hl)
  case lossDown => exact moves_of_quiet (lockLoss false) rfl (lockLoss_down hl)
  case silence => exact moves_of_quiet liftSilence rfl (liftSilence_begins hs hon)
  case noSilence => exact stays_of_quiet liftSilence rfl (liftSilence_not h)
  case stop => exact moves_of_quiet (snowplough rcUs) rfl (snowplough_stops ha hp hl ht)
  case noStop => exact stays_of_quiet (snowplough rcUs) rfl (snowplough_not h)
  case warn => exact moves_of_quiet errorSecond rfl (errorSecond_warns h)
  case noWarn => exact moves_of_quiet errorSecond rfl (errorSecond_quiet h)
  case asks => exact moves_of_quiet autoRelease rfl (autoRelease_asks hr hl hf hd hsp hst)
  case barred => exact moves_of_quiet autoRelease rfl (autoRelease_barred hr h)

end Sys2Proof
end

section
/-!
The sensor front end: the result word, the end of a conversion window, and the guards (R143, R164-R169, R177-R180, R502).
-/
namespace Sys2Proof.Machine

/-! ## The result word (R165) -/

/-- The code of 24 bits, as an integer. -/
theorem toBits24_cast (v : Int) : (toBits 24 v : Int) = v % 16777216 := by
  simp only [toBits]
  omega

theorem toBits24_lt (v : Int) : toBits 24 v < 16777216 := by
  have hcode := toBits24_cast v
  omega

/-- A signed 24-bit value comes back from its code. -/
theorem sext24_toBits {v : Int} (h : -8388608 ≤ v) (h' : v ≤ 8388607) : sext 24 (toBits 24 v) = v := by
  have hcode := toBits24_cast v
  by_cases hlt : toBits 24 v % 2 ^ 24 < 2 ^ (24 - 1)
  · rw [sext, if_pos hlt]
    omega
  · rw [sext, if_neg hlt]
    omega

section
variable {st q : Nat} (v : Int) (hst : st < 16) (hq : q < 16)
include hst hq

/-- The three fields stand side by side in the word. -/
theorem resultWord_toNat : (resultWord v st q).toNat = toBits 24 v * 256 + st * 16 + q := by
  have hv := toBits24_lt v
  rw [resultWord, BitVec.toNat_ofNat]
  omega

theorem resultWord_value : (resultWord v st q).toNat / 256 = toBits 24 v := by
  rw [resultWord_toNat v hst hq]
  omega

theorem resultWord_status : (resultWord v st q).toNat / 16 % 16 = st := by
  rw [resultWord_toNat v hst hq]
  omega

theorem resultWord_seq : (resultWord v st q).toNat % 16 = q := by
  rw [resultWord_toNat v hst hq]
  omega

theorem valueOf_resultWord (h : -8388608 ≤ v) (h' : v ≤ 8388607) : valueOf (resultWord v st q) = v := by
  rw [valueOf, resultWord_value v hst hq, sext24_toBits h h']

theorem statusOf_resultWord : statusOf (resultWord v st q) = st := by
  rw [statusOf, fld, Nat.shiftRight_eq_div_pow]
  exact resultWord_status v hst hq

end

/-! ## What waits for a boundary of the front end leaves SEQ alone (R88) -/

@[simp] theorem applyValue_afe (a : Nat) (ws : List Word) (d : Dev) : (applyValue a ws d).afe = d.afe := by
  simp only [applyValue]
  repeat' split
  all_goals rfl

@[simp] theorem completeId_afe (id : CmdId) (st dl : Nat) (x : List Byte) (d : Dev) :
    (completeId id st dl x d).afe = d.afe := by
  simp only [completeId]
  repeat' split
  all_goals rfl

@[simp] theorem completeSuperseded_afe (id : CmdId) (x : List Byte) (d : Dev) : (completeSuperseded id x d).afe = d.afe := by
  simp only [completeSuperseded]
  repeat' split
  all_goals rfl

section
variable {β : Type} {hook : Nat → Dev → Dev} (g : AfeSt → β) (h : ∀ a d, g (hook a d).afe = g d.afe)
include h

/-- What a hook keeps of the front end, the applying of waits with that hook keeps. -/
theorem applyWaits_keeps_afe (ws : List Wait) (d : Dev) : g (applyWaits hook ws d).afe = g d.afe := by
  induction ws generalizing d with
  | nil => rfl
  | cons w ws ih =>
    simp only [applyWaits]
    split
    · rw [ih]
      split <;> simp
    · rw [ih]
      split <;> simp [h]

theorem boundary_keeps_afe (p : Wait → Bool) (d : Dev) : g (boundary hook p d).afe = g d.afe :=
  applyWaits_keeps_afe g h _ _

end

/-- SEQ of a channel. -/
def seqAt (ch : Fin 32) (a : AfeSt) : Nat := (a.ch.get ch).seq

/-- A change of one channel that keeps its SEQ keeps that of every channel. -/
theorem seqAt_afeMod {f : AfeCh → AfeCh} (h : ∀ c, (f c).seq = c.seq) (ch x : Fin 32) (d : Dev) :
    seqAt x (afeMod ch f d).afe = seqAt x d.afe := by
  by_cases hx : ch = x
  · subst hx
    simp [seqAt, h]
  · simp [seqAt, vMod_get_other _ _ hx]

@[simp] theorem seqAt_afeRestart (ch x : Fin 32) (d : Dev) : seqAt x (afeRestart ch d).afe = seqAt x d.afe := by
  simp only [afeRestart, seqAt_afeMod, implies_true]

@[simp] theorem seqAt_when_afeRestart (b : Bool) (ch x : Fin 32) (d : Dev) :
    seqAt x (when b (afeRestart ch) d).afe = seqAt x d.afe := by
  cases b
  · rfl
  · exact seqAt_afeRestart ch x d

@[simp] theorem seqAt_afeSettings (ch x : Fin 32) (d : Dev) : seqAt x (afeSettings ch d).afe = seqAt x d.afe := by
  simp only [afeSettings]
  split <;> simp only [seqAt_afeRestart, seqAt_afeMod, implies_true]

/-- A parameter that takes effect restarts channels and switches them on and off, and leaves their SEQ. -/
theorem seqAt_afeHook (x : Fin 32) (a : Nat) (d : Dev) : seqAt x (afeHook a d).afe = seqAt x d.afe := by
  simp only [afeHook]
  repeat' split
  all_goals simp only [seqAt_afeRestart, seqAt_afeSettings, seqAt_afeMod, implies_true]
  rfl

/-! ## What a result is made of (R164, R166, R169) -/

section
variable {d : Dev} {ch : Fin 32} {w : AfeWindow} {c : AfeCh} {held settling : Bool}

/-- A break gives BROKEN with the last settled value. -/
theorem ownResult_broken (h : c.brk.isSome = true) : ownResult d ch w c held settling = (sBroken, c.settled) := by
  simp only [ownResult, h, if_true]
  split <;> simp

/-- A result without a dependency is the channel's own. -/
theorem composeResult_alone (h : afeDep d ch = none) :
    composeResult d ch w c held settling = ownResult d ch w c held settling := by
  simp [composeResult, depStatus, h]

/-- A dependency that is BROKEN, STALE or SETTLING leaves the last settled value. -/
theorem composeResult_held {x k : Nat} (h : depStatus d ch = some (x, k)) (hk : k = sBroken ∨ k = sStale ∨ k = sSettling) :
    (composeResult d ch w c held settling).2 = c.settled := by
  simp [composeResult, h, hk]

/-- The dependency is another channel, which a change of this one leaves as it was. -/
theorem depStatus_afeMod {f : AfeCh → AfeCh} {x : Nat} (h : afeDep d ch = some x) (hx : x ≠ ch.val) :
    depStatus (afeMod ch f d) ch = depStatus d ch := by
  have hdep : afeDep (afeMod ch f d) ch = some x := h
  simp only [depStatus, hdep, h]
  split
  · next hlt =>
    have hne : ch ≠ ⟨x, hlt⟩ := fun e => hx (congrArg Fin.val e).symm
    have hget : (afeMod ch f d).afe.ch.get ⟨x, hlt⟩ = d.afe.ch.get ⟨x, hlt⟩ := vMod_get_other _ _ hne
    have hdel : afeDelivers (afeMod ch f d) ⟨x, hlt⟩ = afeDelivers d ⟨x, hlt⟩ := by
      simp only [afeDelivers, excLost, hget]
      rfl
    rw [hget, hdel]
  · rfl

/-- Whether a channel delivers hangs on no more of it than its switch, its substitution and its excitation. -/
theorem afeDelivers_afeMod {f g : AfeCh → AfeCh} (hon : (f (d.afe.ch.get ch)).on = (g (d.afe.ch.get ch)).on)
    (hsub : (f (d.afe.ch.get ch)).sub = (g (d.afe.ch.get ch)).sub)
    (hexc : (f (d.afe.ch.get ch)).excOff = (g (d.afe.ch.get ch)).excOff) :
    afeDelivers (afeMod ch f d) ch = afeDelivers (afeMod ch g d) ch := by
  simp only [afeDelivers, excLost, afeMod_afe, vMod_get_same, hon, hsub, hexc]
  rfl

end

/-! ### A free value taken, and an urgent frame opened, are no part of a result -/

section
variable (b : Bool) (d : Dev) (ch : Fin 32)

@[simp] theorem when_takeFree_afe : (when b takeFree d).afe = d.afe := by cases b <;> rfl
@[simp] theorem when_takeFree_lift : (when b takeFree d).lift = d.lift := by cases b <;> rfl
@[simp] theorem breakCond_when_takeFree (w : AfeWindow) : breakCond (when b takeFree d) ch w = breakCond d ch w := by
  cases b <;> rfl
@[simp] theorem afeDep_when_takeFree : afeDep (when b takeFree d) ch = afeDep d ch := by cases b <;> rfl
@[simp] theorem depStatus_when_takeFree : depStatus (when b takeFree d) ch = depStatus d ch := by cases b <;> rfl
@[simp] theorem when_urgent_afe (code : Fin 5) (n : Nat) : (when b (urgent code n) d).afe = d.afe := by cases b <;> rfl
@[simp] theorem afeDelivers_when_urgent (code : Fin 5) (n : Nat) :
    afeDelivers (when b (urgent code n) d) ch = afeDelivers d ch := by cases b <;> rfl

end

/-! ## The end of a window (R143, R164, R165, R169, R179) -/

/-- `e` is the device with the result of a window `w` formed in channel `ch` of `d`: value `v` and status `st`. -/
structure FormsResult (d : Dev) (ch : Fin 32) (w : AfeWindow) (e : Dev) (v : Int) (st : Nat) : Prop where
  seq : (e.afe.ch.get ch).seq = ((d.afe.ch.get ch).seq + 1) % 16
  word : (e.afe.ch.get ch).word =
    if afeDelivers e ch then some (resultWord v st (((d.afe.ch.get ch).seq + 1) % 16), d.lift.fTick) else none
  brk : (e.afe.ch.get ch).brk = breakCond d ch w
  broken : breakCond d ch w ≠ none → afeDep d ch = none → st = sBroken ∧ v = (d.afe.ch.get ch).settled
  held : ∀ x k, afeDep d ch = some x → x ≠ ch.val → depStatus d ch = some (x, k) →
    k = sBroken ∨ k = sStale ∨ k = sSettling → v = (d.afe.ch.get ch).settled
  others : ∀ x, x ≠ ch → e.afe.ch.get x = d.afe.ch.get x

/-- A channel restarts at the end of its window: the break it had has ended (R183), or a restart waited for this end (R145). -/
def windowRestarts (d : Dev) (ch : Fin 32) (c : AfeCh) (w : AfeWindow) : Bool :=
  (c.brk.isSome && (breakCond d ch w).isNone) || c.restart

/-- A channel whose window has ended, once its break, settling time, lead resistance and substitution have been judged. -/
def windowJudged (d : Dev) (ch : Fin 32) (c : AfeCh) (w : AfeWindow) : AfeCh :=
  { c with
    seq := (c.seq + 1) % 16
    brk := breakCond d ch w
    settleUs := if windowRestarts d ch c w then afeSettleUs d ch else c.settleUs - afePeriodUs (pget d kAfeRate ch)
    rLead := match c.leadNext with
      | some r => some r
      | none => c.rLead
    leadNext := none
    hist := if c.sub == .declared then [] else c.hist
    refCnt := if c.sub == .declared then 0 else c.refCnt
    refs := if c.sub == .declared then [] else c.refs
    sub := subNext (afeSettleUs d ch) (afePeriodUs (pget d kAfeRate ch)) c.sub
    recent := recentWith d.lift.fTick w.raw c.recent }

/-- A judged channel takes the result that its window and its dependency give; `again` says that it restarts. -/
def resultOf (d : Dev) (ch : Fin 32) (w : AfeWindow) (c : AfeCh) (again : Bool) : Nat × Int :=
  composeResult (afeMod ch (fun _ => c) d) ch w c (subHeld c)
    (again || c.settleUs != 0 || (pget d kAfeLeadMode ch = 1 && c.rLead.isNone))

/-- The judged channel with a result in its uplink slot, tagged with the field die's tick where the channel delivers. -/
def resultPlaced (d : Dev) (ch : Fin 32) (ofs : Nat) (c : AfeCh) (r : Nat × Int) (settled : Int) (high : Bool)
    (why : Option (Nat × Nat × Bool)) : Dev :=
  afeMod ch (fun _ =>
    { c with
      settled := settled
      overHigh := high
      depWhy := why
      word := if afeDelivers (afeMod ch (fun _ => c) d) ch then some (resultWord r.2 r.1 c.seq, d.lift.fTick) else none
      wordOfs := ofs }) d

/-- The placed result is the one that the judged window and the dependency give. -/
theorem formsResult_placed {d : Dev} {ch : Fin 32} {w : AfeWindow} {c : AfeCh} {b0 b again : Bool} {ofs : Nat} {v : Int}
    {high : Bool} {why : Option (Nat × Nat × Bool)} (hbrk : c.brk = breakCond d ch w)
    (hseq : c.seq = ((d.afe.ch.get ch).seq + 1) % 16) (hset : c.settled = (d.afe.ch.get ch).settled) :
    let d0 := when b0 takeFree d
    let r := resultOf d0 ch w c again
    FormsResult d ch w (when b (urgent 3 ch) (resultPlaced d0 ch ofs c r v high why)) r.2 r.1 := by
  intro d0 r
  have hafe : (when b (urgent 3 ch) (resultPlaced d0 ch ofs c r v high why)).afe = (resultPlaced d0 ch ofs c r v high why).afe :=
    when_urgent_afe ..
  constructor
  case seq => rw [hafe, resultPlaced, afeMod_afe, vMod_get_same, ← hseq]
  case brk => rw [hafe, resultPlaced, afeMod_afe, vMod_get_same, ← hbrk]
  case word =>
    have hdel : afeDelivers (resultPlaced d0 ch ofs c r v high why) ch = afeDelivers (afeMod ch (fun _ => c) d0) ch :=
      afeDelivers_afeMod rfl rfl rfl
    rw [hafe, afeDelivers_when_urgent, hdel, resultPlaced, afeMod_afe, vMod_get_same, ← hseq, ← when_takeFree_lift b0 d]
  case broken =>
    intro hb hd
    have hdep : afeDep (afeMod ch (fun _ => c) d0) ch = none := (afeDep_when_takeFree b0 d ch).trans hd
    have hr : r = (sBroken, c.settled) := by
      simp only [r, resultOf, composeResult_alone hdep]
      exact ownResult_broken (by rwa [hbrk, Option.isSome_iff_ne_none])
    rw [hr]
    exact ⟨rfl, hset⟩
  case held =>
    intro x k hx hne hs hk
    have hdep : afeDep d0 ch = some x := (afeDep_when_takeFree b0 d ch).trans hx
    have hst : depStatus (afeMod ch (fun _ => c) d0) ch = some (x, k) := by
      rw [depStatus_afeMod hdep hne, depStatus_when_takeFree, hs]
    exact (composeResult_held hst hk).trans hset
  case others =>
    intro x hx
    rw [hafe, resultPlaced, afeMod_afe, vMod_get_other _ _ hx.symm, when_takeFree_afe]

section
variable {d : Dev} {ch : Fin 32} {ofs : Nat} (smp : AfeSample) (hc : afeConverts d ch = true)
  (hw : windowEnds d ch (d.afe.ch.get ch) = some ofs)

/-- A channel that does not convert, or none of whose windows ends now, gives nothing. -/
theorem conversionEnd_idle (h : afeConverts d ch = false ∨ windowEnds d ch (d.afe.ch.get ch) = none) :
    conversionEnd ch smp d = d := by
  rcases h with h | h <;> simp [conversionEnd, h]

include hc hw

/-- An abandoned window passes without a result; what waited for its end applies. -/
theorem conversionEnd_abandoned (ha : (d.afe.ch.get ch).abandoned = true) :
    conversionEnd ch smp d = boundary afeHook (fun w => w.bnd == .convEnd ch)
      (when (d.afe.ch.get ch).restart (afeRestart ch) (afeMod ch (windowPass d ch) d)) := by
  simp only [conversionEnd, hc, hw, ha, if_true]

/-- Any other window forms a result; then the channel restarts where it has to, and what waited applies. -/
theorem conversionEnd_eq (ha : (d.afe.ch.get ch).abandoned = false) :
    let w := (filterWindow d ch (d.afe.ch.get ch) ofs smp).2
    let d0 := when (pget d kAfeNotch ch != 0) takeFree d
    let c := windowPass d0 ch (filterWindow d ch (d.afe.ch.get ch) ofs smp).1
    let c1 := windowJudged d0 ch c w
    let r := resultOf d0 ch w c1 (windowRestarts d0 ch c w)
    ∃ (b : Bool) (v : Int) (high : Bool) (why : Option (Nat × Nat × Bool)),
      conversionEnd ch smp d = boundary afeHook (fun w => w.bnd == .convEnd ch)
        (when (windowRestarts d0 ch c w) (afeRestart ch) (when b (urgent 3 ch)
          (resultPlaced d0 ch ofs c1 r v high why))) := by
  intro w d0 c c1 r
  simp only [conversionEnd, hc, hw, ha, if_true, Bool.false_eq_true, if_false]
  exact ⟨_, _, _, _, rfl⟩

/-- The device with the result in place, before the restart and the waits, and what it then holds. -/
theorem conversionEnd_forms (ha : (d.afe.ch.get ch).abandoned = false) :
    let c := d.afe.ch.get ch
    let w := (filterWindow d ch c ofs smp).2
    ∃ e v st, conversionEnd ch smp d = boundary afeHook (fun w => w.bnd == .convEnd ch)
        (when ((c.brk.isSome && (breakCond d ch w).isNone) || c.restart) (afeRestart ch) e) ∧
      FormsResult d ch w e v st := by
  intro c w
  obtain ⟨b, v, high, why, heq⟩ := conversionEnd_eq smp hc hw ha
  simp only [windowRestarts, breakCond_when_takeFree] at heq
  exact ⟨_, _, _, heq, formsResult_placed (breakCond_when_takeFree ..) rfl rfl⟩

/-- SEQ advances, whatever waited for the conversion end. -/
theorem conversionEnd_seq (ha : (d.afe.ch.get ch).abandoned = false) :
    ((conversionEnd ch smp d).afe.ch.get ch).seq = ((d.afe.ch.get ch).seq + 1) % 16 := by
  obtain ⟨e, v, st, heq, hforms⟩ := conversionEnd_forms smp hc hw ha
  rw [heq]
  calc seqAt ch (boundary afeHook _ _).afe
    _ = seqAt ch (when _ (afeRestart ch) e).afe := boundary_keeps_afe (seqAt ch) (seqAt_afeHook ch) _ _
    _ = seqAt ch e.afe := seqAt_when_afeRestart _ ch ch e
    _ = ((d.afe.ch.get ch).seq + 1) % 16 := hforms.seq

end

/-! ## Guards (R177, R178, R502) -/

section
variable {d : Dev} (h : vAt d.pwr.pads 9 false = true)
include h

/-- A guard driver is off while the pads of D9 are held. -/
theorem guardDrive_padsHeld (gd : Fin 8) : guardDrive d gd = .off := by
  rw [guardDrive, if_pos (by simp [h])]

/-- It raises nothing then. -/
theorem guardFault_padsHeld (gd : Fin 8) : guardFault gd d = d := by
  rw [guardFault, guardDrive_padsHeld h]

end

/-- An event raised waits at its port, so that the device is another. -/
theorem raise_ne (p : Fin 8) (code path : Nat) (x : List Byte) (d : Dev) : raise p code path x d ≠ d := by
  intro h
  have hports := congrArg (fun d : Dev => (d.gate.ports.get p).length) h
  simp [raise, raiseAt] at hports

/-- A field die that runs in lock, with D9 on and its pads still held, as after a wake before `PAD_RELEASE` (R501, R502). -/
def padsHeld : State :=
  { State.reset with dev := { State.reset.dev with
    pwr := { State.reset.dev.pwr with fieldPow := true, dom := Vector.replicate 11 0, pads := Vector.replicate 11 true }
    lift := { State.reset.dev.lift with down := .locked 0 } } }

/-- A command to instantiate the statement with; its clause on guards looks at none. -/
def idleCmd : Cmd where
  id := .host 0
  ring := 0
  commander := 0
  flags := 0
  opcode := 0
  target := 0
  length := 0
  timeout := 0
  batchId := 0
  payload := []
  slot := 0
  dup := false
  phase := .taken
  written := false
  note := 0

end Sys2Proof.Machine

namespace Sys2Proof

open Machine

/-- Settles O30: the word's fields side by side, and SEQ through the conversion end and what applies behind it. -/
theorem resultWordLayout : Obligations.ResultWordLayout := by
  refine ⟨fun v st q h h' hst hq => ⟨valueOf_resultWord v hst hq h h', statusOf_resultWord v hst hq, resultWord_seq v hst hq,
    ?code, resultWord_status v hst hq, resultWord_seq v hst hq⟩, fun s ch smp ofs hc hw ha => ?advances⟩
  case code =>
    rw [← toBits24_cast, ← resultWord_value v hst hq]
    rfl
  case advances =>
    exact ⟨_, moves_of_quiet (conversionEnd ch smp) rfl rfl, conversionEnd_seq smp hc hw ha⟩

/-- Settles O31: the abandoned window, the window that forms a result, and the end that is none. -/
theorem conversionEndFormsResult : Obligations.ConversionEndFormsResult := by
  refine ⟨fun s ch smp ofs hc hw => ⟨fun ha => ?abandoned, fun ha => ?forms⟩, fun s ch smp h => ?idle⟩
  case abandoned => exact moves_of_quiet (conversionEnd ch smp) rfl (conversionEnd_abandoned smp hc hw ha)
  case forms =>
    obtain ⟨e, v, st, heq, hforms⟩ := conversionEnd_forms smp hc hw ha
    exact ⟨e, v, st, moves_of_quiet (conversionEnd ch smp) rfl heq, hforms.word, hforms.brk, hforms.broken, hforms.held,
      hforms.others⟩
  case idle => exact stays_of_quiet (conversionEnd ch smp) rfl (conversionEnd_idle smp h)

/-- Refutes O32: while the pads of D9 are held a guard driver is off (R502), and its limit raises nothing, although the field die
runs and D9 is on. -/
theorem not_afeStepsAndConditions : ¬ Obligations.AfeStepsAndConditions := by
  rintro ⟨-, h⟩
  obtain ⟨-, -, -, -, -, -, -, hguard, -⟩ := h padsHeld 0 false 0 0 (.host 0) idleCmd
  obtain ⟨-, hland⟩ := hguard (by decide) (by decide)
  obtain ⟨hraises, -⟩ := hland (by decide)
  have hmoves := hraises (by decide)
  have hstays : exec (.guardFault 0) padsHeld = .next padsHeld :=
    stays_of_quiet (guardFault 0) rfl (guardFault_padsHeld (by decide) 0)
  rw [Moves, hstays] at hmoves
  injection hmoves with hsame
  exact raise_ne _ _ _ _ _ (congrArg State.dev hsame).symm

end Sys2Proof
end

section
/-!
Dielectric moisture: sweeps, the spare path, stale channels and the commands of the channels (R195-R201, R204, R215, R218-R226).
-/
namespace Sys2Proof.Machine

/-- A row of a ready command moves the device by the command's meaning. -/
theorem moves_of_ready {i : Instr} {s : State} {id : CmdId} {op : Nat} {c : Cmd} {t : Dev} (f : Cmd → Dev → Dev)
    (hx : exec i s = quiet (withCmd op id f) s) (hr : Ready s id op c) (h : f c s.dev = t) : Moves i s t := by
  rw [Moves, hx, quiet_of_ready hr, h]

/-! ## Sweeps (R195, R197, R200, R201, R204) -/

/-- The channel at the head of the queue leaves it and sweeps, for a calibration step or not. -/
def sweepBegun (n : Fin 4) (forStep : Bool) (d : Dev) : Dev :=
  { d with dlx := { d.dlx with
    sweep := some { ch := n, pts := [], guardLimit := false, overload := false, forStep := forStep }
    queue := d.dlx.queue.drop 1 } }

section
variable {n : Fin 4} {d : Dev}

/-- It is the turn of a channel that heads the queue while no sweep runs, is held or paused. -/
theorem sweepTurn_iff : (decide (d.dlx.queue.head? = some n) && d.dlx.sweep.isNone && !dlxHeld d && !d.dlx.paused) = true ↔
    d.dlx.queue.head? = some n ∧ d.dlx.sweep = none ∧ dlxHeld d = false ∧ d.dlx.paused = false := by
  simp only [Bool.and_eq_true, decide_eq_true_eq, Option.isNone_iff_eq_none, Bool.not_eq_true', and_assoc]

theorem sweepStart_waits (h : d.dlx.queue.head? ≠ some n ∨ d.dlx.sweep ≠ none ∨ dlxHeld d = true ∨ d.dlx.paused = true) :
    sweepStart n d = d := by
  refine if_neg fun hturn => ?_
  obtain ⟨hhead, hfree, hheld, hpaused⟩ := sweepTurn_iff.1 hturn
  simp [hhead, hfree, hheld, hpaused] at h

section
variable (hhead : d.dlx.queue.head? = some n) (hfree : d.dlx.sweep = none) (hheld : dlxHeld d = false)
  (hpaused : d.dlx.paused = false)
include hhead hfree hheld hpaused

/-- Without a calibration step that waits, the sweep alone begins. -/
theorem sweepStart_noStep (h : (d.dlx.ch.get n).mode ≠ 2 ∨ (d.dlx.ch.get n).steps = []) :
    sweepStart n d = sweepBegun n false d := by
  have hstep : (if (d.dlx.ch.get n).mode = 2 then (d.dlx.ch.get n).steps.head? else none) = none := by
    rcases h with h | h <;> simp [h]
  rw [sweepStart, if_pos (sweepTurn_iff.2 ⟨hhead, hfree, hheld, hpaused⟩)]
  simp only [hstep]
  rfl

/-- In calibration mode the step that waits first begins with the sweep. -/
theorem sweepStart_step {st : CalStep} {rest : List CalStep} (hmode : (d.dlx.ch.get n).mode = 2)
    (hst : (d.dlx.ch.get n).steps = st :: rest) : sweepStart n d = sweepBegun n true (begin_ st.cmd d) := by
  rw [sweepStart, if_pos (sweepTurn_iff.2 ⟨hhead, hfree, hheld, hpaused⟩)]
  simp only [hmode, hst, if_true, List.head?_cons, Option.isSome_some]
  rfl

end

/-- A sweep with one point more: the ratio of current to voltage, and the detector gain it was taken at. -/
def sweepWith (p : SweepPoint) (w : Sweep) : Sweep :=
  let i := cxWords p.iRe p.iIm
  let v := cxWords p.vRe p.vIm
  { w with
    pts := w.pts ++ [(i.div v, detectorGain i v)]
    guardLimit := w.guardLimit || p.guardLimit
    overload := w.overload || detectorOver i v }

@[simp] theorem sweepWith_length (p : SweepPoint) (w : Sweep) : (sweepWith p w).pts.length = w.pts.length + 1 := by
  simp [sweepWith]

/-- The synthesiser in use is no part of the dielectric block, nor of a parameter. -/
@[simp] theorem synthTake_dlx (b : Bool) (d : Dev) : (synthTake b d).dlx = d.dlx := by
  simp only [synthTake]
  split <;> rfl

@[simp] theorem pget_synthTake (b : Bool) (d : Dev) (key inst : Nat) : pget (synthTake b d) key inst = pget d key inst := by
  simp only [synthTake]
  split <;> rfl

/-- The device with another sweep in progress, or none. -/
def sweepSet (o : Option Sweep) (d : Dev) : Dev := { d with dlx := { d.dlx with sweep := o } }

section
variable {w : Sweep} (p : SweepPoint) (hw : d.dlx.sweep = some w) (hch : w.ch = n) (hheld : dlxHeld d = false)
include hw hch hheld

/-- A point is added to its sweep, which ends with the last one. -/
theorem sweepPointEnd_eq :
    let e := synthTake p.synthDiffers d
    sweepPointEnd n p d =
      if (sweepWith p w).pts.length < pget e kDlxPoints n then sweepSet (some (sweepWith p w)) e
      else if (e.dlx.ch.get n).mode = 2 then calSweep n (sweepWith p w) (sweepSet none e)
      else measureSweep n (sweepWith p w) (sweepSet none e) := by
  simp only [sweepPointEnd, hw, hch, hheld, bne_self_eq_false, Bool.or_self, Bool.false_eq_true, if_false]
  subst hch
  rfl

/-- A point before the last one is kept. -/
theorem sweepPointEnd_more (h : w.pts.length + 1 < pget d kDlxPoints n) :
    sweepPointEnd n p d = sweepSet (some (sweepWith p w)) (synthTake p.synthDiffers d) := by
  rw [sweepPointEnd_eq p hw hch hheld, if_pos (by simpa using h)]

/-- The last point ends the sweep, in a calibration step or in a measurement by the channel's mode. -/
theorem sweepPointEnd_last (h : pget d kDlxPoints n ≤ w.pts.length + 1) :
    let e := sweepSet none (synthTake p.synthDiffers d)
    sweepPointEnd n p d =
      if (d.dlx.ch.get n).mode = 2 then calSweep n (sweepWith p w) e else measureSweep n (sweepWith p w) e := by
  rw [sweepPointEnd_eq p hw hch hheld, if_neg (by simpa using h), synthTake_dlx]

end

/-! ## The spare path (R220, R221) -/

/-- The rotation of the spare path's checks goes on to the next path. -/
def rotNext (d : Dev) : Dev := { d with dlx := { d.dlx with rot := (d.dlx.rot + 1) % 4 } }

section
variable {r : DxsCheck} (hheld : dlxHeld d = false) (hspare : d.dlx.spareFree = true) (hrot : d.dlx.rot % 4 = n.val)
include hheld hspare hrot

/-- Paths that agree clear the channel's difference. -/
theorem dxsCheck_agrees (h : r.differs = false) : dxsCheck r d = dlxMod n (fun c => { c with differs := 0 }) (rotNext d) := by
  rw [dxsCheck, if_neg (by simp [hheld, hspare])]
  simp only [hrot, Fin.eta, h, Bool.not_false, if_true]
  rfl

/-- A first difference is noted. -/
theorem dxsCheck_first (h : r.differs = true) (h0 : (d.dlx.ch.get n).differs = 0) :
    dxsCheck r d = dlxMod n (fun c => { c with differs := 1 }) (rotNext d) := by
  rw [dxsCheck, if_neg (by simp [hheld, hspare])]
  simp only [hrot, Fin.eta, h, h0, Bool.not_true, Bool.false_eq_true, if_false, if_true]
  rfl

/-- A second one declares a primary path faulty that fails its own test. -/
theorem dxsCheck_second (h : r.differs = true) (h0 : (d.dlx.ch.get n).differs ≠ 0) (hs : r.spareFails = false)
    (hp : r.primaryFails = true) :
    dxsCheck r d = pathFault n (dlxMod n (fun c => { c with differs := 0 }) (rotNext d)) := by
  rw [dxsCheck, if_neg (by simp [hheld, hspare])]
  simp only [hrot, Fin.eta, h, h0, hs, hp, Bool.not_true, Bool.false_eq_true, if_false, if_true]
  rfl

end

/-! ## Stale channels (R215, R218) -/

theorem dlxMarkStale_stays (h : (d.dlx.ch.get n).stale = true) : dlxMarkStale n d = d := if_pos h

theorem dlxMarkStale_marks (h : (d.dlx.ch.get n).stale = false) : dlxMarkStale n d =
    raise 6 0x3005 (dlxPath n) (le 1 n ++ [0, 0, 0] ++ le 8 (d.dlx.ch.get n).resTick)
      (dlxMod n (fun c =>
        { c with
          stale := true
          result := if statusOf c.result = xProbeFault then c.result else withStatus c.result xStale }) d) :=
  if_neg (by simp [h])

end

/-! ## The commands of the channels (R204, R222, R223, R226) -/

section
variable {c : Cmd} {n : Fin 4} {d : Dev}

section
variable (ht : targetN c = n.val) (hi : byteAt c.payload 0 ≤ 31)
include ht hi

theorem cmdDlxPointRead_held {f : Rat} {e : Cx} {g : Nat}
    (h : (d.dlx.ch.get n).last[byteAt c.payload 0]? = some (f, e, g)) :
    cmdDlxPointRead c d =
      complete c stOk 0 (le 4 (ratRound f).toNat ++ le 4 (toF32 e.re).toNat ++ le 4 (toF32 e.im).toNat ++ le 1 g) d := by
  simp only [cmdDlxPointRead, ht, n.isLt, dite_true, Fin.eta, Nat.not_lt.2 hi, if_false, h]
  rfl

/-- Of a point that no sweep holds, the answer is four free values. -/
theorem cmdDlxPointRead_free (h : (d.dlx.ch.get n).last[byteAt c.payload 0]? = none) :
    cmdDlxPointRead c d = complete c stOk 0
      (le 4 (Config.freeWord d.free).toNat ++ le 4 (Config.freeWord (d.free + 1)).toNat ++
        le 4 (Config.freeWord (d.free + 2)).toNat ++ le 1 (Config.freeWord (d.free + 3)).toNat)
      { d with free := d.free + 4 } := by
  simp only [cmdDlxPointRead, ht, n.isLt, dite_true, Fin.eta, Nat.not_lt.2 hi, if_false, h]
  rfl

end

theorem cmdDlxPointRead_range (h : 4 ≤ targetN c ∨ 31 < byteAt c.payload 0) :
    cmdDlxPointRead c d = complete c stRange 0 [] d := by
  by_cases ht : targetN c < 4
  · have hi : 31 < byteAt c.payload 0 := h.resolve_left (Nat.not_le.2 ht)
    simp only [cmdDlxPointRead, ht, dite_true, hi, if_true, refuse]
  · simp only [cmdDlxPointRead, ht, dite_false, refuse]

section
variable (ht : targetN c = n.val) (hstep : ¬ (byteAt c.payload 0 < 1 ∨ 6 < byteAt c.payload 0))
include ht hstep

/-- Outside calibration mode every step is refused. -/
theorem cmdDlxProbeCal_mode (h : (d.dlx.ch.get n).mode ≠ 2) : cmdDlxProbeCal c d = complete c stRefused 0x31 [] d := by
  simp only [cmdDlxProbeCal, ht, n.isLt, dite_true, Fin.eta, hstep, if_false, bne_iff_ne.2 h, if_true]
  rfl

/-- Steps 1 to 5 wait for their first sweep behind those that wait already. -/
theorem cmdDlxProbeCal_waits (h : (d.dlx.ch.get n).mode = 2) (h6 : byteAt c.payload 0 ≠ 6) :
    cmdDlxProbeCal c d = waitOn c.id (dlxMod n (fun x => { x with steps := x.steps ++
      [{ cmd := c.id, step := byteAt c.payload 0, epsRef := field c.payload 4 4, sweeps := [], overload := false }] }) d) := by
  simp only [cmdDlxProbeCal, ht, n.isLt, dite_true, Fin.eta, hstep, h, h6, if_false, bne_self_eq_false, Bool.false_eq_true]

end

theorem cmdDlxProbeCal_stores (ht : targetN c = n.val) (h : (d.dlx.ch.get n).mode = 2) (h6 : byteAt c.payload 0 = 6) :
    cmdDlxProbeCal c d = calStore c n d := by
  simp [cmdDlxProbeCal, ht, h, h6]

/-- STORE needs the sweeps of the first three steps. -/
theorem calStore_incomplete (h : (d.dlx.ch.get n).cal.open_ = none ∨ (d.dlx.ch.get n).cal.short = none ∨
    (d.dlx.ch.get n).cal.load = none) : calStore c n d = complete c stRefused 0x31 [] d := by
  rw [calStore]
  split
  · next hopen hshort hload => simp [hopen, hshort, hload] at h
  · rfl

section
variable {r : Fin 32} (ht : targetN c = n.val) (hrec : byteAt c.payload 0 = r.val)
  (hg : grainOk (byteAt c.payload 1) = true) (hmode : (d.dlx.ch.get n).mode = 1)
include ht hrec hg hmode

/-- A channel whose window has an OK result and an accepted sweep gives its means to the record. -/
theorem cmdDlxRefCapture_keeps (hok : (windowResult d n (d.dlx.ch.get n)).1 = xOk) (hacc : accepted (d.dlx.ch.get n) ≠ []) :
    let m := windowMeans d n (d.dlx.ch.get n) (byteAt c.payload 1)
    cmdDlxRefCapture c d = complete c stOk 0
      (le 4 (toF32 m.1).toNat ++ le 4 (toF32 m.2.1).toNat ++ le 4 (toF32 m.2.2.1).toNat ++ le 4 (toF32 m.2.2.2.1).toNat ++
        le 2 (ratRound m.2.2.2.2.1).toNat)
      { d with dlx := { d.dlx with recs := vMod d.dlx.recs r fun y => { y with cap := some m } } } := by
  simp [cmdDlxRefCapture, ht, hrec, hg, hmode, hok, hacc, stOk]

theorem cmdDlxRefCapture_refuses
    (h : (windowResult d n (d.dlx.ch.get n)).1 ≠ xOk ∨ accepted (d.dlx.ch.get n) = []) :
    cmdDlxRefCapture c d = complete c stRefused 0x34 [] d := by
  have hbar : ((d.dlx.ch.get n).mode != 1 || (windowResult d n (d.dlx.ch.get n)).1 != xOk ||
      (accepted (d.dlx.ch.get n)).isEmpty) = true := by
    simpa [hmode] using h
  simp only [cmdDlxRefCapture, ht, hrec, hg, n.isLt, r.isLt, and_self, dite_true, Fin.eta, Bool.not_true, Bool.false_eq_true,
    if_false, hbar, if_true]
  rfl

end

theorem cmdDlxRefSet_keeps {r : Fin 32} (h : byteAt c.payload 0 = r.val) : cmdDlxRefSet c d = complete c stOk 0 []
    { d with dlx := { d.dlx with recs := vMod d.dlx.recs r fun y => { y with oven := some (field c.payload 4 2) } } } := by
  simp only [cmdDlxRefSet, h, r.isLt, dite_true, Fin.eta]
  rfl

theorem cmdDlxRefSet_range (h : 32 ≤ byteAt c.payload 0) : cmdDlxRefSet c d = complete c stRange 0 [] d :=
  dif_neg (Nat.not_lt.2 h)

/-- Without COMMIT a fit writes nothing and answers its terms, its standard error and the records used. -/
theorem fitEnd_answers {k form base : Nat} {c0 c1 c2 se : Rat} {rs : List FitRec} (h : byteAt c.payload 8 = 0) :
    fitEnd c k form base c0 c1 c2 se rs d = complete c stOk 0
      (le 4 (toF32 c0).toNat ++ le 4 (toF32 c1).toNat ++ le 4 (toF32 c2).toNat ++ le 4 (toF32 se).toNat ++ le 1 rs.length)
      d := by
  simp [fitEnd, h, stOk]

section
variable (hslot : byteAt c.payload 0 ≤ 15) (hlo : 1 ≤ byteAt c.payload 2) (hhi : byteAt c.payload 2 ≤ 12)
  (hcommit : byteAt c.payload 8 ≤ 1)
include hslot hlo hhi hcommit

/-- Form 0 needs six records, form 1 four. -/
theorem cmdDlxFit_few (hform : byteAt c.payload 1 ≤ 1)
    (h : (fitRecs d (field c.payload 4 4)).length < if byteAt c.payload 1 = 0 then 6 else 4) :
    cmdDlxFit c d = complete c stRefused 0x35 [] d := by
  rw [cmdDlxFit, if_neg (by omega), if_pos h]
  rfl

section
variable (hform : byteAt c.payload 1 = 1) (hn : 4 ≤ (fitRecs d (field c.payload 4 4)).length)
include hform hn

theorem cmdDlxFit_singular (h : fit1 (fitRecs d (field c.payload 4 4)) = none) :
    cmdDlxFit c d = complete c stRefused 0x36 [] d := by
  rw [cmdDlxFit, if_neg (by omega), if_neg (by simpa [hform] using hn), if_pos hform, h]
  rfl

theorem cmdDlxFit_line {a b : Rat} (h : fit1 (fitRecs d (field c.payload 4 4)) = some (a, b)) :
    cmdDlxFit c d = fitEnd c (byteAt c.payload 0) 1 (byteAt c.payload 2) a b 0
      (fitError 2 (fitRecs d (field c.payload 4 4)) (fun r => a + b * r.mb) (·.mo)) (fitRecs d (field c.payload 4 4)) d := by
  rw [cmdDlxFit, if_neg (by omega), if_neg (by simpa [hform] using hn), if_pos hform, h]

end

end

theorem cmdDlxCalRead_answers (hg : grainOk (byteAt c.payload 0) = true) (hw : byteAt c.payload 1 ≤ 15) :
    cmdDlxCalRead c d = complete c stOk 0
      (bytesOf (((calOf d (byteAt c.payload 0) ++ List.replicate 20 0).drop (byteAt c.payload 1)).take 5)) d :=
  if_neg (by simp [hg, hw])

theorem cmdDlxCalRead_range (h : grainOk (byteAt c.payload 0) = false ∨ 15 < byteAt c.payload 1) :
    cmdDlxCalRead c d = complete c stRange 0 [] d :=
  if_pos (by simpa using h)

end

end Sys2Proof.Machine

namespace Sys2Proof

open Machine

/-- Settles O33: each row is a quiet one, so that every clause is the outcome of the row's own function in one of its branches. -/
theorem dielectricSteps : Obligations.DielectricSteps := by
  refine ⟨fun s n p r => ⟨fun hhead hfree hheld hpaused => ⟨fun h => ?noStep, fun st rest hmode hst => ?step⟩, fun h => ?waits,
      fun w hw hch hheld => ⟨fun h => ?more, fun h => ?last⟩,
      fun hheld hspare hrot => ⟨fun h => ?agrees, fun h h0 => ?first, fun h h0 hs hp => ?second⟩,
      fun h => ?calibrated, fun h => ?stale, fun h => ?stays⟩,
    fun s id c n => ⟨fun hr ht hi => ⟨fun f e g h => ?held, fun h => ?free⟩, fun hr h => ?pointRange,
      fun hr ht hlo hhi => ⟨fun h => ?mode, fun h h6 => ?waitsStep, fun h h6 hc => ?store⟩,
      fun hr r ht hrec hg hmode => ⟨fun hok hacc => ?captures, fun h => ?refuses⟩,
      fun hr => ⟨fun r h => ?oven, fun h => ?ovenRange⟩,
      fun hr hslot hlo hhi hc => ⟨fun hform => ⟨fun h => ?few, fun hn h => ?singular, fun a b hn h hc0 => ?line⟩,
        fun hform h => ?fewFull⟩,
      fun hr => ⟨fun hg hw => ?calRead, fun h => ?calRange⟩⟩⟩
  case noStep => exact moves_of_quiet (sweepStart n) rfl (sweepStart_noStep hhead hfree hheld hpaused h)
  case step => exact moves_of_quiet (sweepStart n) rfl (sweepStart_step hhead hfree hheld hpaused hmode hst)
  case waits => exact stays_of_quiet (sweepStart n) rfl (sweepStart_waits h)
  case more => exact moves_of_quiet (sweepPointEnd n p) rfl (sweepPointEnd_more p hw hch hheld h)
  case last => exact moves_of_quiet (sweepPointEnd n p) rfl (sweepPointEnd_last p hw hch hheld h)
  case agrees => exact moves_of_quiet (dxsCheck r) rfl (dxsCheck_agrees hheld hspare hrot h)
  case first => exact moves_of_quiet (dxsCheck r) rfl (dxsCheck_first hheld hspare hrot h h0)
  case second => exact moves_of_quiet (dxsCheck r) rfl (dxsCheck_second hheld hspare hrot h h0 hs hp)
  case calibrated => exact moves_of_quiet (dxsCalEnd n) rfl (if_pos h)
  case stale => exact moves_of_quiet (dlxMarkStale n) rfl (dlxMarkStale_marks h)
  case stays => exact stays_of_quiet (dlxMarkStale n) rfl (dlxMarkStale_stays h)
  case held => exact moves_of_ready cmdDlxPointRead rfl hr (cmdDlxPointRead_held ht hi h)
  case free => exact moves_of_ready cmdDlxPointRead rfl hr (cmdDlxPointRead_free ht hi h)
  case pointRange => exact moves_of_ready cmdDlxPointRead rfl hr (cmdDlxPointRead_range h)
  case mode => exact moves_of_ready cmdDlxProbeCal rfl hr (cmdDlxProbeCal_mode ht (by omega) h)
  case waitsStep => exact moves_of_ready cmdDlxProbeCal rfl hr (cmdDlxProbeCal_waits ht (by omega) h h6)
  case store =>
    exact moves_of_ready cmdDlxProbeCal rfl hr ((cmdDlxProbeCal_stores ht h h6).trans (calStore_incomplete hc))
  case captures => exact moves_of_ready cmdDlxRefCapture rfl hr (cmdDlxRefCapture_keeps ht hrec hg hmode hok hacc)
  case refuses => exact moves_of_ready cmdDlxRefCapture rfl hr (cmdDlxRefCapture_refuses ht hrec hg hmode h)
  case oven => exact moves_of_ready cmdDlxRefSet rfl hr (cmdDlxRefSet_keeps h)
  case ovenRange => exact moves_of_ready cmdDlxRefSet rfl hr (cmdDlxRefSet_range h)
  case few => exact moves_of_ready cmdDlxFit rfl hr (cmdDlxFit_few hslot hlo hhi hc (by omega) (by simpa [hform] using h))
  case singular => exact moves_of_ready cmdDlxFit rfl hr (cmdDlxFit_singular hslot hlo hhi hc hform hn h)
  case line =>
    exact moves_of_ready cmdDlxFit rfl hr ((cmdDlxFit_line hslot hlo hhi hc hform hn h).trans (fitEnd_answers hc0))
  case fewFull => exact moves_of_ready cmdDlxFit rfl hr (cmdDlxFit_few hslot hlo hhi hc (by omega) (by simpa [hform] using h))
  case calRead => exact moves_of_ready cmdDlxCalRead rfl hr (cmdDlxCalRead_answers hg hw)
  case calRange => exact moves_of_ready cmdDlxCalRead rfl hr (cmdDlxCalRead_range h)

end Sys2Proof
end

section
/-!
The field pins: their protection and conditions, the filter tick, the frequency gate and the clears (R228-R267).
-/
namespace Sys2Proof.Machine

/-- A row without ring writes moves the device to its meaning only. -/
theorem dev_of_moves {i : Instr} {s : State} {t : Dev} (f : Dev → Dev) (hx : exec i s = quiet f s) (h : Moves i s t) :
    f s.dev = t := by
  rw [Moves, hx, quiet_next] at h
  injection h with hstate
  exact congrArg State.dev hstate

/-! ## One pin changed -/

section
variable {n : Fin 64} {d : Dev}

/-- Two changes of a pin that agree on its present state are one. -/
theorem pinMod_congr {f g : Pin → Pin} (h : f (d.fio.pin.get n) = g (d.fio.pin.get n)) : pinMod n f d = pinMod n g d := by
  simp only [pinMod, vMod, h]

theorem pinMod_pinMod (f g : Pin → Pin) : pinMod n g (pinMod n f d) = pinMod n (fun p => g (f p)) d := by
  simp only [pinMod, vMod, Vector.set_set, vSet_get_same]

@[simp] theorem pinMod_get_same (f : Pin → Pin) : (pinMod n f d).fio.pin.get n = f (d.fio.pin.get n) :=
  vMod_get_same _ _ _

theorem pinMod_get_other {m : Fin 64} (f : Pin → Pin) (h : m ≠ n) : (pinMod n f d).fio.pin.get m = d.fio.pin.get m :=
  vMod_get_other _ _ h.symm

/-! ## Protection and conditions (R249-R252, R254-R257, R259) -/

theorem pinLimit_marks (hi : (d.fio.pin.get n).ilim = false) (hd : pinDrive d n ≠ 0) :
    pinLimit n d = urgent 0 n (pinMod n (fun p => { p with ilim := true }) d) :=
  if_neg (by simp [hi, hd])

theorem pinLimit_stays (h : (d.fio.pin.get n).ilim = true ∨ pinDrive d n = 0) : pinLimit n d = d :=
  if_pos (by simpa using h)

section
variable (ht : (d.fio.pin.get n).therm = false) (hl : (d.fio.pin.get n).latched = false) (hd : pinDrive d n ≠ 0)
include ht hl hd

/-- A thermal shut-off marks the pin, and latches it where eight restarts lie within the window. -/
theorem pinThermal_marks {latch : Bool} (h : decide (8 ≤ (recentRestarts d (d.fio.pin.get n).restarts).length) = latch) :
    pinThermal n d = when latch (ordinary 6 n)
      (urgent 1 n (pinMod n (fun p => { p with therm := true, latched := latch, ilim := false }) d)) := by
  rw [pinThermal, if_neg (by simp [ht, hl, hd])]
  subst h
  simp only [when, decide_eq_true_eq]

theorem pinThermal_restartable (h : (recentRestarts d (d.fio.pin.get n).restarts).length < 8) : pinThermal n d =
    urgent 1 n (pinMod n (fun p => { p with therm := true, latched := false, ilim := false }) d) :=
  pinThermal_marks ht hl hd (decide_eq_false (Nat.not_le.2 h))

theorem pinThermal_latches (h : 8 ≤ (recentRestarts d (d.fio.pin.get n).restarts).length) : pinThermal n d =
    ordinary 6 n (urgent 1 n (pinMod n (fun p => { p with therm := true, latched := true, ilim := false }) d)) :=
  pinThermal_marks ht hl hd (decide_eq_true h)

end

theorem pinRestart_counts (ht : (d.fio.pin.get n).therm = true) (hl : (d.fio.pin.get n).latched = false)
    (hw : pinWanted d n ≠ 0) : pinRestart n d = urgent 2 n (pinMod n (fun p =>
      { p with therm := false, restarts := d.time.tick :: recentRestarts d p.restarts }) d) :=
  if_neg (by simp [ht, hl, hw])

theorem pinRestart_latched (h : (d.fio.pin.get n).latched = true) : pinRestart n d = d :=
  if_pos (by simp [h])

section
variable (hr : fieldRuns d = true) (hb : bankLowNow d (pinBank n) = false) (ho : (d.fio.pin.get n).openLoad = none)
include hr hb ho

/-- The on-state test of a driven pin (R254). -/
theorem openLoad_driven (hd : pinDrive d n ≠ 0) (hon : pget d kFioOlOn n = 1) (hrev : (d.fio.pin.get n).reverse = false) :
    openLoad n d = ordinary 2 n (pinMod n (fun p => { p with openLoad := some false }) d) := by
  have hdriven : (pinDrive d n != 0) = true := by simpa using hd
  simp only [openLoad, hdriven, hr, hb, ho, hon, hrev]
  rfl

/-- The off-state test of an output that is not driven (R254). -/
theorem openLoad_undriven (hd : pinDrive d n = 0) (hm : isOutput (pinMode d n) = true) (hoff : pget d kFioOlOff n = 1)
    (hs : (d.fio.pin.get n).shortSup = false) :
    openLoad n d = ordinary 2 n (pinMod n (fun p => { p with openLoad := some true }) d) := by
  have hdriven : (pinDrive d n != 0) = false := by simpa using hd
  simp only [openLoad, hdriven, hr, hb, ho, hm, hoff, hs]
  rfl

end

theorem overLoad_marks (hr : fieldRuns d = true) (hd : pinDrive d n ≠ 0) (ho : (d.fio.pin.get n).overLoad = false) :
    overLoad n d = ordinary 3 n (pinMod n (fun p => { p with overLoad := true }) d) :=
  if_neg (by simp [hr, hd, ho])

theorem shortSupply_marks (hr : fieldRuns d = true) (hd : pinDrive d n = 0) (hm : isOutput (pinMode d n) = true)
    (hb : bankLowNow d (pinBank n) = false) (hs : (d.fio.pin.get n).shortSup = false) :
    shortSupply n d = ordinary 4 n (pinMod n (fun p => { p with shortSup := true }) d) :=
  if_neg (by simp [hr, hd, hm, hb, hs])

theorem reverseBlock_marks (hr : fieldRuns d = true) (hd : pinDrive d n ≠ 0) (hv : (d.fio.pin.get n).reverse = false) :
    reverseBlock n d = ordinary 4 n (pinMod n (fun p => { p with reverse := true }) d) :=
  if_neg (by simp [hr, hd, hv])

theorem bankLow_raises {b : Fin 8} (hl : (d.fio.bank.get b).lowRaised = false) (h : 3 ≤ (d.fio.bank.get b).low) :
    bankLow b d = raise 6 0x100D (bankPath 1 b) (le 1 b ++ le 1 (vAt d.pwr.vfb b 0))
      (bankMod b (fun k => { k with lowRaised := true }) d) :=
  if_neg (by simp [hl, h])

theorem bankLow_stays {b : Fin 8} (h : (d.fio.bank.get b).lowRaised = true ∨ (d.fio.bank.get b).low < 3) :
    bankLow b d = d :=
  if_pos (by simpa [or_comm] using h)

end

/-! ## Samples and the filter tick (R232, R262) -/

/-- A pin is sampled: the field die and its pins are powered, the pin is not OFF and its mode has arrived there (R232, R262). -/
def pinSampled (n : Fin 64) (d : Dev) : Bool :=
  fieldRuns d && domOn d 8 && pinMode d n != 0 && !d.lift.cfg.any (fun e => e.1 == addrOf kFioMode n)

section
variable {n : Fin 64} {d : Dev}

theorem pinSampled_eq_false_iff : pinSampled n d = false ↔ fieldRuns d = false ∨ domOn d 8 = false ∨ pinMode d n = 0 ∨
    ∃ w, (addrOf kFioMode n, w) ∈ d.lift.cfg := by
  simp only [pinSampled, Bool.and_eq_false_iff, bne_eq_false_iff_eq, Bool.not_eq_false', List.any_eq_true, beq_iff_eq,
    Prod.exists, exists_and_right, exists_eq_right, or_assoc]

theorem pinSampled_iff : pinSampled n d = true ↔ fieldRuns d = true ∧ domOn d 8 = true ∧ pinMode d n ≠ 0 ∧
    ∀ w, (addrOf kFioMode n, w) ∉ d.lift.cfg := by
  rw [← Bool.not_eq_false, pinSampled_eq_false_iff]
  simp only [not_or, Bool.not_eq_false, not_exists, ne_eq]

theorem filterTick_sampled (h : pinSampled n d = true) (smps : List PinSample) :
    filterTick n smps d = forEach smps (pinSample n) d :=
  if_pos h

theorem filterTick_unsampled (h : pinSampled n d = false) (smps : List PinSample) : filterTick n smps d = d :=
  if_neg (by rw [← pinSampled, h]; exact Bool.false_ne_true)

section
variable {β : Type} (g : Dev → β) (hmod : ∀ f d, g (pinMod n f d) = g d)
  (hevt : ∀ o code d, g (ordinaryBy o code n d) = g d)
include hmod hevt

theorem pinEdge_keeps (up : Bool) (d : Dev) : g (pinEdge n up d) = g d := by
  simp only [pinEdge, ordinary, apply_ite g, hmod, hevt, ite_self]

theorem pinFresh_keeps (smp : PinSample) (d : Dev) : g (pinFresh n smp d) = g d := by
  simp only [pinFresh, when, apply_ite g, hmod, hevt, ite_self]

theorem filterTake_keeps (s : Bool) (d : Dev) : g (filterTake n s d) = g d := by
  simp only [filterTake, ordinary, apply_ite g, pinEdge_keeps g hmod hevt, hmod, hevt, ite_self]

/-- What neither a change of the pin nor an event of it alters, a sample keeps. -/
theorem pinSample_keeps (smp : PinSample) (d : Dev) : g (pinSample n smp d) = g d := by
  simp only [pinSample]
  split
  · exact pinFresh_keeps g hmod hevt smp d
  · simp only [apply_ite g, filterTake_keeps g hmod hevt, hmod, ite_self]

end

/-- A sample does not end the sampling of its pin. -/
@[simp] theorem pinSampled_pinSample (smp : PinSample) (d : Dev) : pinSampled n (pinSample n smp d) = pinSampled n d :=
  pinSample_keeps (pinSampled n) (fun _ _ => rfl) (fun _ _ _ => rfl) smp d

/-- Samples act one after the other. -/
theorem filterTick_cons (h : pinSampled n d = true) (smp : PinSample) (smps : List PinSample) :
    filterTick n (smp :: smps) d = filterTick n smps (filterTick n [smp] d) := by
  simp only [filterTick_sampled h]
  exact (filterTick_sampled ((pinSampled_pinSample smp d).trans h) smps).symm

/-- Before the filter tick a sample gives the pin its raw bit and its band. -/
theorem pinSample_between {smp : PinSample} (hf : (d.fio.pin.get n).fresh = false)
    (h : (d.fio.pin.get n).since + 1 < pget d kFioFiltTick n) :
    pinSample n smp d =
      let p := d.fio.pin.get n
      pinMod n (fun q => { bandTake (pinBand p smp) q with raw := pinSampleBit d n p smp, since := p.since + 1 }) d := by
  simp only [pinSample, hf, Bool.false_eq_true, if_false]
  exact if_neg (Nat.not_le.2 h)

/-- At the filter tick a sample gives the pin its raw bit and its band, and its filters step on the bit. -/
theorem pinSample_atTick {smp : PinSample} (hf : (d.fio.pin.get n).fresh = false)
    (h : pget d kFioFiltTick n ≤ (d.fio.pin.get n).since + 1) :
    pinSample n smp d =
      let p := d.fio.pin.get n
      let s := pinSampleBit d n p smp
      filterTake n s (pinMod n (fun q => { bandTake (pinBand p smp) q with raw := s, since := p.since + 1 }) d) := by
  simp only [pinSample, hf, Bool.false_eq_true, if_false]
  exact if_pos h

/-- A pin without wire supervision publishes the value decided before and takes its filter's step (R232). -/
def filterPublished (f : Nat × Bool) (p : Pin) : Pin :=
  { p with since := 0, count := f.1, next := f.2, filtered := p.next, wbCount := 0, wbNext := false, broken := false }

theorem filterTake_unsupervised (hm : pinMode d n ≠ 2) (s : Bool) :
    filterTake n s d =
      let p := d.fio.pin.get n
      let e := pinMod n (filterPublished (filterStep (pget d kFioFiltN n) s p.count p.next)) d
      if p.next = p.filtered then e else pinEdge n p.next e := by
  have hwb : (pinMode d n == 2) = false := by simpa using hm
  simp only [filterTake, hwb, Bool.false_and, Bool.false_eq_true, if_false]
  by_cases hsame : (d.fio.pin.get n).next = (d.fio.pin.get n).filtered
  · rw [if_pos hsame, if_neg (by simpa using hsame)]
    exact pinMod_congr rfl
  · rw [if_neg hsame, if_pos (by simpa using hsame)]
    exact congrArg (pinEdge n _) (pinMod_congr rfl)

theorem pinSample_publishes {smp : PinSample} (hf : (d.fio.pin.get n).fresh = false)
    (h : pget d kFioFiltTick n ≤ (d.fio.pin.get n).since + 1) (hm : pinMode d n ≠ 2) :
    pinSample n smp d =
      let p := d.fio.pin.get n
      let s := pinSampleBit d n p smp
      let e := pinMod n (fun q => filterPublished (filterStep (pget d kFioFiltN n) s p.count p.next)
        { bandTake (pinBand p smp) q with raw := s }) d
      if p.next = p.filtered then e else pinEdge n p.next e := by
  refine (pinSample_atTick hf h).trans ((filterTake_unsupervised (d := pinMod n _ d) hm _).trans ?_)
  simp only [pinMod_get_same, pinMod_pinMod]
  rfl

end

/-! ## The frequency gate (R240, R241) -/

/-- The latest gate boundary of a pin, as a tick. -/
def gateBoundary (n : Fin 64) (d : Dev) : Nat := d.time.tick / pget d kFioCntGateMs n * pget d kFioCntGateMs n

section
variable {n : Fin 64} {d : Dev} {b : Nat}

theorem freqGate_otherMode (hm : pinMode d n ≠ 3) : freqGate n d = d :=
  if_pos (by simpa using hm)

section
variable (hm : pinMode d n = 3)
include hm

/-- A boundary whose latch has not come waits for it. -/
theorem freqGate_waits (h : (d.fio.pin.get n).cdTick = none ∨ ∃ b, (d.fio.pin.get n).cdTick = some b ∧ b < gateBoundary n d) :
    freqGate n d = pinMod n (fun p => { p with gateDue := true }) d := by
  rw [freqGate, if_neg (by simp [hm])]
  rcases h with h | ⟨b, h, hlt⟩
  · rw [h]
  · rw [h]
    exact if_neg (Nat.not_le.2 hlt)

theorem freqGate_takes (h : (d.fio.pin.get n).cdTick = some b) (hb : gateBoundary n d ≤ b) : freqGate n d = gateTake n b d := by
  rw [freqGate, if_neg (by simp [hm]), h]
  exact if_pos hb

end

theorem gateTake_begins (h : (d.fio.pin.get n).gate = none) : gateTake n b d = pinMod n (fun p =>
    { p with gate := some (b, p.cdCount), gateDue := false, gateSilent := d.lift.silent, freqStale := true }) d := by
  rw [gateTake, h]

theorem gateTake_computes {a k : Nat} (h : (d.fio.pin.get n).gate = some (a, k)) (hab : a < b) :
    gateTake n b d = pinMod n (fun p =>
      { p with
        gate := some (b, p.cdCount)
        gateDue := false
        freq := (p.cdCount + 2 ^ 32 - k) % 2 ^ 32 * 1000000 / (b - a) % 2 ^ 32
        freqStale := p.gateSilent || d.lift.silent
        gateSilent := d.lift.silent }) d := by
  rw [gateTake, h]
  exact (if_neg (Nat.not_le.2 hab)).trans (pinMod_congr rfl)

end

/-! ## FIO_CLEAR and FIO_CNT_CLEAR (R241, R252, R266, R494) -/

section
variable {c : Cmd} {d : Dev} {n : Fin 64}

theorem cmdFioClear_range (h : 64 ≤ targetN c) : cmdFioClear c d = complete c stRange 0 [] d :=
  dif_neg (Nat.not_lt.2 h)

theorem cmdFioCntClear_range (h : 64 ≤ targetN c) : cmdFioCntClear c d = complete c stRange 0 [] d :=
  dif_neg (Nat.not_lt.2 h)

section
variable (ht : targetN c = n.val)
include ht

theorem cmdFioClear_failed (h : bitOf d.pwr.pinFail n = true) : cmdFioClear c d = complete c stRefused 0x94 [] d := by
  simp [cmdFioClear, ht, h, refuse, refused, stRefused]

theorem cmdFioCntClear_failed (h : bitOf d.pwr.pinFail n = true) : cmdFioCntClear c d = complete c stRefused 0x94 [] d := by
  simp [cmdFioCntClear, ht, h, refuse, refused, stRefused]

section
variable (hp : bitOf d.pwr.pinFail n = false)
include hp

theorem cmdFioClear_unlatched (h : (d.fio.pin.get n).latchRec = false) :
    cmdFioClear c d = complete c stRefused 0x13 [] d := by
  simp [cmdFioClear, ht, hp, h, refuse, refused, stRefused]

theorem cmdFioClear_begins (h : (d.fio.pin.get n).latchRec = true) : cmdFioClear c d =
    begin_ c.id (pinMod n (fun p => { p with clearPend := true, clearCmd := p.clearCmd ++ [c.id] }) d) := by
  simp [cmdFioClear, ht, hp, h]

theorem cmdFioCntClear_waits : cmdFioCntClear c d =
    waitOn c.id (pinMod n (fun p => { p with cntCmd := p.cntCmd ++ [c.id] }) d) := by
  simp [cmdFioCntClear, ht, hp]

end

end

end

end Sys2Proof.Machine

namespace Sys2Proof

open Machine

/-- Settles O34: each row is a quiet one, so that every clause is the outcome of the row's own function in one of its branches. -/
theorem pinProtectionAndConditions : Obligations.PinProtectionAndConditions := by
  refine ⟨fun s n b => ⟨fun hi hd => ?limit, fun h => ?limitStays, fun ht hl hd => ⟨fun h => ?restartable, fun h => ?latches⟩,
      fun ht hl hw => ?restart, fun h => ?latched,
      fun hr hb ho => ⟨fun hd hon hrev => ?openOn, fun hd hm hoff hs => ?openOff⟩,
      fun hr hd ho => ?overLoad, fun hr hd hm hb hs => ?shortSupply, fun hr hd hv => ?reverse,
      fun hl h => ?bankLow, fun h => ?bankStays⟩,
    fun s n => ⟨moves_of_quiet (pinLimitEnd n) rfl rfl, moves_of_quiet (openLoadEnd n) rfl rfl,
      moves_of_quiet (overLoadEnd n) rfl rfl, moves_of_quiet (shortSupplyEnd n) rfl rfl,
      moves_of_quiet (reverseBlockEnd n) rfl rfl, fun _ f hne => pinMod_get_other f hne⟩⟩
  case limit => exact moves_of_quiet (pinLimit n) rfl (pinLimit_marks hi hd)
  case limitStays => exact stays_of_quiet (pinLimit n) rfl (pinLimit_stays h)
  case restartable => exact moves_of_quiet (pinThermal n) rfl (pinThermal_restartable ht hl hd h)
  case latches => exact moves_of_quiet (pinThermal n) rfl (pinThermal_latches ht hl hd h)
  case restart => exact moves_of_quiet (pinRestart n) rfl (pinRestart_counts ht hl hw)
  case latched => exact stays_of_quiet (pinRestart n) rfl (pinRestart_latched h)
  case openOn => exact moves_of_quiet (openLoad n) rfl (openLoad_driven hr hb ho hd hon hrev)
  case openOff => exact moves_of_quiet (openLoad n) rfl (openLoad_undriven hr hb ho hd hm hoff hs)
  case overLoad => exact moves_of_quiet (overLoad n) rfl (overLoad_marks hr hd ho)
  case shortSupply => exact moves_of_quiet (shortSupply n) rfl (shortSupply_marks hr hd hm hb hs)
  case reverse => exact moves_of_quiet (reverseBlock n) rfl (reverseBlock_marks hr hd hv)
  case bankLow => exact moves_of_quiet (bankLow b) rfl (bankLow_raises hl h)
  case bankStays => exact stays_of_quiet (bankLow b) rfl (bankLow_stays h)

/-- Settles O35: a sample keeps what the sampling depends on, so that samples act one after the other; every other clause is the
outcome of the row's own function in one of its branches. -/
theorem pinFilterAndGate : Obligations.PinFilterAndGate := by
  refine fun s n smp id c => ⟨fun h smps => ?unsampled,
    fun hr hd hm hcfg => ⟨?noSample, fun smps e he => ?samples, fun hf => ⟨fun h => ?between, fun h hm2 => ?publishes⟩⟩,
    fun hm => ⟨fun h => ?gateWaits, fun b hb he hg => ?gateBegins, fun a b k hb he hg hab => ?gateComputes⟩,
    fun h => ?otherMode,
    fun hr => ⟨fun h => ?clearRange, fun ht h => ?clearFailed, fun ht hp => ⟨fun h => ?unlatched, fun h => ?clears⟩⟩,
    fun hr => ⟨fun h => ?cntRange, fun ht h => ?cntFailed, fun ht hp => ?cntWaits⟩⟩
  case unsampled =>
    exact stays_of_quiet (filterTick n smps) rfl (filterTick_unsampled (pinSampled_eq_false_iff.2 h) smps)
  case noSample => exact stays_of_quiet (filterTick n []) rfl (filterTick_sampled (pinSampled_iff.2 ⟨hr, hd, hm, hcfg⟩) [])
  case samples =>
    have hfirst : filterTick n [smp] s.dev = e := dev_of_moves (filterTick n [smp]) rfl he
    refine moves_of_quiet (filterTick n (smp :: smps)) rfl ?_
    rw [filterTick_cons (pinSampled_iff.2 ⟨hr, hd, hm, hcfg⟩), hfirst]
  case between =>
    have hone := filterTick_sampled (pinSampled_iff.2 ⟨hr, hd, hm, hcfg⟩) [smp]
    exact moves_of_quiet (filterTick n [smp]) rfl (hone.trans (pinSample_between hf h))
  case publishes =>
    have hone := filterTick_sampled (pinSampled_iff.2 ⟨hr, hd, hm, hcfg⟩) [smp]
    exact moves_of_quiet (filterTick n [smp]) rfl (hone.trans (pinSample_publishes hf h hm2))
  case gateWaits => exact moves_of_quiet (freqGate n) rfl (freqGate_waits hm h)
  case gateBegins => exact moves_of_quiet (freqGate n) rfl ((freqGate_takes hm hb he).trans (gateTake_begins hg))
  case gateComputes => exact moves_of_quiet (freqGate n) rfl ((freqGate_takes hm hb he).trans (gateTake_computes hg hab))
  case otherMode => exact stays_of_quiet (freqGate n) rfl (freqGate_otherMode h)
  case clearRange => exact moves_of_ready cmdFioClear rfl hr (cmdFioClear_range h)
  case clearFailed => exact moves_of_ready cmdFioClear rfl hr (cmdFioClear_failed ht h)
  case unlatched => exact moves_of_ready cmdFioClear rfl hr (cmdFioClear_unlatched ht hp h)
  case clears => exact moves_of_ready cmdFioClear rfl hr (cmdFioClear_begins ht hp h)
  case cntRange => exact moves_of_ready cmdFioCntClear rfl hr (cmdFioCntClear_range h)
  case cntFailed => exact moves_of_ready cmdFioCntClear rfl hr (cmdFioCntClear_failed ht h)
  case cntWaits => exact moves_of_ready cmdFioCntClear rfl hr (cmdFioCntClear_waits ht hp)

end Sys2Proof
end

section
/-!
The valve drive: the phases of a profile, trips, thermal shut-offs, restarts and diagnostics, and the commands (R268-R302).
-/
namespace Sys2Proof.Machine

/-! ## The phases of a profile (R281, R286, R293-R298) -/

section
variable {n : Fin 16} {us : Nat} {d : Dev}

theorem delayEnd_ends (hp : (vlvCh d n).phase = .delay) (hr : fieldRuns d = true) : delayEnd n d = afterDelay n d :=
  if_pos (by simp [hp, hr])

theorem delayEnd_stays (h : (vlvCh d n).phase ≠ .delay ∨ fieldRuns d = false) : delayEnd n d = d :=
  if_neg (by rcases h with h | h <;> simp [h])

theorem afterDelay_peaks (h : mustDefer d n = false) : afterDelay n d = enterPeak n 0 d :=
  if_neg (by simp [h])

section
variable (hm : mustDefer d n = true)
include hm

theorem afterDelay_defers (h : (vlvCh d n).safePeak = true ∨ ((vlvCh d n).prof.map (·.deferMax)).getD 0 ≠ 0) :
    afterDelay n d = vlvMod n (fun c => { c with phase := .defer, deferAt := fieldNow d }) d :=
  (if_pos hm).trans (if_neg (by rcases h with h | h <;> simp [h]))

theorem afterDelay_rejects (hs : (vlvCh d n).safePeak = false) (h : ((vlvCh d n).prof.map (·.deferMax)).getD 0 = 0) :
    afterDelay n d = endNever n 5 (vlvDiag n 4 d) :=
  (if_pos hm).trans (if_pos (by simp [hs, h]))

end

theorem deferExpired_rejects (hp : (vlvCh d n).phase = .defer) (hs : (vlvCh d n).safePeak = false) :
    deferExpired n d = endNever n 5 (vlvDiag n 4 d) :=
  if_pos (by simp [hp, hs])

theorem f2WaitExpired_ends (hp : (vlvCh d n).phase = .shedWait) : f2WaitExpired n d = endNever n 6 d :=
  if_pos (by simp [hp])

/-- The time to the peak current is taken, in steps of 10 µs, and shows that the coil carries current. -/
def peakTimed (n : Fin 16) (us : Nat) (d : Dev) : Dev :=
  vlvMod n (fun c => { c with ttp := some (us / 10), coilSeen := true }) d

section
variable {p : Profile} (hp : (vlvCh d n).phase = .peak) (ht : (vlvCh d n).ttp = none) (hf : f2On d = false)
  (hprof : (vlvCh d n).prof = some p)
include hp ht hf hprof

/-- Outside F2 the first time to the peak current is judged by the profile's limits. -/
theorem peakReached_judged : peakReached n us d =
    if us < p.ttpMin then vlvDiag n 1 (peakTimed n us d)
    else if p.ttpMax < us then vlvDiag n 2 (peakTimed n us d) else peakTimed n us d := by
  have hf' : f2On (peakTimed n us d) = false := hf
  rw [peakTimed] at hf' ⊢
  simp only [peakReached, hp, ht, hprof, hf']
  rfl

theorem peakReached_inTime (hmin : p.ttpMin ≤ us) (hmax : us ≤ p.ttpMax) : peakReached n us d = peakTimed n us d := by
  rw [peakReached_judged hp ht hf hprof, if_neg (Nat.not_lt.2 hmin), if_neg (Nat.not_lt.2 hmax)]

theorem peakReached_early (hmin : us < p.ttpMin) : peakReached n us d = vlvDiag n 1 (peakTimed n us d) := by
  rw [peakReached_judged hp ht hf hprof, if_pos hmin]

theorem peakReached_late (hmin : p.ttpMin ≤ us) (hmax : p.ttpMax < us) :
    peakReached n us d = vlvDiag n 2 (peakTimed n us d) := by
  rw [peakReached_judged hp ht hf hprof, if_neg (Nat.not_lt.2 hmin), if_pos hmax]

end

section
variable (hp : (vlvCh d n).phase = .peak) (ht : (vlvCh d n).ttp ≠ none)
include hp ht

/-- A peak that was reached ends without a diagnosis. -/
theorem peakEnd_reached : peakEnd n us d =
    let c := vlvCh d n
    wakePartner n us
      (if c.safePeak then
        vlvMod n (fun c => { c with phase := .safeSet, safePeak := false }) (if c.prof.isSome then endProfile n d else d)
      else if c.prof.isSome && c.cause != 0 then startDecay n (wantsFast d n) (partnerOn d n) d
      else vlvMod n (fun c => { c with phase := .hold, hot := true }) d) := by
  have htimed : (vlvCh d n).ttp.isNone = false := by simpa [Option.isSome_iff_ne_none] using ht
  simp only [peakEnd, hp, htimed]
  rfl

theorem peakEnd_holds (hs : (vlvCh d n).safePeak = false) (hc : (vlvCh d n).cause = 0) :
    peakEnd n us d = wakePartner n us (vlvMod n (fun c => { c with phase := .hold, hot := true }) d) := by
  simp [peakEnd_reached hp ht, hs, hc]

theorem peakEnd_safeSet (hs : (vlvCh d n).safePeak = true) (hprof : (vlvCh d n).prof = none) :
    peakEnd n us d = wakePartner n us (vlvMod n (fun c => { c with phase := .safeSet, safePeak := false }) d) := by
  simp [peakEnd_reached hp ht, hs, hprof]

end

theorem peakEnd_stays (h : (vlvCh d n).phase ≠ .peak) : peakEnd n us d = d :=
  if_pos (by simpa using h)

theorem holdEnd_decays (h : (vlvCh d n).phase = .hold) :
    holdEnd n d = startDecay n (wantsFast d n) (partnerOn d n) d :=
  if_pos (by simp [h])

theorem holdEnd_stays (h : (vlvCh d n).phase ≠ .hold) : holdEnd n d = d :=
  if_neg (by simpa using h)

section
variable {p : Profile} (hprof : (vlvCh d n).prof = some p)
include hprof

theorem decayEnd_slow (h : (vlvCh d n).phase = .decaySlow) : decayEnd n us d = endProfile n d := by
  simp only [decayEnd, h, hprof]
  rfl

/-- Only a fast decay has made the partner wait. -/
theorem decayEnd_fast (h : (vlvCh d n).phase = .decayFast) : decayEnd n us d = wakePartner n us (endProfile n d) := by
  simp only [decayEnd, h, hprof]
  rfl

end

end

/-! ## The channels that a fault turns off (R285, R288) -/

section
variable {n : Fin 16} {hs : Bool} {d : Dev}

/-- A channel is one of its pair. -/
theorem mem_vlvPair (n : Fin 16) : n ∈ [pairEven (vlvPair n), pairOdd (vlvPair n)] := by
  simp only [List.mem_cons, List.not_mem_nil, or_false, Fin.ext_iff, pairEven, pairOdd, vlvPair]
  omega

theorem vlvOff_alone (hj : vlvJoined d n = false) : vlvOff d n false = [n] := by
  simp [vlvOff, hj]

theorem vlvOff_both (h : hs = true ∨ vlvJoined d n = true) :
    vlvOff d n hs = [pairEven (vlvPair n), pairOdd (vlvPair n)] :=
  if_pos (by simpa using h)

/-- A channel of a pair that is not paralleled ends its own profile. -/
theorem vlvEnded_alone (hj : vlvJoined d n = false) : vlvEnded d n false = [n] := by
  simp [vlvEnded, vlvOff_alone hj, vlvLead, hj]

/-- The channel itself is among those that a fault of its switches turns off. -/
theorem self_mem_vlvOff (d : Dev) (n : Fin 16) (hs : Bool) : n ∈ vlvOff d n hs := by
  rw [vlvOff]
  split
  · exact mem_vlvPair n
  · exact List.mem_singleton_self n

/-! ## Trips (R288) -/

/-- A trip marks the channels that carry current through the switch, and ends what runs in them. -/
theorem vlvTrip_ends (h : hs = true ∨ carries d n hs = true) (hk : ∃ k ∈ vlvOff d n hs, carries d k hs = true) :
    vlvTrip n hs d = wakeAll (forEach ((vlvEnded d n hs).filter (carries d · hs)) vlvTripEnd
      (forEach ((vlvOff d n hs).filter (carries d · hs)) (vlvTripMark hs) d)) := by
  refine if_neg ?_
  rcases h with h | h <;> simpa [h] using hk

theorem vlvTrip_alone (hj : vlvJoined d n = false) (hc : carries d n false = true) :
    vlvTrip n false d = wakeAll (vlvTripEnd n
      (urgent 0 (64 + n) (vlvMod n (fun c => { c with fault := true, hsFault := false }) d))) := by
  have hone : [n].filter (carries d · false) = [n] := List.filter_cons_of_pos hc
  rw [vlvTrip_ends (.inr hc) ⟨n, self_mem_vlvOff d n false, hc⟩, vlvOff_alone hj, vlvEnded_alone hj, hone]
  rfl

theorem vlvTrip_low_stays (h : carries d n false = false) : vlvTrip n false d = d :=
  if_pos (by simp [h])

theorem vlvTrip_high_stays (he : carries d (pairEven (vlvPair n)) true = false)
    (ho : carries d (pairOdd (vlvPair n)) true = false) : vlvTrip n true d = d :=
  if_pos (by simp [vlvOff_both (.inl rfl), he, ho])

/-! ## Thermal shut-offs and restarts (R289) -/

theorem vlvThermal_low (ht : (vlvCh d n).therm = false) (hc : carries d n true = true) :
    vlvThermal n false d = wakeAll (forEach (vlvEnded d n false)
      (vlvShutEnd false (8 ≤ (recentRestarts d (vlvCh d n).restarts).length))
      (vlvShutMark false n (vlvMod n (fun c => { c with therm := true }) d))) :=
  if_neg (by simp [ht, hc])

theorem vlvThermal_high (ht : (d.vlv.hs.get (vlvPair n)).therm = false)
    (hc : carries d (pairEven (vlvPair n)) true = true ∨ carries d (pairOdd (vlvPair n)) true = true) :
    vlvThermal n true d = wakeAll (forEach (vlvEnded d n true)
      (vlvShutEnd true (8 ≤ (recentRestarts d (d.vlv.hs.get (vlvPair n)).restarts).length))
      (vlvShutMark true (pairOdd (vlvPair n)) (vlvShutMark true (pairEven (vlvPair n))
        { d with vlv := { d.vlv with hs := vMod d.vlv.hs (vlvPair n) fun x => { x with therm := true } } }))) :=
  if_neg (by rcases hc with hc | hc <;> simp [ht, hc])

theorem vlvThermal_low_stays (h : (vlvCh d n).therm = true ∨ carries d n true = false) : vlvThermal n false d = d :=
  if_pos (by simpa using h)

theorem vlvRestart_low (ht : (vlvCh d n).therm = true) (hl : ∀ k ∈ vlvEnded d n false, (vlvCh d k).latched = false) :
    vlvRestart n false d = forEach (vlvEnded d n false) vlvResume (urgent 2 (64 + n)
      (vlvMod n (fun c => { c with therm := false, restarts := d.time.tick :: recentRestarts d c.restarts }) d)) :=
  if_neg (by simpa [ht] using hl)

theorem vlvRestart_latched (h : ∃ k ∈ vlvEnded d n hs, (vlvCh d k).latched = true) : vlvRestart n hs d = d :=
  if_pos (by rw [Bool.or_eq_true]; exact .inr (List.any_eq_true.2 h))

theorem vlvRestart_low_cool (h : (vlvCh d n).therm = false) : vlvRestart n false d = d :=
  if_pos (by simp [h])

/-! ## Diagnostics (R284, R287) -/

theorem openCoil_marks (ho : (vlvCh d n).openCoil = false)
    (hp : (vlvCh d n).phase = .peak ∨ (vlvCh d n).phase = .hold ∨ (vlvCh d n).phase = .prop) :
    openCoil n d = ordinary 2 (64 + n) (vlvMod n (fun c => { c with openCoil := true, coilSeen := false }) d) :=
  if_neg (by rcases hp with hp | hp | hp <;> simp [ho, hp])

theorem openCoilEnd_prop (h : (vlvCh d n).phase = .prop) :
    openCoilEnd n d = vlvMod n (fun c => { c with openCoil := false }) d := by
  rw [openCoilEnd, h]

/-- In a profile the condition ends with the profile (log entry 151). -/
theorem openCoilEnd_profile (h : (vlvCh d n).phase = .peak ∨ (vlvCh d n).phase = .hold) :
    openCoilEnd n d = vlvMod n (fun c => { c with coilSeen := true }) d := by
  rcases h with h | h <;> rw [openCoilEnd, h]

theorem regFault_diagnoses (h : (vlvCh d n).phase = .prop ∨ (vlvCh d n).phase = .safeSet) :
    regFault n d = vlvDiag n 8 d :=
  if_pos (by simpa using h)

/-! ## The duty limit (R290, R292) -/

/-- The bin that closes is counted as energised by what the channel was in it, and its phase opens the next. -/
def dutyClosed (n : Fin 16) (d : Dev) : Dev :=
  let inPhase := (vlvCh d n).phase == .peak || (vlvCh d n).phase == .hold
  vlvMod n (fun c => { c with hot := inPhase, bins := binsCut 600000 (binsPush (c.hot || inPhase) c.bins) }) d

/-- The energised bins of the window exceed the limit. -/
def dutyOver (n : Fin 16) (d : Dev) : Bool :=
  fpairV d kVlvDutyPct n * dutyWin d n < binsOn (dutyWin d n) (vlvCh d n).bins * 100

section
variable (hm : isPulseMode (vlvMode d n) = true) (hp : d.pwr.fieldPow = true) (hl : (vlvCh d n).dutyLimit = false)
include hm hp hl

theorem dutyBin_limits (h : dutyOver n (dutyClosed n d) = true) :
    dutyBin n d = vlvDiag n 6 (vlvMod n (fun c => { c with dutyLimit := true }) (dutyClosed n d)) :=
  (if_neg (by simp [hm, hp])).trans (if_pos (by rw [hl]; exact h))

theorem dutyBin_counts (h : dutyOver n (dutyClosed n d) = false) : dutyBin n d = dutyClosed n d :=
  (if_neg (by simp [hm, hp])).trans ((if_neg (by rw [hl]; exact Bool.eq_false_iff.1 h)).trans (if_neg (by simp [hl])))

end

end

/-! ## VLV_PULSE and VLV_CLEAR (R277, R289, R291, R301, R494) -/

section
variable {c : Cmd} {d : Dev} {n : Fin 16}

/-- The refusals of `VLV_PULSE`, in the order in which they are judged. -/
def pulseChecks (n : Fin 16) (t : Nat) (d : Dev) : List (Bool × Refuse) :=
  [(bitOf d.pwr.vdFail n, refused 0x94), (claimed d (64 + n), refused 0x40),
    (vlvSlave d n || !isPulseMode (pget d kVlvMode n), refused 0x43), (latchKnown (vlvCh d n), refused 0x46),
    (t != 0 && (t < 10 || 6000000 < t), ⟨stRange, 0⟩), (bitOf (vlvCh d n).status.toNat 2, refused 0x42)]

section
variable {t : Nat}

theorem pulseChecks_failed (h : bitOf d.pwr.vdFail n = true) : firstRefusal (pulseChecks n t d) = some (refused 0x94) := by
  simp [pulseChecks, firstRefusal, h]

section
variable (hv : bitOf d.pwr.vdFail n = false)
include hv

theorem pulseChecks_claimed (h : claimed d (64 + n) = true) : firstRefusal (pulseChecks n t d) = some (refused 0x40) := by
  simp [pulseChecks, firstRefusal, hv, h]

section
variable (hc : claimed d (64 + n) = false)
include hc

theorem pulseChecks_mode (h : vlvSlave d n = true ∨ isPulseMode (pget d kVlvMode n) = false) :
    firstRefusal (pulseChecks n t d) = some (refused 0x43) := by
  rcases h with h | h <;> simp [pulseChecks, firstRefusal, hv, hc, h]

section
variable (hs : vlvSlave d n = false) (hm : isPulseMode (pget d kVlvMode n) = true)
include hs hm

theorem pulseChecks_latched (h : latchKnown (vlvCh d n) = true) :
    firstRefusal (pulseChecks n t d) = some (refused 0x46) := by
  simp [pulseChecks, firstRefusal, hv, hc, hs, hm, h]

section
variable (hl : latchKnown (vlvCh d n) = false)
include hl

theorem pulseChecks_time (h0 : t ≠ 0) (h : t < 10 ∨ 6000000 < t) :
    firstRefusal (pulseChecks n t d) = some ⟨stRange, 0⟩ := by
  simp [pulseChecks, firstRefusal, hv, hc, hs, hm, hl, h0, h]

section
variable (ht : t = 0 ∨ (10 ≤ t ∧ t ≤ 6000000))
include ht

/-- A HOLD time that is 0 or in range passes its check, so that the duty limit decides. -/
theorem pulseChecks_timed : firstRefusal (pulseChecks n t d) =
    if bitOf (vlvCh d n).status.toNat 2 then some (refused 0x42) else none := by
  have hin : (t != 0 && (t < 10 || 6000000 < t)) = false := by
    rcases ht with ht | ⟨hmin, hmax⟩
    · simp [ht]
    · simp [Nat.not_lt.2 hmin, Nat.not_lt.2 hmax]
  simp [pulseChecks, firstRefusal, hv, hc, hs, hm, hl, hin]

theorem pulseChecks_limited (h : bitOf (vlvCh d n).status.toNat 2 = true) :
    firstRefusal (pulseChecks n t d) = some (refused 0x42) := by
  rw [pulseChecks_timed hv hc hs hm hl ht, if_pos h]

theorem pulseChecks_pass (h : bitOf (vlvCh d n).status.toNat 2 = false) : firstRefusal (pulseChecks n t d) = none := by
  rw [pulseChecks_timed hv hc hs hm hl ht, if_neg (Bool.eq_false_iff.1 h)]

end

end

end

end

end

end

/-- The refusals of `VLV_CLEAR`, in the order in which they are judged. -/
def clearChecks (n : Fin 16) (d : Dev) : List (Bool × Refuse) :=
  [(bitOf d.pwr.vdFail n, refused 0x94), (claimed d (64 + n), refused 0x40), (vlvSlave d n, refused 0x43),
    (!latchKnown (vlvCh d n), refused 0x13)]

theorem clearChecks_failed (h : bitOf d.pwr.vdFail n = true) : firstRefusal (clearChecks n d) = some (refused 0x94) := by
  simp [clearChecks, firstRefusal, h]

section
variable (hv : bitOf d.pwr.vdFail n = false)
include hv

theorem clearChecks_claimed (h : claimed d (64 + n) = true) : firstRefusal (clearChecks n d) = some (refused 0x40) := by
  simp [clearChecks, firstRefusal, hv, h]

section
variable (hc : claimed d (64 + n) = false)
include hc

theorem clearChecks_slave (h : vlvSlave d n = true) : firstRefusal (clearChecks n d) = some (refused 0x43) := by
  simp [clearChecks, firstRefusal, hv, hc, h]

section
variable (hs : vlvSlave d n = false)
include hs

theorem clearChecks_unlatched (h : latchKnown (vlvCh d n) = false) :
    firstRefusal (clearChecks n d) = some (refused 0x13) := by
  simp [clearChecks, firstRefusal, hv, hc, hs, h]

theorem clearChecks_pass (h : latchKnown (vlvCh d n) = true) : firstRefusal (clearChecks n d) = none := by
  simp [clearChecks, firstRefusal, hv, hc, hs, h]

end

end

end

theorem cmdVlvPulse_range (h : 16 ≤ targetN c) : cmdVlvPulse c d = complete c stRange 0 [] d :=
  dif_neg (Nat.not_lt.2 h)

theorem cmdVlvClear_range (h : 16 ≤ targetN c) : cmdVlvClear c d = complete c stRange 0 [] d :=
  dif_neg (Nat.not_lt.2 h)

section
variable (ht : targetN c = n.val)
include ht

theorem cmdVlvPulse_refused {r : Refuse} (h : firstRefusal (pulseChecks n (field c.payload 0 4) d) = some r) :
    cmdVlvPulse c d = complete c r.status r.detail [] d := by
  simp only [pulseChecks] at h
  simp only [cmdVlvPulse, ht, n.isLt, dif_pos, Fin.eta, h, refuse]

theorem cmdVlvPulse_accepted (h : firstRefusal (pulseChecks n (field c.payload 0 4) d) = none) :
    cmdVlvPulse c d = queuePulse n { cmd := some c.id, holdT := field c.payload 0 4 } d := by
  simp only [pulseChecks] at h
  simp only [cmdVlvPulse, ht, n.isLt, dif_pos, Fin.eta, h]

theorem cmdVlvClear_refused {r : Refuse} (h : firstRefusal (clearChecks n d) = some r) :
    cmdVlvClear c d = complete c r.status r.detail [] d := by
  simp only [clearChecks] at h
  simp only [cmdVlvClear, ht, n.isLt, dif_pos, Fin.eta, h, refuse]

theorem cmdVlvClear_accepted (h : firstRefusal (clearChecks n d) = none) : cmdVlvClear c d =
    begin_ c.id (vlvMod n (fun x => { x with clearPend := true, clearCmd := x.clearCmd ++ [c.id] }) d) := by
  simp only [clearChecks] at h
  simp only [cmdVlvClear, ht, n.isLt, dif_pos, Fin.eta, h]

end

/-- A pulse is placed in the open set where no earlier one of its channel is there or waits. -/
theorem queuePulse_places (r : PulseReq) (hp : pulsePlaced d n = false) (hq : (vlvCh d n).reqs = []) :
    queuePulse n r d = placePulse n r d :=
  if_neg (by simp [hp, hq])

/-- The pulse of a command waits behind an earlier one. -/
theorem queuePulse_waits {id : CmdId} {t : Nat} (h : pulsePlaced d n = true ∨ (vlvCh d n).reqs ≠ []) :
    queuePulse n { cmd := some id, holdT := t } d =
      waitOn id (vlvMod n (fun x => { x with reqs := x.reqs ++ [{ cmd := some id, holdT := t }] }) d) :=
  if_pos (by simpa using h)

end

end Sys2Proof.Machine

namespace Sys2Proof

open Machine

/-- Settles O36: each row is a quiet one, so that every clause is the outcome of the row's own function in one of its branches. -/
theorem valvePhases : Obligations.ValvePhases := by
  refine fun s n us => ⟨fun hp hr => ⟨fun hm => ?peaks, fun hm h => ?defers, fun hm hs h => ?rejects⟩, fun h => ?delayStays,
    fun hp hs => ?deferRejects, fun h => ?waitExpires,
    fun p hp ht hf hprof => ⟨fun hmin hmax => ?inTime, fun hmin => ?early, fun hmin hmax => ?late⟩,
    fun hp ht hs hc => ?holds, fun hp ht hs hprof => ?safeSet, fun h => ?peakStays, fun h => ?decays, fun h => ?holdStays,
    fun p hprof => ⟨fun h => ?slowEnds, fun h => ?fastEnds⟩⟩
  case peaks => exact moves_of_quiet (delayEnd n) rfl ((delayEnd_ends hp hr).trans (afterDelay_peaks hm))
  case defers => exact moves_of_quiet (delayEnd n) rfl ((delayEnd_ends hp hr).trans (afterDelay_defers hm h))
  case rejects => exact moves_of_quiet (delayEnd n) rfl ((delayEnd_ends hp hr).trans (afterDelay_rejects hm hs h))
  case delayStays => exact stays_of_quiet (delayEnd n) rfl (delayEnd_stays h)
  case deferRejects => exact moves_of_quiet (deferExpired n) rfl (deferExpired_rejects hp hs)
  case waitExpires => exact moves_of_quiet (f2WaitExpired n) rfl (f2WaitExpired_ends h)
  case inTime => exact moves_of_quiet (peakReached n us) rfl (peakReached_inTime hp ht hf hprof hmin hmax)
  case early => exact moves_of_quiet (peakReached n us) rfl (peakReached_early hp ht hf hprof hmin)
  case late => exact moves_of_quiet (peakReached n us) rfl (peakReached_late hp ht hf hprof hmin hmax)
  case holds => exact moves_of_quiet (peakEnd n us) rfl (peakEnd_holds hp ht hs hc)
  case safeSet => exact moves_of_quiet (peakEnd n us) rfl (peakEnd_safeSet hp ht hs hprof)
  case peakStays => exact stays_of_quiet (peakEnd n us) rfl (peakEnd_stays h)
  case decays => exact moves_of_quiet (holdEnd n) rfl (holdEnd_decays h)
  case holdStays => exact stays_of_quiet (holdEnd n) rfl (holdEnd_stays h)
  case slowEnds => exact moves_of_quiet (decayEnd n us) rfl (decayEnd_slow hprof h)
  case fastEnds => exact moves_of_quiet (decayEnd n us) rfl (decayEnd_fast hprof h)

/-- Settles O37: `vlvOff` and `vlvEnded` say which channels a fault reaches; every clause is then the outcome of the row's own
function in one of its branches. -/
theorem valveFaults : Obligations.ValveFaults := by
  refine fun s n => ⟨fun hj hc => ?lowTrip, fun hk => ?highTrip, fun hj hc => ?joinedTrip, fun h => ?lowTripStays,
    fun he ho => ?highTripStays, fun ht hc => ?lowShutoff, fun ht hc => ?highShutoff, fun h => ?shutoffStays,
    fun ht hl => ?restarts, fun hs h => ?latched, fun h => ?cool, fun ho hp => ?openCoil, fun h => ?coilSeenProp,
    fun h => ?coilSeenProfile, fun h => ?regulator, fun hm hp => ⟨fun hl h => ?limits, fun hl h => ?counts⟩⟩
  case lowTrip => exact moves_of_quiet (vlvTrip n false) rfl (vlvTrip_alone hj hc)
  case highTrip =>
    have hoff := vlvOff_both (d := s.dev) (n := n) (hs := true) (.inl rfl)
    rw [← hoff] at hk ⊢
    exact moves_of_quiet (vlvTrip n true) rfl (vlvTrip_ends (.inl rfl) hk)
  case joinedTrip =>
    have hoff := vlvOff_both (hs := false) (.inr hj)
    rw [← hoff]
    exact moves_of_quiet (vlvTrip n false) rfl (vlvTrip_ends (.inr hc) ⟨n, self_mem_vlvOff s.dev n false, hc⟩)
  case lowTripStays => exact stays_of_quiet (vlvTrip n false) rfl (vlvTrip_low_stays h)
  case highTripStays => exact stays_of_quiet (vlvTrip n true) rfl (vlvTrip_high_stays he ho)
  case lowShutoff => exact moves_of_quiet (vlvThermal n false) rfl (vlvThermal_low ht hc)
  case highShutoff => exact moves_of_quiet (vlvThermal n true) rfl (vlvThermal_high ht hc)
  case shutoffStays => exact stays_of_quiet (vlvThermal n false) rfl (vlvThermal_low_stays h)
  case restarts => exact moves_of_quiet (vlvRestart n false) rfl (vlvRestart_low ht hl)
  case latched => exact stays_of_quiet (vlvRestart n hs) rfl (vlvRestart_latched h)
  case cool => exact stays_of_quiet (vlvRestart n false) rfl (vlvRestart_low_cool h)
  case openCoil => exact moves_of_quiet (openCoil n) rfl (openCoil_marks ho hp)
  case coilSeenProp => exact moves_of_quiet (openCoilEnd n) rfl (openCoilEnd_prop h)
  case coilSeenProfile => exact moves_of_quiet (openCoilEnd n) rfl (openCoilEnd_profile h)
  case regulator => exact moves_of_quiet (regFault n) rfl (regFault_diagnoses h)
  case limits => exact moves_of_quiet (dutyBin n) rfl (dutyBin_limits hm hp hl (decide_eq_true h))
  case counts => exact moves_of_quiet (dutyBin n) rfl (dutyBin_counts hm hp hl (decide_eq_false (Nat.not_lt.2 h)))

/-- Settles O38: the checks pass one after the other, and each clause is the first that fails, or what follows when none does. -/
theorem valveCommands : Obligations.ValveCommands := by
  refine fun s id c n => ⟨fun hr h => ?pulseRange, fun hr h => ?clearRange,
    fun hr ht => ⟨fun hv => ?pulseFailed, fun hv => ⟨fun hc => ?pulseClaimed, fun hc => ⟨fun hm => ?pulseMode,
      fun hs hm => ⟨fun hl => ?pulseLatched, fun hl => ⟨fun h0 h => ?pulseTime, fun h => ⟨fun hd => ?pulseLimited,
        fun hd => ⟨fun hp hq => ?places, fun hw => ?waits⟩⟩⟩⟩⟩⟩⟩,
    fun hr ht => ⟨fun hv => ?clearFailed, fun hv => ⟨fun hc => ?clearClaimed, fun hc => ⟨fun hs => ?clearSlave,
      fun hs => ⟨fun hl => ?clearUnlatched, fun hl => ?clears⟩⟩⟩⟩⟩
  case pulseRange => exact moves_of_ready cmdVlvPulse rfl hr (cmdVlvPulse_range h)
  case clearRange => exact moves_of_ready cmdVlvClear rfl hr (cmdVlvClear_range h)
  case pulseFailed => exact moves_of_ready cmdVlvPulse rfl hr (cmdVlvPulse_refused ht (pulseChecks_failed hv))
  case pulseClaimed => exact moves_of_ready cmdVlvPulse rfl hr (cmdVlvPulse_refused ht (pulseChecks_claimed hv hc))
  case pulseMode => exact moves_of_ready cmdVlvPulse rfl hr (cmdVlvPulse_refused ht (pulseChecks_mode hv hc hm))
  case pulseLatched =>
    exact moves_of_ready cmdVlvPulse rfl hr (cmdVlvPulse_refused ht (pulseChecks_latched hv hc hs hm hl))
  case pulseTime =>
    exact moves_of_ready cmdVlvPulse rfl hr (cmdVlvPulse_refused ht (pulseChecks_time hv hc hs hm hl h0 h))
  case pulseLimited =>
    exact moves_of_ready cmdVlvPulse rfl hr (cmdVlvPulse_refused ht (pulseChecks_limited hv hc hs hm hl h hd))
  case places =>
    have hqueue := cmdVlvPulse_accepted ht (pulseChecks_pass hv hc hs hm hl h hd)
    exact moves_of_ready cmdVlvPulse rfl hr (hqueue.trans (queuePulse_places _ hp hq))
  case waits =>
    have hqueue := cmdVlvPulse_accepted ht (pulseChecks_pass hv hc hs hm hl h hd)
    exact moves_of_ready cmdVlvPulse rfl hr (hqueue.trans (queuePulse_waits hw))
  case clearFailed => exact moves_of_ready cmdVlvClear rfl hr (cmdVlvClear_refused ht (clearChecks_failed hv))
  case clearClaimed => exact moves_of_ready cmdVlvClear rfl hr (cmdVlvClear_refused ht (clearChecks_claimed hv hc))
  case clearSlave => exact moves_of_ready cmdVlvClear rfl hr (cmdVlvClear_refused ht (clearChecks_slave hv hc hs))
  case clearUnlatched =>
    exact moves_of_ready cmdVlvClear rfl hr (cmdVlvClear_refused ht (clearChecks_unlatched hv hc hs hl))
  case clears => exact moves_of_ready cmdVlvClear rfl hr (cmdVlvClear_accepted ht (clearChecks_pass hv hc hs hl))

end Sys2Proof
end

section
/-!
The Carve engines: the state a loop shows, a frozen integral state, what happens to a loop at its gate, its computation, its
deadline and its engine, and the loop commands (R305-R355, R525).
-/
namespace Sys2Proof.Machine

/-! ## The state shown (R326, R327) -/

section
variable {x : CtlInst}

theorem ctlState_lt (x : CtlInst) : ctlState x < 16 := by
  simp only [ctlState]
  repeat' split
  all_goals decide

/-- The low four bits of CTL_STATE are the state shown. -/
theorem ctlStateWord_low (d : Dev) (i : LI) : ctlStateWord d i % 16 = ctlState (ctlInst d i) := by
  have := ctlState_lt (ctlInst d i)
  simp only [ctlStateWord]
  omega

theorem ctlState_fallback (h : x.base = .fallback) : ctlState x = 7 := by
  simp [ctlState, h]

section
variable (hb : x.base = .start ∨ x.base = .run)
include hb

theorem ctlState_held (hh : x.held = true) : ctlState x = 6 := by
  rcases hb with hb | hb <;> simp [ctlState, hb, hh]

theorem ctlState_coast (hh : x.held = false) (hc : x.coast = true) : ctlState x = 5 := by
  rcases hb with hb | hb <;> simp [ctlState, hb, hh, hc]

end

theorem ctlState_start (h : x.base = .start) (hh : x.held = false) (hc : x.coast = false) : ctlState x = 2 := by
  simp [ctlState, h, hh, hc]

theorem ctlState_run (h : x.base = .run) (hh : x.held = false) (hc : x.coast = false) :
    ctlState x = if x.bfp then 4 else 3 := by
  simp [ctlState, h, hh, hc]

end

/-! ## A frozen integral state (R305, R307, R321) -/

@[simp] theorem alignTo_self (e m : Int) : alignTo e m e = m := by
  simp [alignTo]

/-- A number of 32 bits passes the limit unchanged. -/
theorem sat32_of_fits {v : Int} (h : -2147483648 ≤ v) (h' : v ≤ 2147483647) : (sat32 v).1 = v := by
  simp only [sat32, clampI]
  rw [if_neg (by omega), if_neg (by omega)]

theorem integStep_frozen {x : LawIn} {k : Nat} (h : x.g.frz.getD k false = true) (zs ys rs us urs : List Int) (es : Int) :
    integStep x zs ys rs us urs es k = ((zs.getD k 0, false), false) :=
  if_pos h

section
variable {x : LawIn} (hf : x.bfp = false)
include hf

theorem lawStep_fixed_ste : (lawStep x).ste = 0 := by
  simp [lawStep, hf]

/-- In fixed point an integral state comes out as its own step leaves it, held to 32 bits. -/
theorem lawStep_fixed_integral {k : Nat} (h0 : x.ste = 0) (hk : k < dNi x.b) :
    (lawStep x).st.getD (dNo x.b + k) 0 =
      (sat32 (integStep x (x.st.drop (dNo x.b)) x.g.y x.g.r x.g.u x.g.uraw 0 k).1.1).1 := by
  simp [lawStep, hf, h0, List.getD_eq_getElem?_getD, hk]

end

/-! ## The gate (R309, R328, R344) -/

section
variable {i : LI} {d t : Dev}

section
variable (ht : boundary ctlHook (fun w => w.bnd == .gate i) d = t)
include ht

theorem ctlGate_rests (h : (ctlInst t i).base = .free ∨ (ctlInst t i).base = .stopped) : ctlGate i d = t := by
  subst ht
  rcases h with h | h <;> simp [ctlGate, h]

theorem ctlGate_runs (h : (ctlInst t i).base = .run ∨ (ctlInst t i).base = .start ∨ (ctlInst t i).base = .test ∨
    (ctlInst t i).base = .ident) : ctlGate i d = gateRun i t := by
  subst ht
  rcases h with h | h | h | h <;> simp [ctlGate, h]

theorem ctlGate_fallback (h : (ctlInst t i).base = .fallback) :
    ctlGate i d = if (ctlInst t i).cause = 2 ∨ (ctlInst t i).reseed = true then gateRun i t else t := by
  subst ht
  simp [ctlGate, h]

end

/-! ## The computation and the deadline (R305, R309, R341, R352) -/

@[simp] theorem ctlInst_ctlMod (i : LI) (f : CtlInst → CtlInst) (d : Dev) : ctlInst (ctlMod i f d) i = f (ctlInst d i) :=
  vMod_get_same _ _ _

/-- Two changes of a loop that agree on its present state are one. -/
theorem ctlMod_congr {f g : CtlInst → CtlInst} (h : f (ctlInst d i) = g (ctlInst d i)) : ctlMod i f d = ctlMod i g d := by
  simp only [ctlInst] at h
  simp only [ctlMod, vMod, h]

/-- A flag changes nothing of its loop but the sticky flags. -/
theorem ctlFlag_ctlInst (k : Nat) (e : Option Nat) (d : Dev) :
    ∃ n, ctlInst (ctlFlag i k e d) i = { ctlInst d i with sticky := n } := by
  simp only [ctlFlag]
  repeat' split
  · exact ⟨_, rfl⟩
  · exact ⟨_, rfl⟩
  · exact ⟨_, ctlInst_ctlMod _ _ _⟩
  · exact ⟨_, ctlInst_ctlMod _ _ _⟩

@[simp] theorem ctlFlag_gate (k : Nat) (e : Option Nat) (d : Dev) :
    (ctlInst (ctlFlag i k e d) i).gate = (ctlInst d i).gate := by
  obtain ⟨n, h⟩ := ctlFlag_ctlInst (i := i) k e d
  rw [h]

@[simp] theorem ctlFlag_backlog (k : Nat) (e : Option Nat) (d : Dev) :
    (ctlInst (ctlFlag i k e d) i).backlog = (ctlInst d i).backlog := by
  obtain ⟨n, h⟩ := ctlFlag_ctlInst (i := i) k e d
  rw [h]

@[simp] theorem emit_ctlInst (w : RingWrite) (d : Dev) : ctlInst (emit w d) i = ctlInst d i := rfl

/-- With nothing late, the computation that ends is the one of the gate. -/
theorem ctlTaken_inTime {x : CtlInst} (h : x.backlog = []) : ctlTaken x = { x with gate := none } := by
  simp [ctlTaken, h]

section
variable {eng : Fin 3} {g : GateRec}

theorem computeDone_nothing (bad : Option Word) (h : ctlPending (ctlInst d i) = none) : computeDone i eng bad d = d := by
  simp [computeDone, h]

theorem computeDone_fenced (bad : Option Word) (h : ctlPending (ctlInst d i) = some g)
    (hs : d.ctl.serving.get (ctlHome i) ≠ eng.val) : computeDone i eng bad d = ctlFence (ctlHome i) d := by
  simp [computeDone, h, hs]

section
variable (hs : d.ctl.serving.get (ctlHome i) = eng.val) (hf : d.ctl.faulty.get eng = false)
include hs hf

theorem computeDone_integrity (w : Word) (h : ctlPending (ctlInst d i) = some g) :
    computeDone i eng (some w) d = ctlIntegrity i w d := by
  simp [computeDone, h, hs, hf]

/-- A computation that ends in its period leaves its loop with no gate open and nothing late. -/
theorem computeDone_closes (hb : (ctlInst d i).backlog = []) (hg : (ctlInst d i).gate = some g) :
    (ctlInst (computeDone i eng none d) i).gate = none ∧ (ctlInst (computeDone i eng none d) i).backlog = [] := by
  have h : ctlPending (ctlInst d i) = some g := by simp [ctlPending, hb, hg]
  have hserved : (d.ctl.serving.get (ctlHome i) != eng.val) = false := by simp [hs]
  simp only [computeDone, h, hserved, hf, Bool.false_eq_true, if_false]
  split <;> simp only [emit_ctlInst, ctlFlag_gate, ctlFlag_backlog, ctlInst_ctlMod, ctlTaken_inTime hb, hb, and_self]

end

end

theorem ctlDeadline_idle (h : ctlRuns (ctlInst d i) = false) : ctlDeadline i d = d :=
  if_pos (by simp [h])

/-- The outputs computed for the next period are handed over, and a run of overruns ends. -/
theorem ctlDeadline_hands {u v : List Int} (hr : ctlRuns (ctlInst d i) = true) (hb : (ctlInst d i).base = .run)
    (hn : (ctlInst d i).next = some (u, v)) : ctlDeadline i d =
      ctlCheckpoint i (ctlBfpExit i (ctlMod i (fun x => { x with overruns := 0 })
        (if ctlWrites (ctlInst d i) then ctlWriteAll i u d else d))) := by
  simp [ctlDeadline, hr, hb, hn]

/-! ## Inputs lost and seeds that do not come (R313, R328, R344) -/

theorem coastExpired_falls (hc : (ctlInst d i).coast = true) (hb : (ctlInst d i).base = .run)
    (ht : (ctlInst d i).since + coastMs (ctlDesc d i) ≤ d.time.tick) :
    coastExpired i d = ctlFallback i 2 (ctlMod i (fun x => { x with coast := false }) d) :=
  if_pos (by simp [hc, hb, ht])

theorem coastExpired_stays (h : (ctlInst d i).coast = false ∨ d.time.tick < (ctlInst d i).since + coastMs (ctlDesc d i)) :
    coastExpired i d = d :=
  if_neg (by rcases h with h | h <;> simp [h])

theorem startTimeout_falls (hb : (ctlInst d i).base = .start)
    (ht : (ctlInst d i).since + seedMs (ctlDesc d i) ≤ d.time.tick) :
    startTimeout i d = ctlFallback i 2 (seedMissing i d) :=
  if_pos (by simp [hb, ht])

theorem startTimeout_stays (h : (ctlInst d i).base ≠ .start ∨ d.time.tick < (ctlInst d i).since + seedMs (ctlDesc d i)) :
    startTimeout i d = d :=
  if_neg (by rcases h with h | h <;> simp [h])

end

/-! ## Engines (R350, R351, R525) -/

section
variable {d : Dev}

theorem engineFault_again {e : Fin 3} (h : d.ctl.faulty.get e = true) : engineFault e d = d :=
  if_pos h

/-- CE0 or CE1 that serves its own load is replaced by CE2 where CE2 is free and sound, and Patrol is there to decide it. -/
theorem engineFault_replaced {e : Fin 3} (hf : d.ctl.faulty.get e = false) (h : e.val < 2)
    (hs : d.ctl.serving.get ⟨e.val, h⟩ = e.val) (hfree : 2 ∉ d.ctl.serving.toList) (h2 : d.ctl.faulty.get 2 = false)
    (hp : d.hlt.patrolLost = false) : engineFault e d =
      crossover (3 + e) 5 (1 + e) { d with ctl := { d.ctl with faulty := d.ctl.faulty.set e true } } := by
  have hne : e ≠ 2 := fun he => by simp [he] at h
  have hsound : (d.ctl.faulty.set e true).get 2 = false := (vSet_get_other _ _ hne).trans h2
  simp [engineFault, hf, h, hs, hfree, hsound, hp]

theorem carveHandover_stays {home : Fin 2} (h : heir d home = none) : carveHandover home d = d := by
  rw [carveHandover, h]

@[simp] theorem ctlTransAt_serving (k : Nat) (i : LI) (f : CtlInst → CtlInst) (d : Dev) :
    (ctlTransAt k i f d).ctl.serving = d.ctl.serving := by
  simp only [ctlTransAt]
  split <;> rfl

/-- The heir serves the load; the loops that move change nothing of that. -/
theorem carveHandover_serves {home : Fin 2} {e : Nat} (h : heir d home = some e) :
    (carveHandover home d).ctl.serving.get home = e := by
  rw [carveHandover, h]
  simp only [raise_ctl]
  rw [forEach_keeps (fun d => d.ctl.serving)]
  · exact vSet_get_same _ _ _
  · intro i d
    split
    · rfl
    · exact ctlTransAt_serving 0 i moveInst d

end

/-! ## The loop commands (R320, R321, R328, R335, R337, R338, R340, R355) -/

section
variable {c : Cmd} {i : LI} {d : Dev} (f : Cmd → LI → Dev → Dev)

theorem ctlCmd_range (h : 64 ≤ targetN c) : ctlCmd f c d = complete c stRange 0 [] d :=
  dif_neg (Nat.not_lt.2 h)

theorem ctlCmd_free (ht : targetN c = i.val) (h : (ctlInst d i).base = .free) :
    ctlCmd f c d = complete c stRefused 0x53 [] d := by
  simp only [ctlCmd, ht, i.isLt, dif_pos, Fin.eta, h]
  rfl

theorem ctlCmd_described (ht : targetN c = i.val) (h : (ctlInst d i).base ≠ .free) : ctlCmd f c d = f c i d := by
  simp only [ctlCmd, ht, i.isLt, dif_pos, Fin.eta, beq_iff_eq, h, if_false]

end

section
variable {s : State} {id : CmdId} {c : Cmd} {i : LI} {op : Nat} {k : Instr} (f : Cmd → LI → Dev → Dev)
  (hx : exec k s = quiet (withCmd op id (ctlCmd f)) s) (hr : Ready s id op c)
include hx hr

/-- What every loop command refuses, whatever it does: no loop, and a loop without a descriptor. -/
theorem loopCommand_refuses : (64 ≤ targetN c → Refuses k s c stRange 0) ∧
    (targetN c = i.val → (ctlInst s.dev i).base = .free → Refuses k s c stRefused 0x53) :=
  ⟨fun h => moves_of_ready (ctlCmd f) hx hr (ctlCmd_range f h),
    fun ht h => moves_of_ready (ctlCmd f) hx hr (ctlCmd_free f ht h)⟩

/-- On a loop that has a descriptor a loop command moves the device by its own meaning. -/
theorem moves_of_loop {t : Dev} (ht : targetN c = i.val) (hb : (ctlInst s.dev i).base ≠ .free) (h : f c i s.dev = t) :
    Moves k s t :=
  moves_of_ready (ctlCmd f) hx hr ((ctlCmd_described f ht hb).trans h)

end

section
variable {c : Cmd} {i : LI} {d : Dev}

section
variable {k : Nat} (hk : coefIdx (ctlDesc d i) (byteAt c.payload 0) (byteAt c.payload 1) (byteAt c.payload 2) = some k)
include hk

theorem cmdCoefWrite_waits (h : byteAt c.payload 3 ≤ 31) : cmdCoefWrite c i d = waitOn c.id (ctlMod i (fun x =>
    { x with
      pend := x.pend ++ [{ idx := k, val := sext 32 (field c.payload 4 4), shift := byteAt c.payload 3, cmd := c.id,
                           since := landFrom d }]
      liveCdr := some c.commander }) d) := by
  simp only [cmdCoefWrite, hk]
  exact if_neg (Nat.not_lt.2 h)

theorem cmdCoefWrite_range (h : 31 < byteAt c.payload 3) : cmdCoefWrite c i d = complete c stRange 0 [] d := by
  simp only [cmdCoefWrite, hk]
  exact if_pos h

end

section
variable (hs1 : 1 ≤ byteAt c.payload 0) (hs : byteAt c.payload 0 ≤ dSets (ctlDesc d i)) (hn1 : 1 ≤ byteAt c.payload 4)
  (hn : byteAt c.payload 4 ≤ 8) (hlast : field c.payload 2 2 + byteAt c.payload 4 ≤ coefCount (ctlDesc d i))
  (hshift : ∀ y ∈ setWriteCoefs c.payload (byteAt c.payload 4), y.2 ≤ 31)
include hs1 hs hn1 hn hlast hshift

/-- A `CTL_SET_WRITE` in range is refused for the set in use of a running loop alone. -/
theorem cmdSetWrite_inRange : cmdSetWrite c i d =
    if (ctlInst d i).setUse = byteAt c.payload 0 && ctlRuns (ctlInst d i) then complete c stBusyRunning 0 [] d
    else complete c stOk 0 [] (ctlSetMod i (byteAt c.payload 0) (fun y =>
      { y with coefs := setFrom y.coefs (setWriteCoefs c.payload (byteAt c.payload 4)) (field c.payload 2 2)
               valid := false }) d) := by
  have hshifts : ¬(setWriteCoefs c.payload (byteAt c.payload 4)).any (fun y => 31 < y.2) = true := by
    simpa using fun a b hab => hshift (a, b) hab
  refine if_neg ?_
  simp only [not_or, Nat.not_lt]
  exact ⟨hs1, hs, hn1, hn, hlast, hshifts⟩

theorem cmdSetWrite_busy (hu : (ctlInst d i).setUse = byteAt c.payload 0) (hr : ctlRuns (ctlInst d i) = true) :
    cmdSetWrite c i d = complete c stBusyRunning 0 [] d := by
  rw [cmdSetWrite_inRange hs1 hs hn1 hn hlast hshift, if_pos (by simp [hu, hr])]

theorem cmdSetWrite_writes (h : (ctlInst d i).setUse ≠ byteAt c.payload 0 ∨ ctlRuns (ctlInst d i) = false) :
    cmdSetWrite c i d = complete c stOk 0 [] (ctlSetMod i (byteAt c.payload 0) (fun y =>
      { y with coefs := setFrom y.coefs (setWriteCoefs c.payload (byteAt c.payload 4)) (field c.payload 2 2)
               valid := false }) d) := by
  rw [cmdSetWrite_inRange hs1 hs hn1 hn hlast hshift, if_neg (by rcases h with h | h <;> simp [h])]

end

/-- The CRC of a set as `CTL_SET_SEAL` finds it. -/
def sealCrc (c : Cmd) (i : LI) (d : Dev) : Word :=
  setCrc (setFilled (ctlDesc d i) (ctlSet (ctlInst d i) (byteAt c.payload 0))).coefs

section
variable (hs1 : 1 ≤ byteAt c.payload 0) (hs : byteAt c.payload 0 ≤ dSets (ctlDesc d i))
include hs1 hs

theorem cmdSetSeal_seals (h : (sealCrc c i d).toNat = field c.payload 4 4) : cmdSetSeal c i d =
    complete c stOk 0 [] (ctlSetMod i (byteAt c.payload 0) (fun y => { y with crc := sealCrc c i d, valid := true }) d) :=
  (if_neg (by omega)).trans (if_neg (by simpa [sealCrc] using h))

theorem cmdSetSeal_differs (h : (sealCrc c i d).toNat ≠ field c.payload 4 4) : cmdSetSeal c i d =
    complete c stIntegrity 0 [] (ctlSetMod i (byteAt c.payload 0) (fun y => { y with valid := false }) d) :=
  (if_neg (by omega)).trans (if_pos (by simpa [sealCrc] using h))

end

section
variable (ha : byteAt c.payload 0 ≠ 0xFF) (hs : byteAt c.payload 0 ≤ dSets (ctlDesc d i))
include ha hs

theorem cmdSrcSelect_invalid (h : (ctlSet (ctlInst d i) (byteAt c.payload 0)).valid = false) :
    cmdSrcSelect c i d = complete c stRefused 0x57 [] d :=
  (if_neg (by simp [ha, hs])).trans (if_pos (by simp [ha, h]))

theorem cmdSrcSelect_waits (h : (ctlSet (ctlInst d i) (byteAt c.payload 0)).valid = true) : cmdSrcSelect c i d =
    waitOn c.id (ctlMod i (ctlPendSet false (some (byteAt c.payload 0)) 3 [c.id]) d) := by
  have hset : (byteAt c.payload 0 == 0xFF) = false := beq_false_of_ne ha
  simp [cmdSrcSelect, hset, ha, Nat.not_lt.2 hs, h]

end

theorem cmdCtlResume_refused (h : (ctlInst d i).base ≠ .fallback) :
    cmdCtlResume c i d = complete c stRefused 0x53 [] d :=
  if_pos (by simpa using h)

theorem cmdCtlResume_waits (h : (ctlInst d i).base = .fallback) (hc : (ctlInst d i).cause ≠ 4) :
    cmdCtlResume c i d = waitOn c.id (ctlMod i (fun x => { x with resume := x.resume ++ [c.id] }) d) :=
  (if_neg (by simp [h])).trans (if_neg (by simp [hc]))

theorem cmdStateWrite_refused (hs : (ctlInst d i).base ≠ .stopped) (hf : (ctlInst d i).base ≠ .fallback) :
    cmdStateWrite c i d = complete c stRefused 0x53 [] d :=
  if_pos (by simp [hs, hf])

/-- The states of a stopped loop with one of them written: those written before are kept, else the others are 0. -/
def stoppedStates (b : List Byte) (p : List Byte) (x : CtlInst) : List Int :=
  (if x.wrote then x.st.map (fun v => toInt v x.ste) else List.replicate (dN b) 0).set (byteAt p 0) (sext 32 (field p 4 4))

theorem cmdStateWrite_stopped (hs : (ctlInst d i).base = .stopped) (h : byteAt c.payload 0 < 0x80)
    (hn : byteAt c.payload 0 < dNo (ctlDesc d i)) : cmdStateWrite c i d = complete c stOk 0 [] (ctlMod i (fun x =>
      { x with
        st := stoppedStates (ctlDesc d i) c.payload x
        ste := 0
        wrote := true
        chk := x.chk.map fun k => { k with st := stoppedStates (ctlDesc d i) c.payload x, ste := 0 } }) d) := by
  have hin : ¬((byteAt c.payload 0 < 0x80 && dNo (ctlDesc d i) ≤ byteAt c.payload 0 ||
      0x80 ≤ byteAt c.payload 0 && dNi (ctlDesc d i) ≤ byteAt c.payload 0 - 0x80) = true) := by
    simp [Nat.not_le.2 hn, Nat.not_le.2 h]
  refine ((if_neg (by simp [hs])).trans (if_neg hin)).trans (congrArg (complete c 0 0 []) (ctlMod_congr ?_))
  simp [stoppedStates, hs, h]

section
variable (hs : byteAt c.payload 0 ≤ 8) (hn : byteAt c.payload 4 = 1)
  (hlast : field c.payload 2 2 + 1 ≤ coefCount (ctlDesc d i))
include hs hn hlast

theorem cmdSetRead_invalid (h : (ctlSet (ctlInst d i) (byteAt c.payload 0)).valid = false) :
    cmdSetRead c i d = complete c stRefused 0x57 [] d :=
  (if_neg (by omega)).trans (if_pos (by simp [h]))

/-- One coefficient of a valid set is answered with the set's CRC. -/
theorem cmdSetRead_answers (h : (ctlSet (ctlInst d i) (byteAt c.payload 0)).valid = true) :
    let y := ctlSet (ctlInst d i) (byteAt c.payload 0)
    let v := y.coefs.getD (field c.payload 2 2) (0, 0)
    cmdSetRead c i d = complete c stOk 0 (le 4 (toBits 32 v.1) ++ le 1 v.2 ++ [0, 0, 0] ++
      List.replicate 8 0 ++ le 4 y.crc.toNat) d := by
  refine ((if_neg (by omega)).trans (if_neg (by simp [h]))).trans ?_
  rw [hn]
  rfl

end

end

end Sys2Proof.Machine

namespace Sys2Proof

open Machine

/-- Settles O41: CTL_STATE shows `ctlState`, read off case by case; a frozen integral state passes its step and the 32-bit limit
unchanged. -/
theorem loopStatesAndFrozenIntegrals : Obligations.LoopStatesAndFrozenIntegrals := by
  refine ⟨fun d i hb => ?_, fun x k hf h0 hk hlen hfits hfrz => ⟨?_, lawStep_fixed_ste hf⟩⟩
  · rw [ctlStateWord_low]
    refine ⟨fun h => ctlState_fallback h, fun hn hh => ctlState_held (hb.resolve_left hn) hh,
      fun hn hh hc => ctlState_coast (hb.resolve_left hn) hh hc, fun h hh hc => ctlState_start h hh hc,
      fun h hh hc => ctlState_run h hh hc⟩
  · have hlt : dNo x.b + k < x.st.length := by omega
    obtain ⟨hlo, hhi⟩ := hfits _ (List.getElem_mem hlt)
    rw [lawStep_fixed_integral hf h0 hk, integStep_frozen hfrz]
    simp only [List.getD_eq_getElem?_getD, List.getElem?_drop, List.getElem?_eq_getElem hlt, Option.getD_some]
    exact sat32_of_fits hlo hhi

/-- Settles O39: each row is a quiet or a loud one, so that every clause is the outcome of the row's own function in one of its
branches. -/
theorem loopEvents : Obligations.LoopEvents := by
  refine fun s i eng home => ⟨⟨fun h => ?rests, fun h => ?runs, fun h => ?fallback⟩, fun bad h => ?nothing,
    fun bad g h hs => ?fenced, fun w g h hs hf => ?integrity, fun g hb hg hs hf => ?closes, fun u v hr hb hn => ?hands,
    fun h => ?idle, fun hc hb ht => ?coastEnds, fun h => ?coasts, fun hb ht => ?seedless, fun h => ?seedStays,
    fun h => ?faultAgain, fun hf h hs hfree h2 hp => ?replaced, fun h => ?noHeir, fun e h => ?heir⟩
  case rests => exact moves_of_quiet (gateChecked i) rfl (congrArg (loopSafe i) (ctlGate_rests rfl h))
  case runs => exact moves_of_quiet (gateChecked i) rfl (congrArg (loopSafe i) (ctlGate_runs rfl h))
  case fallback => exact moves_of_quiet (gateChecked i) rfl (congrArg (loopSafe i) (ctlGate_fallback rfl h))
  case nothing => exact settles_of_loud (computeDone i eng bad) rfl (computeDone_nothing bad h)
  case fenced => exact settles_of_loud (computeDone i eng bad) rfl (computeDone_fenced bad h hs)
  case integrity => exact settles_of_loud (computeDone i eng (some w)) rfl (computeDone_integrity hs hf w h)
  case closes =>
    exact ⟨_, settles_of_loud (computeDone i eng none) rfl rfl, computeDone_closes hs hf hb hg⟩
  case hands => exact moves_of_quiet (ctlDeadline i) rfl (ctlDeadline_hands hr hb hn)
  case idle => exact stays_of_quiet (ctlDeadline i) rfl (ctlDeadline_idle h)
  case coastEnds => exact moves_of_quiet (coastExpired i) rfl (coastExpired_falls hc hb ht)
  case coasts => exact stays_of_quiet (coastExpired i) rfl (coastExpired_stays h)
  case seedless => exact moves_of_quiet (startTimeout i) rfl (startTimeout_falls hb ht)
  case seedStays => exact stays_of_quiet (startTimeout i) rfl (startTimeout_stays h)
  case faultAgain => exact stays_of_quiet (engineFault eng) rfl (engineFault_again h)
  case replaced => exact moves_of_quiet (engineFault eng) rfl (engineFault_replaced hf h hs hfree h2 hp)
  case noHeir => exact stays_of_quiet (carveHandover home) rfl (carveHandover_stays h)
  case heir => exact ⟨_, moves_of_quiet (carveHandover home) rfl rfl, carveHandover_serves h⟩

/-- Settles O40: what every loop command refuses, then command by command the outcome of its own checks. -/
theorem loopCommands : Obligations.LoopCommands := by
  refine fun s id c i => ⟨fun k hk hr => ?_, fun ht hb => ⟨fun hr k hk => ⟨fun h => ?coefWaits, fun h => ?coefRange⟩,
    fun hr hs1 hs hn1 hn hl hy => ⟨fun hu h => ?setBusy, fun h => ?setWrites⟩,
    fun hr hs1 hs => ⟨fun h => ?seals, fun h => ?differs⟩,
    fun hr ha hs => ⟨fun h => ?selectInvalid, fun h => ?selectWaits⟩,
    fun hr => ⟨fun h => ?resumeRefused, fun h hc => ?resumeWaits⟩,
    fun hr => ⟨fun hs hf => ?stateRefused, fun hs h hn => ?stateWrites⟩, fun hr => ?clears, fun hr => ?admits,
    fun hr hs hn hl => ⟨fun h => ?readInvalid, fun h => ?reads⟩⟩⟩
  · simp only [List.mem_cons, List.not_mem_nil, or_false] at hk
    rcases hk with rfl | rfl | rfl | rfl | rfl | rfl | rfl | rfl | rfl
    · exact loopCommand_refuses cmdCoefWrite rfl hr
    · exact loopCommand_refuses cmdSetWrite rfl hr
    · exact loopCommand_refuses cmdSetSeal rfl hr
    · exact loopCommand_refuses cmdSrcSelect rfl hr
    · exact loopCommand_refuses cmdCtlResume rfl hr
    · exact loopCommand_refuses cmdStateWrite rfl hr
    · exact loopCommand_refuses cmdClearFlags rfl hr
    · exact loopCommand_refuses cmdAdmitCheck rfl hr
    · exact loopCommand_refuses cmdSetRead rfl hr
  case coefWaits => exact moves_of_loop cmdCoefWrite rfl hr ht hb (cmdCoefWrite_waits hk h)
  case coefRange => exact moves_of_loop cmdCoefWrite rfl hr ht hb (cmdCoefWrite_range hk h)
  case setBusy => exact moves_of_loop cmdSetWrite rfl hr ht hb (cmdSetWrite_busy hs1 hs hn1 hn hl hy hu h)
  case setWrites => exact moves_of_loop cmdSetWrite rfl hr ht hb (cmdSetWrite_writes hs1 hs hn1 hn hl hy h)
  case seals => exact moves_of_loop cmdSetSeal rfl hr ht hb (cmdSetSeal_seals hs1 hs h)
  case differs => exact moves_of_loop cmdSetSeal rfl hr ht hb (cmdSetSeal_differs hs1 hs h)
  case selectInvalid => exact moves_of_loop cmdSrcSelect rfl hr ht hb (cmdSrcSelect_invalid ha hs h)
  case selectWaits => exact moves_of_loop cmdSrcSelect rfl hr ht hb (cmdSrcSelect_waits ha hs h)
  case resumeRefused => exact moves_of_loop cmdCtlResume rfl hr ht hb (cmdCtlResume_refused h)
  case resumeWaits => exact moves_of_loop cmdCtlResume rfl hr ht hb (cmdCtlResume_waits h hc)
  case stateRefused => exact moves_of_loop cmdStateWrite rfl hr ht hb (cmdStateWrite_refused hs hf)
  case stateWrites => exact moves_of_loop cmdStateWrite rfl hr ht hb (cmdStateWrite_stopped hs h hn)
  case clears => exact moves_of_loop cmdClearFlags rfl hr ht hb rfl
  case admits => exact moves_of_loop cmdAdmitCheck rfl hr ht hb rfl
  case readInvalid => exact moves_of_loop cmdSetRead rfl hr ht hb (cmdSetRead_invalid hs hn hl h)
  case reads => exact moves_of_loop cmdSetRead rfl hr ht hb (cmdSetRead_answers hs hn hl h)

end Sys2Proof
end

section
/-!
The services: their commands, the service step, the aeration evaluation, water blocks and resume records (R358, R377, R381, R383,
R394, R396).
-/
namespace Sys2Proof.Machine

/-! ## A flash command begins or waits (R86, R87, R509; log entry 160) -/

section
variable {s : State} {c : Cmd} (f : Cmd → Dev → Dev)

theorem flashTurn_free (h : FlashFree s) : flashTurn f c s.dev = f c s.dev :=
  if_pos (by simp [h.1, h.2])

theorem flashTurn_queued (h : ¬FlashFree s) : flashTurn f c s.dev = flashQueued c s.dev :=
  if_neg (by simpa [FlashFree] using h)

end

/-! ## The service commands (R358, R383, R396) -/

section
variable {c : Cmd} {d : Dev}

theorem svcQueue_queued (h : svcInst c < kindCount (svcKind c)) : svcQueue c d = waitOn c.id { d with svc := { d.svc with
    cmds := d.svc.cmds ++ [{ id := c.id, op := c.opcode, kind := svcKind c, inst := svcInst c, payload := c.payload,
                             commander := c.commander }] } } :=
  if_pos h

theorem svcQueue_range (h : kindCount (svcKind c) ≤ svcInst c) : svcQueue c d = complete c stRange 0 [] d :=
  if_neg (Nat.not_lt.2 h)

theorem cmdSvcRead_range (h : kindCount (svcKind c) ≤ svcInst c ∨ 1 < byteAt c.payload 0) :
    cmdSvcRead c d = complete c stRange 0 [] d :=
  if_pos h

section
variable (hi : svcInst c < kindCount (svcKind c))
include hi

/-- The live values: state (log entry 18), times, and 8 bytes that are free (log entry 4). -/
theorem cmdSvcRead_live (hsel : byteAt c.payload 0 = 0) :
    let t : Dev := { d with free := d.free + 2 }
    cmdSvcRead c d = complete c stOk 0
      (le 4 (svcState t (svcKind c) (svcInst c)) ++ le 4 (svcTimes t (svcKind c) (svcInst c)).1 ++
        le 4 (svcTimes t (svcKind c) (svcInst c)).2 ++
        (le 4 (Config.freeWord d.free).toNat ++ le 4 (Config.freeWord (d.free + 1)).toNat)) t :=
  (if_neg (by omega)).trans (if_pos hsel)

/-- The resume record kept for the instance, and 8 bytes that are free (log entry 4). -/
theorem cmdSvcRead_record (hsel : byteAt c.payload 0 = 1) {r : Resume}
    (hr : (d.svc.resume.find? fun r => r.inst = ownerCode (svcKind c) (svcInst c)) = some r) :
    cmdSvcRead c d = complete c stOk 0
      (le 4 r.state ++ le 4 (r.ms / 1000) ++ le 4 ((r.lot.map (·.no)).getD 0) ++
        (le 4 (Config.freeWord d.free).toNat ++ le 4 (Config.freeWord (d.free + 1)).toNat))
      { d with free := d.free + 2 } := by
  refine ((if_neg (by omega)).trans (if_neg (by omega))).trans ?_
  simp only [takeFree, hr]
  cases r.lot <;> rfl

end

theorem cmdLedgerRead_range (h : 1 < byteAt c.payload 2 ∨ d.svc.ledger.records[field c.payload 0 2]? = none) :
    cmdLedgerRead c d = complete c stRange 0 [] d := by
  by_cases hpart : 1 < byteAt c.payload 2
  · exact if_pos hpart
  · refine (if_neg hpart).trans ?_
    rw [h.resolve_left hpart]
    rfl

theorem cmdLedgerRead_reads (hpart : byteAt c.payload 2 ≤ 1) {r : List Byte}
    (hr : d.svc.ledger.records[field c.payload 0 2]? = some r) : cmdLedgerRead c d =
      queueFlash c 0 0 (if byteAt c.payload 2 = 0 then r.take 20 else r.drop 20) none d := by
  refine (if_neg (Nat.not_lt.2 hpart)).trans ?_
  rw [hr]

end

/-! ## The service step (R358) -/

section
variable {d : Dev}

theorem stepDue_iff :
    stepDue d = true ↔ d.time.running = true ∧ d.time.tick % 100 = 0 ∧ d.svc.lastStep ≠ some d.time.tick := by
  simp [stepDue, and_assoc]

theorem stepChecked_stays (h : d.time.running = false ∨ d.time.tick % 100 ≠ 0 ∨ d.svc.lastStep = some d.time.tick) :
    stepChecked d = d :=
  if_neg (by rw [stepDue_iff]; rcases h with h | h | h <;> simp [h])

theorem stepChecked_steps (hr : d.time.running = true) (ht : d.time.tick % 100 = 0)
    (hl : d.svc.lastStep ≠ some d.time.tick) :
    stepChecked d = servicesSafe (serviceStep (pairsUse (stepPairs d) d)) :=
  if_pos (stepDue_iff.2 ⟨hr, ht, hl⟩)

end

/-! ## The aeration evaluation keeps the minutes it has taken (R377-R379) -/

section
variable (b : Fin 12) (k : Fin 8) (d : Dev)

theorem cableLost_ambMins : (cableLost b k d).svc.ambMins = d.svc.ambMins := by
  simp only [cableLost]
  split <;> rfl

theorem cableHot_ambMins : (cableHot b k d).svc.ambMins = d.svc.ambMins := by
  refine forEach_keeps (fun d => d.svc.ambMins) (fun s e => ?_) _ _
  split <;> rfl

theorem aerEval_ambMins (t rh : Rat) : (aerEval b t rh d).svc.ambMins = d.svc.ambMins := rfl

/-- The minute that ends joins the minutes of the mean, and neither the cables nor the bins change these. -/
theorem aerEvaluation_ambMins :
    let a := boundary (fun _ d => d) (fun w => w.bnd == .aerEval) d
    (aerEvaluation d).svc.ambMins = (a.svc.amb :: a.svc.ambMins).take 10 := by
  intro a
  unfold aerEvaluation
  extract_lets _ _ shifted _ hourly cables
  have hhourly : hourly.svc.ambMins = shifted.svc.ambMins := by
    simp only [hourly]
    split <;> rfl
  have hcables : cables.svc.ambMins = hourly.svc.ambMins := by
    simp only [cables]
    refine forEach_keeps (fun d => d.svc.ambMins) (fun b d => ?_) _ _
    refine forEach_keeps (fun d => d.svc.ambMins) (fun k d => ?_) _ _
    repeat' split
    · rfl
    · exact cableLost_ambMins b k d
    · rfl
    · exact cableHot_ambMins b k d
  have hkeeps : cables.svc.ambMins = (a.svc.amb :: a.svc.ambMins).take 10 := hcables.trans hhourly
  split
  · exact hkeeps
  · split
    · exact hkeeps
    · exact (forEach_keeps (fun d => d.svc.ambMins) (fun b d => aerEval_ambMins b d _ _) _ _).trans hkeeps

end

end Sys2Proof.Machine

namespace Sys2Proof

open Machine

/-- Settles O42: each service command queues itself or is out of range; the two reads answer by their checks, the ledger's once
the flash is free. -/
theorem serviceCommands : Obligations.ServiceCommands := by
  refine fun s id c => ⟨fun k hk hr => ?queue, fun hr => ⟨fun h => ?readRange, fun hi h0 => ?readLive,
    fun r hi h1 h => ?readRecord⟩, fun hf hr => ?ledgerWaits,
    fun hf hr => ⟨fun h => ?ledgerRange, fun r hp h => ?ledgerReads⟩⟩
  case queue =>
    have hx : exec k.2 s = quiet (withCmd k.1 id svcQueue) s := by
      simp only [List.mem_cons, List.not_mem_nil, or_false] at hk
      rcases hk with rfl | rfl | rfl | rfl | rfl | rfl | rfl | rfl | rfl <;> rfl
    exact ⟨fun h => moves_of_ready svcQueue hx hr (svcQueue_queued h),
      fun h => moves_of_ready svcQueue hx hr (svcQueue_range h)⟩
  case readRange => exact moves_of_ready cmdSvcRead rfl hr (cmdSvcRead_range h)
  case readLive => exact moves_of_ready cmdSvcRead rfl hr (cmdSvcRead_live hi h0)
  case readRecord => exact moves_of_ready cmdSvcRead rfl hr (cmdSvcRead_record hi h1 h)
  case ledgerWaits => exact moves_of_ready (flashTurn cmdLedgerRead) rfl hr (flashTurn_queued _ hf)
  case ledgerRange =>
    exact moves_of_ready (flashTurn cmdLedgerRead) rfl hr ((flashTurn_free _ hf).trans (cmdLedgerRead_range h))
  case ledgerReads =>
    exact moves_of_ready (flashTurn cmdLedgerRead) rfl hr ((flashTurn_free _ hf).trans (cmdLedgerRead_reads hp h))

/-- Settles O43: the step is taken where it is due and nowhere else; the evaluation keeps the minutes it has shifted; the
other two rows are their functions. -/
theorem serviceSteps : Obligations.ServiceSteps :=
  fun s => ⟨fun h => stays_of_quiet stepChecked rfl (stepChecked_stays h),
    fun hr ht hl => moves_of_quiet stepChecked rfl (stepChecked_steps hr ht hl),
    ⟨aerEvaluation s.dev, moves_of_quiet aerEvaluation rfl rfl, aerEvaluation_ambMins s.dev⟩,
    fun i => moves_of_quiet (blockJournalled i) rfl rfl, moves_of_quiet resumeRecords rfl rfl⟩

end Sys2Proof
end

section
/-!
The message bus: frames received, transmission, time service, the roster, parameters at idle and rate detection (R401-R437).
-/
namespace Sys2Proof.Machine

/-! ## A row with ring writes runs its meaning -/

section
variable {i : Instr} {s : State} {t : Dev}

/-- A row that takes entries moves the device by its meaning; the ring writes and the taking follow. -/
theorem takes_of_taking (f : Dev → Dev) (hx : exec i s = taking f s) (h : f s.dev = t) : Takes i s t := by
  rw [Takes, hx, taking_next, h]

/-- A row of a ready command with ring writes moves the device by the command's meaning, and the ring writes follow. -/
theorem settles_of_ready {id : CmdId} {op : Nat} {c : Cmd} (f : Cmd → Dev → Dev)
    (hx : exec i s = loud (withCmd op id f) s) (hr : Ready s id op c) (h : f c s.dev = t) : Settles i s t := by
  rw [Settles, hx, loud_of_ready hr, h]

end

/-! ## One channel changed -/

section
variable (ch : Fin 2) (d : Dev)

@[simp] theorem busCh_busMod (f : BusCh → BusCh) : busCh (busMod ch f d) ch = f (busCh d ch) := vMod_get_same _ _ _

@[simp] theorem busCh_ttMod (f : TtSt → TtSt) : busCh (ttMod ch f d) ch = { busCh d ch with tt := f (busCh d ch).tt } :=
  busCh_busMod ch d _

@[simp] theorem busCh_busStat_tt (k : Fin 8) : (busCh (busStat ch k d) ch).tt = (busCh d ch).tt := by
  simp only [busStat, busCh_busMod]

@[simp] theorem busCh_busRaise (code : Nat) (data : List Byte) : busCh (busRaise code ch data d) ch = busCh d ch := rfl

@[simp] theorem busCh_when_busRaise (b : Bool) (code : Nat) (data : List Byte) :
    busCh (when b (busRaise code ch data) d) ch = busCh d ch := by
  cases b <;> rfl

end

/-! ## Frames received (R404-R408, R434, R435) -/

section
variable {ch : Fin 2} {f : BusFrame} {d : Dev}

theorem frameIn_counts (hb : busHears d ch = true) (hr : (busCh d ch).rate = none) :
    frameIn ch f d = routeFrame ch f (goodRx ch (busStat ch 0 d)) := by
  rw [frameIn, if_pos hb, hr]

theorem frameIn_samples {r : RateDetect} (hb : busHears d ch = true) (hr : (busCh d ch).rate = some r) :
    frameIn ch f d = rateFrame ch r f d := by
  rw [frameIn, if_pos hb, hr]

theorem frameIn_deaf (hb : busHears d ch = false) : frameIn ch f d = d :=
  if_neg (by simp [hb])

theorem userFrame_own {user : Nat} (h : frameUser d ch f = user) : userFrame user ch f d = frameIn ch f d :=
  if_pos h

theorem userFrame_other {user : Nat} (h : frameUser d ch f ≠ user) : userFrame user ch f d = d :=
  if_neg h

theorem rmbTimeout_idle {c : Nat} (h : vAt d.bus.rmb (8 * ch + c) none = none) : rmbTimeout ch c d = d := by
  rw [rmbTimeout, h]

theorem rmbTimeout_ends {c : Nat} {x : RmbSt} (h : vAt d.bus.rmb (8 * ch + c) none = some x) (hx : x.skip = false) :
    rmbTimeout ch c d = rmbError ch c 2 (rmbSet (8 * ch + c) none d) := by
  rw [rmbTimeout, h]
  exact if_neg (by simp [hx])

end

/-! ## Entries taken and transmissions that end (R409-R412) -/

/-- The device takes no entry of a channel's transmit ring (R410). -/
def txStops (ch : Fin 2) (d : Dev) : Prop :=
  (ringOf d (txRing ch)).en = false ∨ (ringOf d (txRing ch)).head = (ringOf d (txRing ch)).tail ∨
    64 ≤ (outstanding (busCh d ch)).length ∨ (busMode d ch ≠ 1 ∧ busMode d ch ≠ 3)

section
variable {ch : Fin 2} {b : List Byte} {d : Dev}

theorem txTake_stays (h : txStops ch d) : txTake ch b d = d := by
  refine if_neg fun htakes => ?_
  simp only [Bool.and_eq_true, Bool.or_eq_true, bne_iff_ne, beq_iff_eq, decide_eq_true_eq] at htakes
  obtain ⟨⟨⟨hen, hne⟩, hlt⟩, hmode⟩ := htakes
  rcases h with h | h | h | h
  · simp [hen] at h
  · exact hne h
  · omega
  · omega

/-- A good entry, while the channel is powered and not bus-off, joins the outstanding ones. -/
theorem txTake_joins (h : ¬txStops ch d) (hb : txBad d ch b = false) (hd : (busCh d ch).down = false)
    (hf : (busCh d ch).flt ≠ 2) :
    txTake ch b d = busMod ch (fun x => { x with txq := x.txq ++ [txEntry (ringOf d (txRing ch)).head b] })
      (ringMod (txRing ch) (fun r => { r with head := (r.head + 1) % 65536 }) d) := by
  simp only [txStops, not_or, Bool.not_eq_false, Nat.not_le, Decidable.not_and_iff_not_or_not, Decidable.not_not] at h
  obtain ⟨hen, hne, hlt, hmode⟩ := h
  have hbad : txBad (busMod ch (fun x => { x with txq := x.txq ++ [txEntry (ringOf d (txRing ch)).head b] })
      (ringMod (txRing ch) (fun r => { r with head := (r.head + 1) % 65536 }) d)) ch b = false := hb
  simp [txTake, hen, hne, hlt, hmode, hbad, hd, hf]

variable {o : Offer} {ago : Nat}

/-- The start that is counted does not move the start-of-frame's DT. -/
theorem sofNs_countStart (dt : Nat) : sofNs (countStart ch o dt d) ago = sofNs d ago := by
  cases o <;> rfl

theorem txDone_unoffered (out : TxOutcome) (h : offered d ch ago = none) : txDone ch out ago d = d := by
  rw [txDone, h]

section
variable (h : offered d ch ago = some o)
include h

theorem txDone_sent :
    let e := countStart ch o (sofNs d ago) d
    txDone ch .sent ago d = offerSent ch o (sofNs e ago) (acked ch (markHead ch o false e)) := by
  simp only [txDone, h, sofNs_countStart]

theorem txDone_arbLost :
    let e := countStart ch o (sofNs d ago) d
    txDone ch .arbLost ago d = offerFailed ch o 0x10 0 (sofNs e ago) e := by
  simp only [txDone, h, sofNs_countStart]

theorem txDone_error (x : BusError) :
    let e := countStart ch o (sofNs d ago) d
    txDone ch (.error x) ago d = attemptError ch o x (sofNs e ago) e := by
  simp only [txDone, h, sofNs_countStart]

end

/-! ## Recovery and the transceiver (R403, R415) -/

theorem busRecovered_recovers (us : Nat) (hf : (busCh d ch).flt = 2) (hd : (busCh d ch).down = false) :
    busRecovered ch us d = busRaise 0x7005 ch (List.replicate 3 0 ++ le 4 us)
      (busMod ch (fun x => { x with tec := 0, rec_ := 0, flt := 0 }) d) :=
  if_pos (by simp [hf, hd])

theorem busRecovered_stays (us : Nat) (h : (busCh d ch).flt ≠ 2 ∨ (busCh d ch).down = true) : busRecovered ch us d = d :=
  if_neg (by simpa [Decidable.imp_iff_not_or] using h)

theorem xcvrDown_fails (h : (busCh d ch).down = false) :
    xcvrDown ch d = busRaise 0x700D ch (le 1 0) (failOneShots ch 2
      (ttMod ch (fun t => { t with serve := false, cell := 0 }) (exclMissed ch (busMod ch (fun x => { x with down := true }) d)))) :=
  if_neg (by simp [h])

theorem xcvrUp_reports (h : (busCh d ch).down = true) :
    xcvrUp ch d = busRaise 0x700D ch (le 1 1) (busMod ch (fun x => { x with down := false }) d) :=
  if_pos h

end

/-! ## The channel a command names (R437) -/

section
variable {c : Cmd} {d : Dev} {ch : Fin 2} (f : Cmd → Fin 2 → Dev → Dev)

theorem busCmd_channel (h : c.target % 256 = ch.val) : busCmd f c d = f c ch d := by
  simp only [busCmd, h, ch.isLt, dite_true, Fin.eta]

theorem busCmd_range (h : 2 ≤ c.target % 256) : busCmd f c d = complete c stRange 0 [] d :=
  dif_neg (Nat.not_lt.2 h)

end

/-! ## Time marks and the transmit enable (R421, R422) -/

section
variable {ch : Fin 2} {d : Dev}

theorem exclMissed_waits (h : (busCh d ch).tt.excl ≠ none) : exclMissed ch d = cellMissed ch d :=
  if_pos (Option.isSome_iff_ne_none.2 h)

theorem exclMissed_none (h : (busCh d ch).tt.excl = none) : exclMissed ch d = d :=
  if_neg (by simp [h])

/-- No exclusive frame waits any more. -/
@[simp] theorem exclMissed_excl : (busCh (exclMissed ch d) ch).tt.excl = none := by
  by_cases h : (busCh d ch).tt.excl = none
  · rw [exclMissed_none h, h]
  · simp [exclMissed_waits h, cellMissed]

/-- A column's cell begins, with nothing in it yet. -/
def columnBegun (ch : Fin 2) (col : Nat) (d : Dev) : Dev :=
  ttMod ch (fun t => { t with col := col, cell := 0, excl := none }) d

theorem ttMark_stays {col : Nat}
    (h : busMode d ch ≠ 3 ∨ (busCh d ch).tt.state = 0 ∨ pisteColumns (piste d ch) ≤ col) : ttMark ch col d = d :=
  if_pos (by simpa [or_assoc] using h)

section
variable {col : Nat} {t : Trigger} (hmode : busMode d ch = 3) (hstate : 2 ≤ (busCh d ch).tt.state)
  (hcol : col < pisteColumns (piste d ch)) (hexcl : (busCh d ch).tt.excl = none)
  (hcell : cellOf (piste d ch) col (busCh d ch).tt.cycle = some t)
include hmode hstate hcol hexcl hcell

/-- A mark opens the cell of its trigger where the channel may transmit; an exclusive one is missed where it may not. -/
theorem ttMark_opens {up : Bool}
    (hup : ((busCh d ch).tt.serve && !(busCh d ch).down && (busCh d ch).flt != 2) = up) :
    ttMark ch col d =
      if t.kind = 1 then
        if up then ttMod ch (fun x => { x with excl := some t.smo, cell := 1 })
          (boundary (fun _ d => d) (fun w => w.addr = addrOf kBusSmo (32 * ch + t.smo)) (columnBegun ch col d))
        else cellMissed ch (columnBegun ch col d)
      else if up then ttMod ch (fun x => { x with cell := 2 })
        (busMod ch (fun c => { c with txq := c.txq.map fun x => { x with skip := false } }) (columnBegun ch col d))
      else columnBegun ch col d := by
  have hopen : (busMode d ch != 3 || (busCh d ch).tt.state == 0 || decide (pisteColumns (piste d ch) ≤ col)) = false := by
    simp only [hmode, bne_self_eq_false, Bool.false_or, Bool.or_eq_false_iff, beq_eq_false_iff_ne, decide_eq_false_iff_not]
    omega
  simp only [ttMark, hopen, exclMissed_none hexcl, hcell, hup, hstate, decide_true, Bool.and_true, Bool.false_eq_true,
    if_false, beq_iff_eq]
  rfl

section
variable (hserve : (busCh d ch).tt.serve = true) (hdown : (busCh d ch).down = false) (hflt : (busCh d ch).flt ≠ 2)
include hserve hdown hflt

theorem ttMark_exclusive (hk : t.kind = 1) :
    ttMark ch col d = ttMod ch (fun x => { x with excl := some t.smo, cell := 1 })
      (boundary (fun _ d => d) (fun w => w.addr = addrOf kBusSmo (32 * ch + t.smo)) (columnBegun ch col d)) := by
  rw [ttMark_opens hmode hstate hcol hexcl hcell (up := true) (by simp [hserve, hdown, hflt]), if_pos hk, if_pos rfl]

theorem ttMark_arbitration (hk : t.kind ≠ 1) :
    ttMark ch col d = ttMod ch (fun x => { x with cell := 2 })
      (busMod ch (fun c => { c with txq := c.txq.map fun x => { x with skip := false } }) (columnBegun ch col d)) := by
  rw [ttMark_opens hmode hstate hcol hexcl hcell (up := true) (by simp [hserve, hdown, hflt]), if_neg hk, if_pos rfl]

end

theorem ttMark_misses (hserve : (busCh d ch).tt.serve = false) (hk : t.kind = 1) :
    ttMark ch col d = cellMissed ch (columnBegun ch col d) := by
  rw [ttMark_opens hmode hstate hcol hexcl hcell (up := false) (by simp [hserve]), if_pos hk]
  exact if_neg Bool.false_ne_true

end

/-! ## The reference lost and sent (R423, R424, R427) -/

theorem refLost_stays (h : busMode d ch ≠ 3 ∨ (busCh d ch).tt.state < 2) : refLost ch d = d :=
  if_neg (by simpa [Decidable.imp_iff_not_or] using h)

/-- The schedule is left: unsynchronised, no cell served, no exclusive frame waiting. -/
theorem refLost_tt (hmode : busMode d ch = 3) (hstate : 2 ≤ (busCh d ch).tt.state) :
    let t := (busCh (refLost ch d) ch).tt
    t.state = 1 ∧ t.serve = false ∧ t.excl = none := by
  rw [refLost, if_pos (by simp [hmode, hstate])]
  simp

/-- A change of role leaves the rest of the time service as it is. -/
theorem ttRole_tt (role prio : Nat) : (busCh (ttRole ch role prio d) ch).tt =
    { (busCh d ch).tt with role := role, prio := prio, state := if role = 1 then 3 else 2 } := by
  simp [ttRole]

theorem referenceSend_stays (k : Nat) (h : mayRefer d ch = false) : referenceSend ch k d = d :=
  if_neg (by simp [h])

/-- The sender of the reference is the current master, with no discontinuity pending. -/
theorem referenceSend_tt (k : Nat) (h : mayRefer d ch = true) :
    let t := (busCh (referenceSend ch k d) ch).tt
    t.role = 1 ∧ t.state = 3 ∧ t.disc = false := by
  rw [referenceSend, if_pos h]
  simp [ttRole_tt]

end

/-! ## The roster (R429-R433) -/

section
variable {r : Nat} {d : Dev}

theorem rosterMiss_counts (hs : (roleOf d r).state = 3) (he : pget d kBusRstEnable 0 ≠ 0) :
    let e := roleMod r (fun x => { x with misses := x.misses + 1 }) d
    rosterMiss r d = if roleLimit e r ≤ (roleOf e r).misses then roleDead r e else e :=
  if_pos (by simp [hs, he])

theorem rosterMiss_stays (h : (roleOf d r).state ≠ 3 ∨ pget d kBusRstEnable 0 = 0) : rosterMiss r d = d :=
  if_neg (by simpa [Decidable.imp_iff_not_or] using h)

/-- The unconfirmed candidate is told to stand by, and the spares after it are tried. -/
theorem assignTimeout_withdraws (hs : (roleOf d r).state = 2) (he : pget d kBusRstEnable 0 ≠ 0) :
    let x := roleOf d r
    assignTimeout r d = tryAssign r
      (if x.spares.any fun n => n = x.cand then (x.spares.dropWhile fun n => n != x.cand).drop 1 else x.spares)
      (sendCommand 2 r x.cand (epochUp r d)) :=
  if_pos (by simp [hs, he])

theorem assignTimeout_stays (h : (roleOf d r).state ≠ 2 ∨ pget d kBusRstEnable 0 = 0) : assignTimeout r d = d :=
  if_neg (by simpa [Decidable.imp_iff_not_or] using h)

theorem standbyRepeat_repeats {n : Nat} (ho : nodeObeys d n = true)
    (h : ∃ x ∈ (roleOf d r).stale, x.node = n ∧ x.sending = true) : standbyRepeat r n d = sendCommand 2 r n d :=
  if_pos (by simpa [ho] using h)

theorem standbyRepeat_stays {n : Nat} (h : ∀ x ∈ (roleOf d r).stale, x.node ≠ n ∨ x.sending = false) :
    standbyRepeat r n d = d := by
  have hnone : ((roleOf d r).stale.any fun x => x.node = n && x.sending) = false := by
    simpa [List.any_eq_false, Decidable.imp_iff_not_or] using h
  exact if_neg (by simp [hnone])

theorem ownHeartbeat_sends {ch : Fin 2} (h : bitOf (pget d kBusRstEnable 0) ch = true) :
    ownHeartbeat ch d = sendInner ch 0 (classical (pget d kBusRstBase 0 + pget d kBusNodeId ch)
      (le 1 0xFF ++ le 1 0 ++ le 1 2 ++ le 1 (busCh d ch).hbSeq ++ le 1 3 ++ le 3 0))
      (busMod ch (fun x => { x with hbSeq := ((busCh d ch).hbSeq + 1) % 256 }) d) :=
  if_pos h

theorem ownHeartbeat_stays {ch : Fin 2} (h : bitOf (pget d kBusRstEnable 0) ch = false) : ownHeartbeat ch d = d :=
  if_neg (by simp [h])

end

/-! ## BUS_ROLE_ASSIGN (R431, R437) -/

section
variable {c : Cmd} {d : Dev}

theorem cmdRoleAssign_range (h : 96 ≤ c.target % 256 ∨ byteAt c.payload 0 = 0 ∨ 127 < byteAt c.payload 0) :
    cmdRoleAssign c d = complete c stRange 0 [] d :=
  if_pos (by simpa [or_assoc] using h)

section
variable (hr : c.target % 256 < 96) (h0 : byteAt c.payload 0 ≠ 0) (h127 : byteAt c.payload 0 ≤ 127)
include hr h0 h127

theorem cmdRoleAssign_undefined (h : (roleOf d (c.target % 256)).state = 0) :
    cmdRoleAssign c d = complete c stRefused 0x70 [] d :=
  (if_neg (by simp; omega)).trans (if_pos (by simp [h]))

/-- The other nodes that held the role or were to hold it stand by, and the node named is commanded under the new epoch. -/
theorem cmdRoleAssign_assigns (h : (roleOf d (c.target % 256)).state ≠ 0) :
    let n := byteAt c.payload 0
    let old := (roleOf d (c.target % 256)).holder
    let told := [old, (roleOf d (c.target % 256)).cand].filter fun m => m != 0 && m != n
    let e := forEach told (fun m d => sendCommand 2 (c.target % 256) m d) (epochUp (c.target % 256) d)
    let e := sendCommand 1 (c.target % 256) n (roleMod (c.target % 256) (fun x =>
      { x with state := 2, cand := n, holder := 0, former := if old = 0 then x.former else old, misses := 0 }) e)
    cmdRoleAssign c d = complete c stOk 0 (le 4 (roleEpoch e (c.target % 256))) e :=
  (if_neg (by simp; omega)).trans (if_neg (by simp [h]))

end

end

/-! ## Rate detection and frame times (R404, R413, R437) -/

section
variable {c : Cmd} {d : Dev} {ch : Fin 2}

theorem dwellEnd_next {r : RateDetect} (h : (busCh d ch).rate = some r) :
    dwellEnd ch d = busMod ch (fun x =>
      { x with rate := some { r with pair := nextPair d ch r.pair, good := 0, brs := false } }) d := by
  rw [dwellEnd, h]

theorem dwellEnd_stays (h : (busCh d ch).rate = none) : dwellEnd ch d = d := by
  rw [dwellEnd, h]

theorem rateTimeout_ends {r : RateDetect} (h : (busCh d ch).rate = some r) :
    rateTimeout ch d = completeId r.cmd stTimeout 0 [] (busMod ch (fun x => { x with rate := none }) d) := by
  rw [rateTimeout, h]

theorem rateTimeout_stays (h : (busCh d ch).rate = none) : rateTimeout ch d = d := by
  rw [rateTimeout, h]

theorem cmdRateDetect_busy (h : busMode d ch ≠ 0 ∨ (busCh d ch).rate ≠ none) :
    cmdRateDetect c ch d = complete c stBusyRunning 0 [] d :=
  if_pos (by simpa [Option.isSome_iff_ne_none] using h)

theorem cmdRateDetect_begins (hm : busMode d ch = 0) (hr : (busCh d ch).rate = none) :
    cmdRateDetect c ch d = begin_ c.id (busMod ch (fun x =>
      { x with rate := some { cmd := c.id, dwellMs := field c.payload 4 2, apply := byteAt c.payload 6 != 0, pair := 0,
                              good := 0, brs := false, start := d.time.tick } }) d) :=
  if_neg (by simp [hm, hr])

theorem firstRefusal_passed {b : Bool} {x : Refuse} (h : b = false) : firstRefusal [(b, x)] = none := by
  rw [firstRefusal, h]
  rfl

theorem firstRefusal_failed {b : Bool} {x : Refuse} (h : b = true) : firstRefusal [(b, x)] = some x :=
  if_pos h

/-- The operands describe a frame: flags of one bit, a DLC of four, and above 8 only in an FD frame (R413). -/
def frameDescribed (p : List Byte) : Prop :=
  byteAt p 0 ≤ 1 ∧ byteAt p 1 ≤ 1 ∧ byteAt p 2 ≤ 1 ∧ byteAt p 3 ≤ 15 ∧ (byteAt p 3 ≤ 8 ∨ byteAt p 1 = 1)

theorem cmdFrameUs_answers (h : frameDescribed c.payload) :
    cmdFrameUs c ch d = complete c stOk 0 (le 4 (frameNs d ch (byteAt c.payload 0 == 1) (byteAt c.payload 1 == 1)
      (byteAt c.payload 2 == 1) (byteAt c.payload 3))) d := by
  obtain ⟨hxtd, hfdf, hbrs, hdlc, hlong⟩ := h
  refine answer_ok (firstRefusal_passed ?_) _ c d
  simp only [Bool.or_eq_false_iff, Bool.and_eq_false_iff, decide_eq_false_iff_not, Bool.not_eq_false', beq_iff_eq]
  omega

theorem cmdFrameUs_range (h : ¬frameDescribed c.payload) : cmdFrameUs c ch d = complete c stRange 0 [] d := by
  refine answer_refused (firstRefusal_failed ?_) _ c d
  simp only [frameDescribed] at h
  simp only [Bool.or_eq_true, Bool.and_eq_true, decide_eq_true_eq, Bool.not_eq_true', beq_eq_false_iff_ne]
  omega

end

end Sys2Proof.Machine

namespace Sys2Proof

open Machine

/-- Settles O44: a frame takes the one of three branches its channel names, and a user's row takes its own frames alone. -/
theorem busFramesIn : Obligations.BusFramesIn := by
  refine fun s ch f => ⟨fun hb hr => ?counts, fun r hb hr => ?samples, fun hb => ?deaf, fun k hk => ?user,
    fun h => ?mailbox, fun h => ?notMailbox, fun c h => ?idle, fun c x h hx => ?ends⟩
  case counts => exact takes_of_taking (frameIn ch f) rfl (frameIn_counts hb hr)
  case samples => exact takes_of_taking (frameIn ch f) rfl (frameIn_samples hb hr)
  case deaf => exact takes_of_taking (frameIn ch f) rfl (frameIn_deaf hb)
  case user =>
    have hx : exec k.2 s = loud (userFrame k.1 ch f) s := by
      simp only [List.mem_cons, List.not_mem_nil, or_false] at hk
      rcases hk with rfl | rfl | rfl | rfl <;> rfl
    exact ⟨fun h => settles_of_loud (userFrame k.1 ch f) hx (userFrame_own h),
      fun h => settles_of_loud (userFrame k.1 ch f) hx (userFrame_other h)⟩
  case mailbox => exact takes_of_taking (userFrame 3 ch f) rfl (userFrame_own h)
  case notMailbox => exact takes_of_taking (userFrame 3 ch f) rfl (userFrame_other h)
  case idle => exact stays_of_quiet (rmbTimeout ch c) rfl (rmbTimeout_idle h)
  case ends => exact moves_of_quiet (rmbTimeout ch c) rfl (rmbTimeout_ends h hx)

/-- Settles O45: each row is its own function, and each clause the outcome of that function in one of its branches. -/
theorem busTransmission : Obligations.BusTransmission := by
  refine fun s ch ago us id c => ⟨⟨fun hen hne hlt hmode => ?takes, fun h => ?stops⟩, fun out h => ?unoffered,
    fun o h => ⟨?sent, ?arbLost, fun e => ?error⟩, fun tx e => ?detected, fun hf hd => ?recovers, fun h => ?recoverStays,
    fun h => ?down, fun h => ?up, fun hr => ⟨fun h => ?flush, fun h => ?flushRange⟩⟩
  case takes =>
    refine ⟨_, settles_of_loud (txTake ch _) rfl rfl, fun hb hd hf => txTake_joins ?_ hb hd hf⟩
    simp only [txStops, hen, Bool.true_eq_false, hne, false_or]
    omega
  case stops => exact settles_of_loud (txTake ch _) rfl (txTake_stays h)
  case unoffered => exact settles_of_loud (txDone ch out ago) rfl (txDone_unoffered out h)
  case sent => exact settles_of_loud (txDone ch .sent ago) rfl (txDone_sent h)
  case arbLost => exact settles_of_loud (txDone ch .arbLost ago) rfl (txDone_arbLost h)
  case error => exact settles_of_loud (txDone ch (.error e) ago) rfl (txDone_error h e)
  case detected => exact settles_of_loud (busErrorIn ch tx e ago) rfl rfl
  case recovers => exact moves_of_quiet (busRecovered ch us) rfl (busRecovered_recovers us hf hd)
  case recoverStays => exact stays_of_quiet (busRecovered ch us) rfl (busRecovered_stays us h)
  case down => exact settles_of_loud (xcvrDown ch) rfl (xcvrDown_fails h)
  case up => exact moves_of_quiet (xcvrUp ch) rfl (xcvrUp_reports h)
  case flush => exact settles_of_ready (busCmd cmdTxFlush) rfl hr (busCmd_channel cmdTxFlush h)
  case flushRange => exact settles_of_ready (busCmd cmdTxFlush) rfl hr (busCmd_range cmdTxFlush h)

/-- Settles O46: a mark opens its column's cell, and the time service after the loss or the sending of a reference is read off
the last changes made to it. -/
theorem busTimeTriggered : Obligations.BusTimeTriggered := by
  refine fun s ch col k => ⟨fun h => ?markStays, fun t hmode hstate hcol hexcl hcell =>
      ⟨fun hserve hdown hflt => ⟨fun hk => ?exclusive, fun hk => ?arbitration⟩, fun hserve hk => ?misses⟩,
    fun h => ?expires, fun h => ?expiredStays, fun hmode hstate => ?lost, fun h => ?lostStays, fun h => ?sendStays,
    fun h => ?sends⟩
  case markStays => exact stays_of_quiet (ttMark ch col) rfl (ttMark_stays h)
  case exclusive =>
    exact moves_of_quiet (ttMark ch col) rfl (ttMark_exclusive hmode hstate hcol hexcl hcell hserve hdown hflt hk)
  case arbitration =>
    exact moves_of_quiet (ttMark ch col) rfl (ttMark_arbitration hmode hstate hcol hexcl hcell hserve hdown hflt hk)
  case misses => exact moves_of_quiet (ttMark ch col) rfl (ttMark_misses hmode hstate hcol hexcl hcell hserve hk)
  case expires => exact moves_of_quiet (txEnExpired ch) rfl (exclMissed_waits h)
  case expiredStays => exact stays_of_quiet (txEnExpired ch) rfl (exclMissed_none h)
  case lost => exact ⟨_, moves_of_quiet (refLost ch) rfl rfl, refLost_tt hmode hstate⟩
  case lostStays => exact stays_of_quiet (refLost ch) rfl (refLost_stays h)
  case sendStays => exact stays_of_quiet (referenceSend ch k) rfl (referenceSend_stays k h)
  case sends => exact ⟨_, moves_of_quiet (referenceSend ch k) rfl rfl, referenceSend_tt k h⟩

/-- Settles O47: each row of the roster acts in the state it is meant for and nowhere else; the own heartbeat has the bytes of
log entry 20. -/
theorem busRoster : Obligations.BusRoster := by
  refine fun s r node ch id c => ⟨fun hs he => ?misses, fun h => ?missStays, fun hs he => ?withdraws, fun h => ?timeoutStays,
    fun ho h => ?repeats, fun h => ?repeatStays, fun h => ?heartbeat, fun h => ?silent,
    fun hr => ⟨fun h => ?range, fun ht h0 h127 => ⟨fun h => ?undefined, fun h => ?assigns⟩⟩⟩
  case misses => exact moves_of_quiet (rosterMiss r) rfl (rosterMiss_counts hs he)
  case missStays => exact stays_of_quiet (rosterMiss r) rfl (rosterMiss_stays h)
  case withdraws => exact moves_of_quiet (assignTimeout r) rfl (assignTimeout_withdraws hs he)
  case timeoutStays => exact stays_of_quiet (assignTimeout r) rfl (assignTimeout_stays h)
  case repeats => exact moves_of_quiet (standbyRepeat r node) rfl (standbyRepeat_repeats ho h)
  case repeatStays => exact stays_of_quiet (standbyRepeat r node) rfl (standbyRepeat_stays h)
  case heartbeat => exact moves_of_quiet (ownHeartbeat ch) rfl (ownHeartbeat_sends h)
  case silent => exact stays_of_quiet (ownHeartbeat ch) rfl (ownHeartbeat_stays h)
  case range => exact moves_of_ready cmdRoleAssign rfl hr (cmdRoleAssign_range h)
  case undefined => exact moves_of_ready cmdRoleAssign rfl hr (cmdRoleAssign_undefined ht h0 h127 h)
  case assigns => exact moves_of_ready cmdRoleAssign rfl hr (cmdRoleAssign_assigns ht h0 h127 h)

/-- Settles O48: the parameters at idle are the rows' own boundaries (log entry 22), a detection moves or ends where one is in
progress, and each command finds its channel and then answers by its checks (the length of an FD frame is that of log entry
167). -/
theorem busModeAndRates : Obligations.BusModeAndRates := by
  refine fun s ch id c => ⟨settles_of_loud (boundary busHook (busIdleWait ch true)) rfl rfl,
    settles_of_loud (busIdleParams ch) rfl rfl, fun r h => ⟨?dwell, ?timeout⟩, fun h => ⟨?dwellStays, ?timeoutStays⟩,
    fun hr => ⟨fun h => ?rateRange, fun ht => ⟨fun h => ?rateBusy, fun hm h => ?rateBegins⟩⟩,
    fun hr => ⟨fun h => ?usChannel, fun ht => ⟨fun hxtd hfdf hbrs hdlc hlong => ?usAnswers, fun h => ?usRange⟩⟩⟩
  case dwell => exact moves_of_quiet (dwellEnd ch) rfl (dwellEnd_next h)
  case timeout => exact moves_of_quiet (rateTimeout ch) rfl (rateTimeout_ends h)
  case dwellStays => exact stays_of_quiet (dwellEnd ch) rfl (dwellEnd_stays h)
  case timeoutStays => exact stays_of_quiet (rateTimeout ch) rfl (rateTimeout_stays h)
  case rateRange => exact moves_of_ready (busCmd cmdRateDetect) rfl hr (busCmd_range cmdRateDetect h)
  case rateBusy =>
    exact moves_of_ready (busCmd cmdRateDetect) rfl hr ((busCmd_channel cmdRateDetect ht).trans (cmdRateDetect_busy h))
  case rateBegins =>
    exact moves_of_ready (busCmd cmdRateDetect) rfl hr ((busCmd_channel cmdRateDetect ht).trans (cmdRateDetect_begins hm h))
  case usChannel => exact moves_of_ready (busCmd cmdFrameUs) rfl hr (busCmd_range cmdFrameUs h)
  case usAnswers =>
    exact moves_of_ready (busCmd cmdFrameUs) rfl hr
      ((busCmd_channel cmdFrameUs ht).trans (cmdFrameUs_answers ⟨hxtd, hfdf, hbrs, hdlc, hlong⟩))
  case usRange =>
    refine moves_of_ready (busCmd cmdFrameUs) rfl hr ((busCmd_channel cmdFrameUs ht).trans (cmdFrameUs_range fun hd => ?_))
    obtain ⟨hxtd, hfdf, hbrs, hdlc, hlong⟩ := hd
    omega

end Sys2Proof
end

section
/-!
The step: what every row keeps of the queue of commands and of the two memories (95_what_each_step_holds.md).
-/
namespace Sys2Proof.Machine

/-! ## The outcomes that keep the queue of commands and the canonical form -/

/-- An outcome that is a next state, with the queue of commands as it was and the memories in canonical form where they
were. -/
def Keeps (s : State) (o : Host.Outcome State Fault Refusal) : Prop := ∃ t, o = .next t ∧ Kept s t

theorem Keeps.cond {s : State} {p : Prop} [Decidable p] {a b : Host.Outcome State Fault Refusal} (ha : Keeps s a)
    (hb : Keeps s b) : Keeps s (if p then a else b) := by
  split
  · exact ha
  · exact hb

section
variable {s t : State}

/-- A change of the device and the loss of a memory's content keep what there is to keep. -/
theorem Kept.of_parts (hp : t.pending = s.pending) (hm : t.mem = s.mem ∨ t.mem = []) (hn : t.snap = s.snap ∨ t.snap = []) :
    Kept s t := by
  refine ⟨hp, fun h => ⟨?_, ?_⟩⟩
  · rcases hm with hm | hm
    · exact hm ▸ h.1
    · exact hm ▸ rfl
  · rcases hn with hn | hn
    · exact hn ▸ h.2
    · exact hn ▸ rfl

theorem Kept.refl (s : State) : Kept s s := ⟨rfl, id⟩

theorem Kept.settled (h : Kept s t) : Kept s (Machine.settle t) := h.trans (Kept.settle t)

theorem Kept.taken (h : Kept s t) : Kept s (Machine.takeAll (Machine.settle t)) := h.settled.trans (Kept.takeAll _)

end

section
variable (f : Dev → Dev) (s : State)

theorem keeps_quiet : Keeps s (quiet f s) := ⟨_, quiet_next f s, .quiet f s⟩

theorem keeps_loud : Keeps s (loud f s) := ⟨_, loud_next f s, (Kept.quiet f s).settled⟩

theorem keeps_taking : Keeps s (taking f s) := ⟨_, taking_next f s, (Kept.quiet f s).taken⟩

theorem keeps_losing : Keeps s (losing f s) := ⟨_, losing_next f s, .of_parts rfl (.inr rfl) (.inr rfl)⟩

end

theorem keeps_losingSnap (f : Dev → Dev) {s t : State} (h : Kept s t) : Keeps s (losingSnap f t) :=
  ⟨_, losingSnap_next f t, h.trans (.of_parts rfl (.inl rfl) (.inr rfl))⟩

/-! ## Transactions on the host link -/

section
variable (s : State)

theorem kept_ringWrite (a v : Nat) : Kept s (ringWrite a v s).2 := by
  simp only [ringWrite]
  split
  · exact ⟨rfl, fun h => ⟨memWrite_wf h.1 _ _, h.2⟩⟩
  · exact .refl s

theorem kept_windowWrite (a v : Nat) : Kept s (windowWrite a v s).2 := by
  simp only [windowWrite]
  repeat' split
  · exact ⟨rfl, id⟩
  · exact ⟨rfl, id⟩
  · exact kept_ringWrite s a v
  · exact .refl s

theorem kept_windowWrites (vs : List Nat) (a : Nat) : Kept s (windowWrites a vs s).2 := by
  induction vs generalizing a s with
  | nil => exact .refl s
  | cons v vs ih => exact (kept_windowWrite s a v).trans (ih _ (a + 1))

theorem kept_linkWrite (n : Nat) (mosi miso : List Byte) : Kept s (linkWrite n mosi miso s) := by
  simp only [linkWrite]
  repeat' split
  · exact ⟨rfl, id⟩
  · exact ⟨rfl, id⟩
  · exact ⟨rfl, id⟩
  all_goals exact (kept_windowWrites s _ _).trans ⟨rfl, id⟩

theorem kept_linkRead (n : Nat) (mosi : List Byte) : Kept s (linkRead n mosi s) := by
  simp only [linkRead]
  repeat' split
  all_goals exact ⟨rfl, id⟩

theorem kept_transaction (mosi : List Byte) : Kept s (transaction mosi s) := by
  have hcheck : Kept s { s with dev := healthCheck s.dev } := .quiet healthCheck s
  simp only [transaction]
  repeat' split
  · exact ⟨rfl, id⟩
  · exact ⟨rfl, id⟩
  · exact ⟨rfl, id⟩
  · exact hcheck.trans (kept_linkWrite _ _ _ _)
  · exact hcheck.trans (kept_linkRead _ _ _)

theorem keeps_linked (mosi : List Byte) : Keeps s (linked mosi s) := by
  simp only [linked]
  split
  · exact keeps_losingSnap _ (kept_transaction s mosi)
  · exact ⟨_, rfl, (kept_transaction s mosi).taken⟩

end

/-! ## Every row -/

/-- The samples fill a buffer of their own. -/
theorem keeps_snapCaptureEnd (l1 l5 : List (BitVec 4)) (lead : Fin 25) (s : State) :
    Keeps s (execSnapCaptureEnd l1 l5 lead s) :=
  .cond ⟨_, rfl, Kept.settled ⟨rfl, fun h => ⟨h.1, memWrite_wf rfl _ _⟩⟩⟩ ⟨_, rfl, .refl s⟩

theorem kept_snapAfter (s : State) (d : Dev) : Kept s { s with snap := snapAfter s d, dev := d } := by
  refine .of_parts rfl (.inl rfl) ?_
  simp only [snapAfter]
  split
  · exact .inr rfl
  · exact .inl rfl

/-- A row touches a memory and keeps what there is to keep, by its form, or it changes the device alone. -/
theorem exec_forms (i : Instr) (s : State) : (touchesMemory i = true ∧ Keeps s (exec i s)) ∨ ∃ d, Moves i s d := by
  cases i
  case hstBootCtrlReset | hstBootCtrlLoader | hstIntStatusWrite | hstIntForceWrite | hstLinkErrsRead | hstDtLoRead |
    hstTickLoRead | qSizeWrite | qCtrlWrite | qDoorbellWrite | ringWindowWrite => exact .inl ⟨rfl, keeps_linked s _⟩
  case registerWrite | readTransaction => exact .inl ⟨rfl, .cond (keeps_linked s _) (keeps_quiet _ s)⟩
  case paramWrite | paramWritePaired | paramWriteBlob | evtFetch | liftRotDownlink | liftRotUplink | ctlComputeDone |
    rosterHeartbeat | rosterData | busReferenceReceived | timeInfoReceived | busTxTake | busTxDone | busErrorDetected |
    transceiverDown | busModeApply | busIdleParamApply | busTxFlush | gnssEpoch | navUnitComplete | sampleCountCheck |
    gsclkGap | snapProcessDone | hltLogRead | lotRecordSigned | idEnrol | idRecordFetch =>
    exact .inl ⟨rfl, keeps_loud _ s⟩
  case liftApply => exact .inl ⟨rfl, .cond (keeps_loud _ s) (keeps_quiet _ s)⟩
  case tickEdge | busFrameReceived | rmbRequestSegment | startUp | liftStartTimeout | fieldDieStartUp | wakeAttemptFail |
    coreBrownoutLowPower | wake | logicStepEnd | flashOperationDone => exact .inl ⟨rfl, keeps_taking _ s⟩
  case powerOnReset => exact .inl ⟨rfl, keeps_losing _ s⟩
  case chaletContentLoss | controlDieShutdown => exact .inl ⟨rfl, .cond (keeps_losing _ s) (keeps_quiet _ s)⟩
  case nrstRelease | logicStepBegin | lockstepMismatch | supervisorHeartbeatMiss =>
    exact .inl ⟨rfl, .cond (keeps_losingSnap _ (.refl s)) (keeps_quiet _ s)⟩
  case coreBrownoutFull => exact .inl ⟨rfl, .cond (keeps_quiet _ s) (keeps_losingSnap _ (.refl s))⟩
  case housekeepingRound => exact .inl ⟨rfl, .cond (keeps_losingSnap _ (.refl s)) (keeps_taking _ s)⟩
  case startGateAdmit =>
    exact .inl ⟨rfl, .cond (keeps_losingSnap _ (Kept.quiet admitOne s).settled) (keeps_taking _ s)⟩
  case snapCaptureEnd => exact .inl ⟨rfl, keeps_snapCaptureEnd _ _ _ s⟩
  case sleepReq => exact .inl ⟨rfl, _, rfl, kept_snapAfter s _⟩
  case domainReturnTimeout n back => exact .inl ⟨rfl, _, rfl, (kept_snapAfter s (domainTimeout n back s.dev)).taken⟩
  all_goals exact .inr ⟨_, rfl⟩

/-- Every row answers a next state, with the queue of commands as it was and the memories in canonical form where they
were. -/
theorem exec_keeps (i : Instr) (s : State) : Keeps s (exec i s) := by
  rcases exec_forms i s with ⟨-, hkeeps⟩ | ⟨d, hd⟩
  · exact hkeeps
  · exact ⟨_, hd, .quiet (fun _ => d) s⟩

theorem moves_of_untouched {i : Instr} (h : touchesMemory i = false) (s : State) : ∃ d, Moves i s d := by
  rcases exec_forms i s with ⟨htouches, -⟩ | hmoves
  · simp [h] at htouches
  · exact hmoves

/-! ## The step -/

theorem step_empty {s : State} (h : s.pending = []) : step s = .next s := by
  rw [step, h]

theorem step_front {s : State} {c : Instr} {rest : List Instr} (h : s.pending = c :: rest) :
    step s = exec c { s with pending := rest } := by
  rw [step, h]

end Sys2Proof.Machine

namespace Sys2Proof

open Machine

/-- Settles O1, by the two branches of a step. -/
theorem stepRunsFrontOrIdles : Obligations.StepRunsFrontOrIdles :=
  ⟨fun _ _ _ => step_front, fun _ => step_empty⟩

/-- Settles O3: a step idles or runs a row, and every row keeps the canonical form. -/
theorem memoryStaysCanonical : Obligations.MemoryStaysCanonical := by
  intro s t hs hstep
  cases hq : s.pending with
  | nil =>
    rw [step_empty hq] at hstep
    injection hstep with hst
    exact hst ▸ hs
  | cons c rest =>
    obtain ⟨u, hu, hkept⟩ := exec_keeps c { s with pending := rest }
    rw [step_front hq, hu] at hstep
    injection hstep with hut
    exact hut ▸ hkept.memOk hs

/-- Settles O4: what every row keeps, and that a row that touches no memory changes the device alone. -/
theorem everyCommandCompletes : Obligations.EveryCommandCompletes := by
  intro i s
  obtain ⟨t, ht, hkept⟩ := exec_keeps i s
  refine ⟨t, ht, hkept.pending, fun h => ?_⟩
  obtain ⟨d, hd⟩ := moves_of_untouched h s
  rw [Moves, ht] at hd
  injection hd with hstate
  subst hstate
  exact ⟨rfl, rfl⟩

end Sys2Proof
end

section
/-!
Satellite timing: the gain check, acquisition, epochs, navigation units, dropped bands, device time, the time pulse, the samples
and the snapshot captures (R441, R446-R474, R479).
-/
namespace Sys2Proof.Machine

/-! ## The completion of a command by its id leaves what no completion changes -/

section
variable {β : Type} (g : Dev → β)

theorem completeId_keeps (h : ∀ c st dl x d, g (complete c st dl x d) = g d) (id : CmdId) (st dl : Nat) (x : List Byte)
    (d : Dev) : g (completeId id st dl x d) = g d := by
  simp only [completeId]
  repeat' split
  · rfl
  · rfl
  · exact h _ _ _ _ _

end

section
variable (id : CmdId) (st dl : Nat) (x : List Byte) (d : Dev)

@[simp] theorem completeId_gns : (completeId id st dl x d).gns = d.gns := completeId_keeps (·.gns) (fun _ _ _ _ _ => rfl) ..
@[simp] theorem completeId_time : (completeId id st dl x d).time = d.time :=
  completeId_keeps (·.time) (fun _ _ _ _ _ => rfl) ..
@[simp] theorem completeId_params : (completeId id st dl x d).cmd.params = d.cmd.params :=
  completeId_keeps (·.cmd.params) (fun _ _ _ _ _ => rfl) ..

end

/-- The value of a parameter in force hangs on the store of parameters alone. -/
theorem pget_congr {d e : Dev} (h : e.cmd.params = d.cmd.params) (key inst : Nat) : pget e key inst = pget d key inst := by
  simp only [pget, pw, pwords, h]

theorem pgetI_congr {d e : Dev} (h : e.cmd.params = d.cmd.params) (key inst : Nat) : pgetI e key inst = pgetI d key inst := by
  simp only [pgetI, pw, pwords, h]

/-! ## The gain check (R447) -/

/-- The device with the mark of a band whose fraction is out of its range. -/
def agcMarked (b : Fin 2) (v : Bool) (d : Dev) : Dev := { d with gns := { d.gns with agcOut := d.gns.agcOut.set b v } }

section
variable {b : Fin 2} {codes : Vector Nat 4} {d : Dev}

theorem agcCheck_idle (h : gnsSamples d = false) : agcCheck b codes d = d :=
  if_neg (by simp [h])

section
variable (hs : gnsSamples d = true)
include hs

theorem agcCheck_eq {pct : Nat} (hp : magPct (pget d kGnsIfFmt 0) codes = pct) {out : Bool}
    (ho : (decide (pct < 15) || decide (50 < pct)) = out) :
    agcCheck b codes d = when (out && !d.gns.agcOut.get b) (gnsRaise 0x8005 (le 1 b ++ le 1 pct)) (agcMarked b out d) := by
  subst hp ho
  exact if_pos hs

theorem agcCheck_enters (h : magPct (pget d kGnsIfFmt 0) codes < 15 ∨ 50 < magPct (pget d kGnsIfFmt 0) codes)
    (hw : d.gns.agcOut.get b = false) : agcCheck b codes d =
      raise 3 0x8005 (subPath 8) (le 1 b ++ le 1 (magPct (pget d kGnsIfFmt 0) codes)) (agcMarked b true d) := by
  rw [agcCheck_eq hs rfl (out := true) (by simpa using h), hw]
  rfl

theorem agcCheck_stays (h : magPct (pget d kGnsIfFmt 0) codes < 15 ∨ 50 < magPct (pget d kGnsIfFmt 0) codes)
    (hw : d.gns.agcOut.get b = true) : agcCheck b codes d = agcMarked b true d := by
  rw [agcCheck_eq hs rfl (out := true) (by simpa using h), hw]
  rfl

theorem agcCheck_inside (hlo : 15 ≤ magPct (pget d kGnsIfFmt 0) codes) (hhi : magPct (pget d kGnsIfFmt 0) codes ≤ 50) :
    agcCheck b codes d = agcMarked b false d := by
  rw [agcCheck_eq hs rfl (out := false) (by simp [Nat.not_lt.2 hlo, Nat.not_lt.2 hhi])]
  rfl

end

end

/-! ## Acquisition and dropped bands (R449) -/

/-- The first free channel, as it is looked for. -/
theorem freeChannel_first {d : Dev} {n : Fin 32} (hn : (d.gns.chans.get n).used = false)
    (hm : ∀ m, m < n → (d.gns.chans.get m).used = true) :
    (List.finRange 32).find? (fun n => !(d.gns.chans.get n).used) = some n := by
  rw [List.find?_eq_some_iff_getElem]
  refine ⟨by simp [hn], n.val, by simp, by simp, fun j hj => ?_⟩
  have hj' : j < 32 := by omega
  simpa using hm ⟨j, hj'⟩ hj

section
variable {sys : Fin 3} {sv : Fin 64} {elev : Option Nat} {bands : Fin 4} {d : Dev} {n : Fin 32}

theorem acquire_idle (h : gnsTracks d = false) : acquire sys sv elev bands d = d := by
  simp only [acquire, h]
  split <;> simp

theorem acquire_follows (ht : gnsTracks d = true) (hsys : bitOf (pget d kGnsSystems 0) sys = true) (hsv : sv ≠ 0)
    (hhigh : ∀ e, elev = some e → pget d kGnsElevMask 0 ≤ e)
    (hnew : ∀ p ∈ gnsUsed d, p.2.system ≠ sys.val ∨ p.2.sv ≠ sv.val) (hb : bands.val &&& pget d kGnsBands 0 ≠ 0)
    (hroom : (gnsUsed d).length < chLimit d) (hn : (d.gns.chans.get n).used = false)
    (hm : ∀ m, m < n → (d.gns.chans.get m).used = true) :
    acquire sys sv elev bands d = gchMod n (fun _ => { GnsCh.reset with
      used := true, system := sys, sv := sv, elev := elev, bands := bands.val &&& pget d kGnsBands 0 }) d := by
  have hknown : ((gnsUsed d).any fun p => p.2.system == sys.val && p.2.sv == sv.val) = false := by
    simpa [List.any_eq_false, ← Decidable.not_and_iff_not_or_not] using hnew
  simp only [acquire, freeChannel_first hn hm]
  refine if_pos ?_
  simp only [Bool.and_eq_true, bne_iff_ne, decide_eq_true_eq, Bool.not_eq_true']
  refine ⟨⟨⟨⟨⟨⟨ht, hsys⟩, hsv⟩, ?high⟩, hknown⟩, hb⟩, hroom⟩
  case high =>
    cases elev with
    | none => rfl
    | some e => exact decide_eq_true (hhigh e rfl)

end

/-- A channel that follows a band as its only one, or both, follows it, and in the second case another is left. -/
theorem band_followed (b : Fin 2) : bitOf (2 ^ b.val) b = true ∧ bitOf 3 b = true ∧ 3 - 2 ^ b.val ≠ 0 := by
  revert b
  decide

section
variable {n : Fin 32} {b : Fin 2} {d : Dev}

theorem bandDrop_stays (h : (d.gns.chans.get n).used = false ∨ bitOf (d.gns.chans.get n).bands b = false ∨
    ((d.gns.chans.get n).lock.get b).weak < 10000) : bandDrop n b d = d := by
  refine if_neg fun hdrops => ?_
  simp only [Bool.and_eq_true, decide_eq_true_eq] at hdrops
  obtain ⟨⟨hused, hband⟩, hweak⟩ := hdrops
  rcases h with h | h | h
  · simp [hused] at h
  · simp [hband] at h
  · omega

section
variable (hu : (d.gns.chans.get n).used = true) (hw : 10000 ≤ ((d.gns.chans.get n).lock.get b).weak)
include hu hw

theorem bandDrop_last (h : (d.gns.chans.get n).bands = 2 ^ b.val) : bandDrop n b d = gchMod n (fun _ => GnsCh.reset) d := by
  simp [bandDrop, hu, hw, h, band_followed b, chRelease]

theorem bandDrop_other (h : (d.gns.chans.get n).bands = 3) :
    bandDrop n b d = gchMod n (fun c => { bandUnlock b c with bands := 3 - 2 ^ b.val }) d := by
  simp [bandDrop, hu, hw, h, band_followed b]

end

end

/-! ## Lock (R452) -/

section
variable (x : GnsLock) (e : Int) (g : Nat)

theorem lockStep_code : (lockStep x (e, g)).code = if e.natAbs ≤ 100 then x.code + 1 else 0 := rfl

theorem lockStep_carrier : (lockStep x (e, g)).carrier = if 800 < g then x.carrier + 1 else 0 := rfl

end

/-! ## Navigation units (R455) -/

/-- Two loops that agree on the states they pass through are one. -/
theorem forEach_congr {α : Type} {f g : α → Dev → Dev} (P : Dev → Prop) (hfg : ∀ x d, P d → f x d = g x d)
    (hP : ∀ x d, P d → P (g x d)) (xs : List α) {d : Dev} (h : P d) : forEach xs f d = forEach xs g d := by
  induction xs generalizing d with
  | nil => rfl
  | cons x xs ih =>
    show forEach xs f (f x d) = forEach xs g (g x d)
    rw [hfg x d h]
    exact ih (hP x d h)

/-- A loop whose rounds leave the device as it is does so too. -/
theorem forEach_stays {α : Type} (f : α → Dev → Dev) {d : Dev} (h : ∀ x, f x d = d) (xs : List α) : forEach xs f d = d := by
  induction xs with
  | nil => rfl
  | cons x xs ih =>
    show forEach xs f (f x d) = d
    rw [h x, ih]

section
variable {bit : Nat} {d : Dev} (b : List Byte)

theorem q10Put_on (h : bitOf (pget d kGnsOut 0) bit = true) : q10Put bit b d = emit (.push 10 b) d := if_pos h

theorem q10Put_off (h : bitOf (pget d kGnsOut 0) bit = false) : q10Put bit b d = d := if_neg (by simp [h])

@[simp] theorem q10Put_gns (bit : Nat) (d : Dev) : (q10Put bit b d).gns = d.gns := by
  simp only [q10Put]
  split <;> rfl

@[simp] theorem q10Put_time (bit : Nat) (d : Dev) : (q10Put bit b d).time = d.time := by
  simp only [q10Put]
  split <;> rfl

end

/-- The device with other ring writes asked for. -/
def Emitted (d e : Dev) : Prop := ∃ ws, e = { d with out := ws }

section
variable {u : NavUnit} {d : Dev}

theorem navUnit_idle (h : gnsTracks d = false ∨ (d.gns.chans.get u.ch).used = false) : navUnit u d = d :=
  if_neg (by rcases h with h | h <;> simp [h])

/-- Without their bit in `GNS_OUT` the fragments write nothing. -/
theorem navUnit_off (h : bitOf (pget d kGnsOut 0) 1 = false) : navUnit u d = d := by
  simp only [navUnit]
  split
  · refine forEach_stays _ (fun p => ?_) _
    exact q10Put_off _ h
  · rfl

/-- The fragments go out one after the other, each with what the device held at first. -/
theorem navUnit_writes (ht : gnsTracks d = true) (hu : (d.gns.chans.get u.ch).used = true)
    (hb : bitOf (pget d kGnsOut 0) 1 = true) :
    navUnit u d = forEach (navFragments u) (fun p e => emit (.push 10
      (q10 d 2 u.ch (d.gns.chans.get u.ch).system (d.gns.chans.get u.ch).sv u.signal d.gns.steps u.dt (timeWord d) p)) e)
      d := by
  refine (if_pos (by simp [ht, hu])).trans (forEach_congr (Emitted d) ?_ ?_ _ ⟨d.out, rfl⟩)
  · rintro p e ⟨ws, rfl⟩
    exact q10Put_on _ hb
  · rintro p e ⟨ws, rfl⟩
    exact ⟨_, rfl⟩

end

/-! ## Measurement epochs (R453, R457-R461) -/

/-- The device with other tracking channels and other events that wait. -/
def ChansMoved (d e : Dev) : Prop :=
  ∃ gate chans, e = { d with gate := gate, gns := { d.gns with chans := chans } }

theorem ChansMoved.refl (d : Dev) : ChansMoved d d := ⟨d.gate, d.gns.chans, rfl⟩

theorem ChansMoved.trans {d e f : Dev} (h : ChansMoved d e) (h' : ChansMoved e f) : ChansMoved d f := by
  obtain ⟨_, _, rfl⟩ := h
  obtain ⟨_, _, rfl⟩ := h'
  exact ⟨_, _, rfl⟩

theorem ChansMoved.raise (p : Fin 8) (code path : Nat) (x : List Byte) (d : Dev) :
    ChansMoved d (raise p code path x d) := ⟨_, _, rfl⟩

theorem ChansMoved.gch (n : Fin 32) (f : GnsCh → GnsCh) (d : Dev) : ChansMoved d (gchMod n f d) := ⟨_, _, rfl⟩

theorem ChansMoved.loop {α : Type} {f : α → Dev → Dev} (h : ∀ x d, ChansMoved d (f x d)) (xs : List α) (d : Dev) :
    ChansMoved d (forEach xs f d) := by
  induction xs generalizing d with
  | nil => exact .refl d
  | cons x xs ih => exact (h x d).trans (ih _)

theorem ChansMoved.same {d e : Dev} (h : ChansMoved d e) :
    e.gns.tq = d.gns.tq ∧ e.gns.good = d.gns.good ∧ e.time = d.time ∧ e.cmd.params = d.cmd.params := by
  obtain ⟨_, _, rfl⟩ := h
  exact ⟨rfl, rfl, rfl, rfl⟩

theorem capRelease_chans (d : Dev) : ChansMoved d (capRelease d) := by
  simp only [capRelease]
  split
  · exact .loop (fun (c : Fin 32 × GnsCh) e => .gch c.1 _ e) _ d
  · exact .refl d

theorem measTake_chans (m : GnsMeas) (d : Dev) : ChansMoved d (measTake m d) := by
  have hch := ChansMoved.gch m.ch
  simp only [measTake, when]
  split
  · exact (hch _ d).trans (.raise ..)
  · exact hch _ d

/-- The device with another position or survey, and other events that wait. -/
def PosMoved (d e : Dev) : Prop :=
  ∃ gate p sg m sv hd, e = { d with gate := gate, gns := { d.gns with
    pos := p, posSigma := sg, posMode := m, survey := sv, held := hd } }

theorem posUpdate_pos (x : GnsSol) (d : Dev) : PosMoved d (posUpdate x d) := by
  simp only [posUpdate]
  repeat' split
  all_goals exact ⟨_, _, _, _, _, _, rfl⟩

/-! ### Time quality, steering and steps (R439, R461-R464) -/

section
variable (n : Nat) (d : Dev)

@[simp] theorem tqMove_gns : (tqMove n d).gns = { d.gns with tq := n } := by
  simp only [tqMove]
  split
  · next h => rw [← h]
  · rfl

@[simp] theorem tqMove_time : (tqMove n d).time = d.time := by
  simp only [tqMove]
  split <;> rfl

@[simp] theorem tqMove_params : (tqMove n d).cmd.params = d.cmd.params := by
  simp only [tqMove]
  split <;> rfl

@[simp] theorem dropDue_gns : (dropDue d).gns = { d.gns with due := none, dueCmd := none } := by
  simp only [dropDue]
  split
  · simp
  · rfl

@[simp] theorem dropDue_time : (dropDue d).time = d.time := by
  simp only [dropDue]
  split
  · simp
  · rfl

@[simp] theorem dropDue_params : (dropDue d).cmd.params = d.cmd.params := by
  simp only [dropDue]
  split
  · simp [gnsMod]
  · rfl

end

section
variable (x : GnsSol) (at_ : Int) (d : Dev)

@[simp] theorem stepPlan_time : (stepPlan x at_ d).time = d.time := by
  simp only [stepPlan]
  split <;> simp

theorem stepPlan_gns : ∃ due cause, (stepPlan x at_ d).gns = { d.gns with due := due, dueCmd := none, dueCause := cause } := by
  simp only [stepPlan]
  split
  · exact ⟨_, _, by rw [gnsMod_gns, dropDue_gns]⟩
  · exact ⟨_, _, dropDue_gns d⟩

theorem steerCorr_congr {e : Dev} (h : e.cmd.params = d.cmd.params) : steerCorr e x = steerCorr d x := by
  simp only [steerCorr, pget_congr h]

/-- A solution's effect on DT leaves what it has left besides. -/
theorem solApply_keeps : (solApply x at_ d).gns.solved = d.gns.solved ∧ (solApply x at_ d).gns.sats = d.gns.sats ∧
    (solApply x at_ d).gns.lastValid = d.gns.lastValid := by
  simp only [solApply]
  split
  · exact ⟨rfl, rfl, rfl⟩
  · obtain ⟨due, cause, hplan⟩ := stepPlan_gns x at_ _
    rw [hplan]
    simp [setSteer]

/-- Every solution but the first five of TQ1 steers. -/
theorem solApply_steers (h : d.gns.tq ≠ 1 ∨ 5 ≤ d.gns.good) :
    (solApply x at_ d).time.steer = x.freq + steerCorr d x := by
  have hfirst : ¬(d.gns.tq == 1 && decide (d.gns.good < 5)) = true := by
    simp only [Bool.and_eq_true, beq_iff_eq, decide_eq_true_eq]
    omega
  simp only [solApply, if_neg hfirst, stepPlan_time, setSteer]
  rw [steerCorr_congr x d]
  simp

end

section
variable {d : Dev} {x : GnsSol}

/-- A valid solution is recorded. -/
theorem solTake_records : (solTake x d).gns.solved = true ∧ (solTake x d).gns.sats = x.sats ∧
    (solTake x d).gns.lastValid = d.time.tick ∧ (solTake x d).gns.tq = d.gns.tq ∧
    (solTake x d).gns.good = d.gns.good + 1 ∧ (solTake x d).cmd.params = d.cmd.params := by
  obtain ⟨_, _, _, _, _, _, h⟩ := posUpdate_pos x (gnsMod _ d)
  rw [solTake, h]
  exact ⟨rfl, rfl, rfl, rfl, rfl, rfl⟩

/-- Whether a solution is valid hangs neither on its e nor on the channels. -/
theorem solValid_chans {e : Dev} (h : ChansMoved d e) (y : Dev) :
    solValid e (antDelay y (timeRef y x)) = solValid d x := by
  obtain ⟨_, _, rfl⟩ := h
  rfl

end

/-- What an epoch makes of its solution: a valid one is recorded and acts on DT, without one the count of good ones ends. -/
def epochSolved (valid : Option GnsSol) (at_ : Int) (d : Dev) : Dev :=
  match valid with
  | some x => solApply x at_ (solTake x d)
  | none => gnsMod (fun g => { g with good := 0, sats := 0 }) d

/-- The solution of an epoch where it is valid, with the delay and the time system that the parameters name. -/
def epochValid (d : Dev) (sol : Option GnsSol) : Option GnsSol :=
  (sol.map fun x => antDelay d (timeRef d x)).filter (solValid d)

section
variable {k : Nat} {meas : List GnsMeas} {sol : Option GnsSol} {d : Dev}

theorem gnssEpoch_idle (h : gnsTracks (boundary gnsHook (fun w => w.bnd == .gnsEpoch) d) = false) :
    gnssEpoch k meas sol d = boundary gnsHook (fun w => w.bnd == .gnsEpoch) d :=
  if_neg (by simp [h])

/-- An epoch takes its measurements, then its solution, and writes records. -/
theorem gnssEpoch_forms {d0 : Dev} (h0 : boundary gnsHook (fun w => w.bnd == .gnsEpoch) d = d0) (h : gnsTracks d0 = true) :
    ∃ e at_, ChansMoved d0 e ∧ (gnssEpoch k meas sol d).gns = (epochSolved (epochValid d0 sol) at_ e).gns ∧
      (gnssEpoch k meas sol d).time = (epochSolved (epochValid d0 sol) at_ e).time := by
  subst h0
  unfold gnssEpoch
  extract_lets epoch d0 e1 ms steps time e2 ms' e3 sol' e4 valid e5 e6
  have h3 : ChansMoved d0 e3 := ((capRelease_chans d0).trans ⟨_, _, rfl⟩).trans (.loop measTake_chans ms' e2)
  have hsol : sol' = sol.map fun x => antDelay d0 (timeRef d0 x) := by
    obtain ⟨_, _, h3⟩ := h3
    simp only [sol', h3]
    rfl
  have h4 : ChansMoved d0 e4 := by
    cases sol with
    | none => exact h3
    | some x => exact h3.trans (.loop (fun _ e => .raise 3 _ _ _ e) _ e3)
  have hvalid : valid = epochValid d0 sol := by
    simp only [valid, hsol, epochValid]
    cases sol with
    | none => rfl
    | some x =>
      simp only [Option.map_some, Option.filter_some, solValid_chans h4, solValid_chans (.refl d0)]
  have h5 : e5 = epochSolved (epochValid d0 sol) (epoch * 1000000) e4 := by
    simp only [e5, hvalid]
    cases epochValid d0 sol <;> rfl
  have hgns : e6.gns = e5.gns := forEach_keeps (fun d => d.gns) (fun m d => q10Put_gns _ _ d) ms' e5
  have htime : e6.time = e5.time := forEach_keeps (fun d => d.time) (fun m d => q10Put_time _ _ d) ms' e5
  rw [if_pos h, q10Put_gns, q10Put_time, hgns, htime, h5]
  exact ⟨e4, _, h4, rfl, rfl⟩

/-- A valid solution is recorded, and steers unless it is among the first five of TQ1. -/
theorem gnssEpoch_solves {x : GnsSol} {d0 : Dev} (h0 : boundary gnsHook (fun w => w.bnd == .gnsEpoch) d = d0)
    (h : gnsTracks d0 = true) (hv : solValid d0 x = true) :
    let e := gnssEpoch k meas (some x) d
    e.gns.solved = true ∧ e.gns.sats = x.sats ∧ e.gns.lastValid = d0.time.tick ∧
      (d0.gns.tq ≠ 1 ∨ 4 ≤ d0.gns.good → e.time.steer = x.freq + steerCorr d0 (antDelay d0 (timeRef d0 x))) := by
  intro e
  obtain ⟨f, at_, hf, hgns, htime⟩ := gnssEpoch_forms (k := k) (meas := meas) (sol := some x) h0 h
  have hvalid : epochValid d0 (some x) = some (antDelay d0 (timeRef d0 x)) := by
    simp only [epochValid, Option.map_some, Option.filter_some, solValid_chans (.refl d0), hv, if_true]
  simp only [hvalid, epochSolved] at hgns htime
  obtain ⟨ftq, fgood, ftime, fparams⟩ := hf.same
  obtain ⟨hsolved, hsats, hlast, htq, hgood, hparams⟩ := solTake_records (d := f) (x := antDelay d0 (timeRef d0 x))
  obtain ⟨ksolved, ksats, klast⟩ := solApply_keeps (antDelay d0 (timeRef d0 x)) at_ (solTake (antDelay d0 (timeRef d0 x)) f)
  refine ⟨by rw [hgns, ksolved, hsolved], ?_, by rw [hgns, klast, hlast, ftime], fun hfirst => ?_⟩
  · rw [hgns, ksats, hsats]
    rfl
  · rw [htime, solApply_steers _ _ _ (by rw [htq, hgood, ftq, fgood]; omega), steerCorr_congr _ _ (hparams.trans fparams)]
    rfl

/-- Without a valid solution DT goes on as it was. -/
theorem gnssEpoch_unsolved {d0 : Dev} (h0 : boundary gnsHook (fun w => w.bnd == .gnsEpoch) d = d0)
    (h : gnsTracks d0 = true) (hv : ∀ x, sol = some x → solValid d0 x = false) :
    let e := gnssEpoch k meas sol d
    e.gns.good = 0 ∧ e.gns.sats = 0 ∧ e.time = d0.time := by
  intro e
  obtain ⟨f, at_, hf, hgns, htime⟩ := gnssEpoch_forms (k := k) (meas := meas) (sol := sol) h0 h
  have hvalid : epochValid d0 sol = none := by
    cases sol with
    | none => rfl
    | some x =>
      simp [epochValid, Option.filter_some, solValid_chans (.refl d0), hv x rfl]
  simp only [hvalid, epochSolved] at hgns htime
  obtain ⟨-, -, ftime, -⟩ := hf.same
  rw [hgns, htime]
  exact ⟨rfl, rfl, ftime⟩

end

/-! ## Time quality and holdover (R464-R466) -/

section
variable {d : Dev}

theorem toHoldover_stays (h : d.gns.tq < 2) : toHoldover d = d :=
  if_neg (Nat.not_le.2 h)

/-- TQ1 begins with the temperature of its moment, and the model's steering. -/
theorem toHoldover_enters (h : 2 ≤ d.gns.tq) : (toHoldover d).gns.tq = 1 ∧
    (toHoldover d).time.steer = modelSteer { d with gns := { d.gns with theta0 := hoTemp d } }
      (d.time.tick - d.gns.lastValid) := by
  rw [toHoldover, if_pos h, tqMove_gns, tqMove_time]
  exact ⟨rfl, rfl⟩

theorem solutionTimeout_holds (h : 3000 ≤ d.time.tick - d.gns.lastValid) : solutionTimeout d = toHoldover d :=
  if_pos h

section
variable (hv : d.time.tick - d.gns.lastValid < 3000)
include hv

theorem solutionTimeout_single (h : d.gns.tq = 3) (hd : 3000 ≤ d.time.tick - d.gns.lastDual) :
    solutionTimeout d = tqMove 2 d :=
  (if_neg (Nat.not_le.2 hv)).trans (if_pos ⟨h, hd⟩)

theorem solutionTimeout_stays (h : d.gns.tq = 3 → d.time.tick - d.gns.lastDual < 3000) : solutionTimeout d = d :=
  (if_neg (Nat.not_le.2 hv)).trans (if_neg fun hdual => Nat.not_le.2 (h hdual.1) hdual.2)

end

/-- Below TQ2 no solution can be missing. -/
theorem solutionTimeout_low (h : d.gns.tq < 2) : solutionTimeout d = d := by
  by_cases hv : 3000 ≤ d.time.tick - d.gns.lastValid
  · rw [solutionTimeout_holds hv, toHoldover_stays h]
  · exact solutionTimeout_stays (Nat.not_le.1 hv) fun h3 => by omega

theorem holdoverUpdate_stays (h : d.gns.tq ≠ 1) : holdoverUpdate d = d := if_neg h

theorem holdoverUpdate_models (h : d.gns.tq = 1) :
    (holdoverUpdate d).gns.unc = some (holdoverUnc (holdoverUpdate d).gns (d.time.tick - d.gns.lastValid)) ∧
      (holdoverUpdate d).time.steer = modelSteer d (d.time.tick - d.gns.lastValid) := by
  rw [holdoverUpdate, if_pos h]
  exact ⟨rfl, rfl⟩

/-! ## Steps (R462, R469) -/

theorem dtStep_none (h : d.gns.due = none) : dtStep d = d := by
  rw [dtStep, h]

@[simp] theorem busDtStep_gns (old new : Int) (ch : Fin 2) (d : Dev) : (busDtStep old new ch d).gns = d.gns := by
  simp only [busDtStep]
  split <;> rfl

@[simp] theorem busDtStep_time (old new : Int) (ch : Fin 2) (d : Dev) : (busDtStep old new ch d).time = d.time := by
  simp only [busDtStep]
  split <;> rfl

section
variable {sec chg : Int} (hd : d.gns.due = some (sec, chg))
include hd

theorem dtStep_early (h : d.time.nextDt ≤ sec) : dtStep d = d := by
  rw [dtStep, hd]
  exact if_neg (Int.not_lt.2 h)

/-- A step that is due moves DT and the next edge by its change, and is then no longer due. -/
theorem dtStep_steps (h : sec < d.time.nextDt) :
    (dtStep d).time = { d.time with dtFs := max d.time.dtFs sec + chg, nextDt := d.time.nextDt + chg } ∧
      (dtStep d).gns.due = none ∧ (dtStep d).gns.steps = d.gns.steps + 1 ∧ (dtStep d).gns.slewing = false := by
  have hmax : (if d.time.dtFs < sec then sec else d.time.dtFs) = max d.time.dtFs sec := by
    rw [Int.max_def]
    split <;> split <;> omega
  simp only [dtStep, hd, if_pos h, hmax]
  split
  · simp only [completeId_gns, completeId_time, busDtStep_gns, busDtStep_time]
    exact ⟨rfl, rfl, rfl, rfl⟩
  · simp only [busDtStep_gns, busDtStep_time]
    exact ⟨rfl, rfl, rfl, rfl⟩

end

/-! ## The time pulse (R468, R469) -/

section
variable {k : Nat}

theorem timePulse_off (h : pget d kGnsPulseHz 0 = 0) : timePulse k d = d := if_pos h

/-- The moment of a pulse, as DT in fs. -/
def pulseMoment (k : Nat) (d : Dev) : Int := (k : Int) * (fsPerS / pget d kGnsPulseHz 0) + pgetI d kGnsPulseOfs 0 * 100000

section
variable (h0 : pget d kGnsPulseHz 0 ≠ 0)
include h0

theorem timePulse_onStep {chg : Int} (h : d.gns.due = some (pulseMoment k d, chg)) : timePulse k d = d := by
  simp only [timePulse, if_neg h0, h, pulseMoment]
  simp

theorem timePulse_taken (hd : d.gns.due = none) (hl : d.gns.lastPulse = none) {e : Dev}
    (he : boundary gnsHook (fun w => w.bnd == .pulse) d = e) : timePulse k d =
      if e.gns.tq < pget e kGnsPulseMinTq 0 then e
      else { e with gns := { e.gns with
        pulses := e.gns.pulses + 1, lastPulse := some (pulseMoment k d)
        pulseEnd := pulseMoment k d + pget e kGnsPulseWidthUs 0 * 1000000000
        pulseLow := pget e kGnsPulsePol 0 == 1 } } := by
  subst he
  simp only [timePulse, if_neg h0, hd, hl]
  rfl

end

end

/-! ## The samples (R446) -/

section
variable {b : Fin 2} {n : Nat}

theorem sampleCount_idle (h : gnsSamples d = false) : sampleCount b n d = d := if_pos (by simp [h])

theorem gsclkGap_idle (h : gnsSamples d = false) : gsclkGap b d = d := if_neg (by simp [h])

section
variable (hs : gnsSamples d = true)
include hs

theorem gsclkGap_loses : gsclkGap b d = bandLost b d := if_pos hs

theorem sampleCount_loses (h : n < 39996 ∨ 40004 < n) : sampleCount b n d = bandLost b d :=
  (if_neg (by simp [hs])).trans (if_pos (by simpa using h))

section
variable (hlo : 39996 ≤ n) (hhi : n ≤ 40004)
include hlo hhi

theorem sampleCount_good : sampleCount b n d =
    if d.gns.lost.get b then
      if d.gns.goodCounts.get b + 1 = 10 then
        gnsRaise 0x8004 (le 1 b ++ le 1 1)
          (gnsMod (fun g => { g with lost := g.lost.set b false, goodCounts := g.goodCounts.set b 0 }) d)
      else gnsMod (fun g => { g with goodCounts := g.goodCounts.set b (d.gns.goodCounts.get b + 1) }) d
    else d :=
  (if_neg (by simp [hs])).trans (if_neg (by simp [Nat.not_lt.2 hlo, Nat.not_lt.2 hhi]))

theorem sampleCount_there (h : d.gns.lost.get b = false) : sampleCount b n d = d := by
  rw [sampleCount_good hs hlo hhi, h]
  rfl

theorem sampleCount_counts (h : d.gns.lost.get b = true) (h9 : d.gns.goodCounts.get b ≠ 9) :
    sampleCount b n d = { d with gns := { d.gns with goodCounts := d.gns.goodCounts.set b (d.gns.goodCounts.get b + 1) } } := by
  rw [sampleCount_good hs hlo hhi, if_pos h, if_neg (by omega)]
  rfl

theorem sampleCount_returns (h : d.gns.lost.get b = true) (h9 : d.gns.goodCounts.get b = 9) :
    sampleCount b n d = raise 3 0x8004 (subPath 8) (le 1 b ++ le 1 1) { d with gns := { d.gns with
      lost := d.gns.lost.set b false, goodCounts := d.gns.goodCounts.set b 0 } } := by
  rw [sampleCount_good hs hlo hhi, if_pos h, if_pos (by omega)]
  rfl

end

end

/-- A band's lock bit is clear once the band is unlocked. -/
theorem bandUnlock_locked (b : Fin 2) (c : GnsCh) : bitOf (bandUnlock b c).locked b = false := by
  have hb : b = 0 ∨ b = 1 := by omega
  simp only [bandUnlock]
  split
  · next h =>
    simp only [bitOf, Nat.shiftRight_eq_div_pow, beq_iff_eq, beq_eq_false_iff_ne] at h ⊢
    rcases hb with rfl | rfl <;> norm_num at h ⊢ <;> omega
  · next h => simpa using h

/-- The device with other snapshot registers. -/
def SnapMoved (d e : Dev) : Prop := ∃ x, e.gns = { d.gns with snap := x }

theorem snapFlush_snap (d : Dev) : SnapMoved d (snapFlush d) := by
  simp only [snapFlush]
  repeat' split
  all_goals exact ⟨_, rfl⟩

theorem snapPut_snap (b : List Byte) (next : Nat) (d : Dev) : SnapMoved d (snapPut b next d) := by
  obtain ⟨x, hflush⟩ := snapFlush_snap (snapMod (fun s => { s with desc := some (b, next) }) d)
  exact ⟨x, hflush⟩

theorem snapAbandon_snap (d : Dev) : SnapMoved d (snapAbandon d) := by
  simp only [snapAbandon]
  obtain ⟨x, hput⟩ := snapPut_snap (snapDesc _ 3 0 0) 0 _
  refine ⟨x, hput.trans ?_⟩
  split
  · rw [completeId_gns]
    rfl
  · rfl

/-- A band that is lost counts anew, and from the moment of its loss no channel has lock on it. -/
theorem bandLost_gns (b : Fin 2) (d : Dev) : (bandLost b d).gns.lost.get b = true ∧
    (bandLost b d).gns.goodCounts.get b = 0 ∧
    (d.gns.lost.get b = false → ∀ m, bitOf ((bandLost b d).gns.chans.get m).locked b = false) := by
  by_cases hl : d.gns.lost.get b = true
  · rw [bandLost, if_pos hl]
    exact ⟨hl, vSet_get_same _ _ _, fun h => by simp [hl] at h⟩
  · have hsnap : ∃ x, (bandLost b d).gns = { d.gns with
        lost := d.gns.lost.set b true, goodCounts := d.gns.goodCounts.set b 0
        chans := d.gns.chans.map (bandUnlock b), snap := x } := by
      simp only [bandLost, if_neg hl]
      split
      · exact snapAbandon_snap _
      · exact ⟨_, rfl⟩
    obtain ⟨x, hsnap⟩ := hsnap
    rw [hsnap]
    refine ⟨vSet_get_same _ _ _, vSet_get_same _ _ _, fun _ m => ?_⟩
    show bitOf ((d.gns.chans.map (bandUnlock b))[m.val]).locked b = false
    rw [Vector.getElem_map]
    exact bandUnlock_locked b _

end

end

/-! ## Commands of the baseband (R469, R479) -/

section
variable {c : Cmd} {d : Dev}

theorem cmdTimeSet_refused (h : d.gns.tq ≠ 0) : cmdTimeSet c d = complete c stRefused 0x80 [] d := if_pos h

section
variable (h0 : d.gns.tq = 0)
include h0

theorem cmdTimeSet_range (h : field c.payload 8 4 = 0 ∨ 1000000000 < field c.payload 8 4) :
    cmdTimeSet c d = complete c stRange 0 [] d :=
  (if_neg (by simp [h0])).trans (if_pos (by simpa using h))

theorem cmdTimeSet_schedules (h1 : field c.payload 8 4 ≠ 0) (h : field c.payload 8 4 ≤ 1000000000) :
    let e := dropDue d
    cmdTimeSet c d = waitOn c.id { e with gns := { e.gns with
      due := some (stepSecond e e.time.dtFs, (field c.payload 0 8 : Int) * 1000000 - e.time.dtFs)
      dueCause := 1
      dueCmd := some c.id
      dueUnc := field c.payload 8 4 } } :=
  (if_neg (by simp [h0])).trans (if_neg (by simp [h1, Nat.not_lt.2 h]))

end

end

end Sys2Proof.Machine

namespace Sys2Proof

open Machine

/-- Settles O50: the fraction is out of its range or inside (in whole percent, log entry 170), and the mark says whether it was
so before. -/
theorem agcEventOncePerEntry : Obligations.AgcEventOncePerEntry := by
  refine fun s b codes => ⟨fun hs => ⟨fun h hw => ?enters, fun h hw => ?stays, fun hlo hhi => ?inside, fun _ => rfl⟩,
    fun hs => ?idle⟩
  case enters => exact moves_of_quiet (agcCheck b codes) rfl (agcCheck_enters hs h hw)
  case stays => exact moves_of_quiet (agcCheck b codes) rfl (agcCheck_stays hs h hw)
  case inside => exact moves_of_quiet (agcCheck b codes) rfl (agcCheck_inside hs hlo hhi)
  case idle => exact stays_of_quiet (agcCheck b codes) rfl (agcCheck_idle hs)

/-- Settles O52: each row in its branches; an epoch is its measurements, its solution and its records, of which only the second
touches what the statement speaks of. -/
theorem satelliteSignals : Obligations.SatelliteSignals := by
  refine ⟨fun s sys sv elev bands => ⟨fun n ht hsys hsv hhigh hnew hb hroom hn hm => ?follows, fun h => ?idle⟩,
    fun s k ms sol => ⟨fun h => ?epochIdle, fun h => ⟨_, settles_of_loud (gnssEpoch k ms sol) rfl rfl, ?solves,
      gnssEpoch_unsolved rfl h⟩⟩,
    fun s u => ⟨fun ht hu hb => ?writes, fun h => ?silent⟩,
    fun x e g => ⟨fun h => ?code, fun h => ?noCode, fun h => ?carrier, fun h => ?noCarrier⟩,
    fun s n b => ⟨fun hu hw h => ?last, fun hu hw h => ?other, fun h => ?stays⟩⟩
  case follows =>
    exact moves_of_quiet (acquire sys sv elev bands) rfl (acquire_follows ht hsys hsv hhigh hnew hb hroom hn hm)
  case idle => exact stays_of_quiet (acquire sys sv elev bands) rfl (acquire_idle h)
  case epochIdle => exact settles_of_loud (gnssEpoch k ms sol) rfl (gnssEpoch_idle h)
  case solves =>
    rintro x rfl hv
    exact gnssEpoch_solves rfl h hv
  case writes => exact settles_of_loud (navUnit u) rfl (navUnit_writes ht hu hb)
  case silent =>
    refine settles_of_loud (navUnit u) rfl ?_
    rcases h with h | h | h
    · exact navUnit_idle (.inl h)
    · exact navUnit_idle (.inr h)
    · exact navUnit_off h
  case code => rw [lockStep_code, if_pos h]
  case noCode => rw [lockStep_code, if_neg (Nat.not_le.2 h)]
  case carrier => rw [lockStep_carrier, if_pos h]
  case noCarrier => rw [lockStep_carrier, if_neg (Nat.not_lt.2 h)]
  case last => exact moves_of_quiet (bandDrop n b) rfl (bandDrop_last hu hw h)
  case other => exact moves_of_quiet (bandDrop n b) rfl (bandDrop_other hu hw h)
  case stays => exact stays_of_quiet (bandDrop n b) rfl (bandDrop_stays h)

/-- Settles O53: each row in its branches (the temperature of the entry into TQ1 is log entry 103, the end of a replaced step log
entry 23). -/
theorem deviceTimeEvents : Obligations.DeviceTimeEvents := by
  refine fun s => ⟨fun h3 hv hd => ?single, fun h2 hv => ?holdover, fun h => ?timeoutStays, fun h => ?noStep,
    fun sec chg hd h => ?early, fun sec chg hd h => ?steps, fun h => ?models, fun h => ?modelStays, fun ofs dt => ?leap,
    fun k h => ?pulseOff, fun k h0 => ⟨fun ⟨chg, h⟩ => ?onStep, fun hd hl => ⟨fun h => ?below, fun h => ?pulses⟩⟩,
    fun b n hs => ⟨fun h => ?loses, fun hlo hhi h => ?there, fun hlo hhi h h9 => ?counts, fun hlo hhi h h9 => ?returns,
      ?gap⟩,
    fun b n hs => ⟨?countIdle, ?gapIdle⟩,
    fun id c hr => ⟨fun h => ?refused, fun h0 h => ?range, fun h0 h1 h => ?schedules⟩, fun id c hr => ?survey⟩
  case single => exact moves_of_quiet solutionTimeout rfl (solutionTimeout_single hv h3 hd)
  case holdover =>
    obtain ⟨htq, hsteer⟩ := toHoldover_enters h2
    exact ⟨_, moves_of_quiet solutionTimeout rfl (solutionTimeout_holds hv), htq, hsteer⟩
  case timeoutStays =>
    refine stays_of_quiet solutionTimeout rfl ?_
    rcases h with h | ⟨hv, hd⟩
    · exact solutionTimeout_low h
    · exact solutionTimeout_stays hv hd
  case noStep => exact stays_of_quiet dtStep rfl (dtStep_none h)
  case early => exact stays_of_quiet dtStep rfl (dtStep_early hd h)
  case steps => exact ⟨_, moves_of_quiet dtStep rfl rfl, dtStep_steps hd h⟩
  case models => exact ⟨_, moves_of_quiet holdoverUpdate rfl rfl, holdoverUpdate_models h⟩
  case modelStays => exact stays_of_quiet holdoverUpdate rfl (holdoverUpdate_stays h)
  case leap => exact moves_of_quiet (leapSecond ofs dt) rfl rfl
  case pulseOff => exact stays_of_quiet (timePulse k) rfl (timePulse_off h)
  case onStep => exact stays_of_quiet (timePulse k) rfl (timePulse_onStep h0 h)
  case below => exact moves_of_quiet (timePulse k) rfl ((timePulse_taken h0 hd hl rfl).trans (if_pos h))
  case pulses =>
    exact moves_of_quiet (timePulse k) rfl ((timePulse_taken h0 hd hl rfl).trans (if_neg (Nat.not_lt.2 h)))
  case loses => exact settles_of_loud (sampleCount b n) rfl (sampleCount_loses hs h)
  case there => exact settles_of_loud (sampleCount b n) rfl (sampleCount_there hs hlo hhi h)
  case counts => exact settles_of_loud (sampleCount b n) rfl (sampleCount_counts hs hlo hhi h h9)
  case returns => exact settles_of_loud (sampleCount b n) rfl (sampleCount_returns hs hlo hhi h h9)
  case gap => exact ⟨_, settles_of_loud (gsclkGap b) rfl (gsclkGap_loses hs), bandLost_gns b s.dev⟩
  case countIdle => exact settles_of_loud (sampleCount b n) rfl (sampleCount_idle hs)
  case gapIdle => exact settles_of_loud (gsclkGap b) rfl (gsclkGap_idle hs)
  case refused => exact moves_of_ready cmdTimeSet rfl hr (cmdTimeSet_refused h)
  case range => exact moves_of_ready cmdTimeSet rfl hr (cmdTimeSet_range h0 h)
  case schedules => exact moves_of_ready cmdTimeSet rfl hr (cmdTimeSet_schedules h0 h1 h)
  case survey => exact moves_of_ready cmdSurveyRestart rfl hr rfl

end Sys2Proof
end

section
/-!
Snapshot captures: the command, the beginning, the buffer filled, the processing and the release (R470-R474).
-/
namespace Sys2Proof.Machine

/-! ## GNS_SNAP (R470, R472) -/

theorem firstRefusal_here {b : Bool} {x : Refuse} {rest : List (Bool × Refuse)} (h : b = true) :
    firstRefusal ((b, x) :: rest) = some x := if_pos h

theorem firstRefusal_next {b : Bool} {x : Refuse} {rest : List (Bool × Refuse)} (h : b = false) :
    firstRefusal ((b, x) :: rest) = firstRefusal rest := if_neg (by simp [h])

section
variable {p : List Byte} {d : Dev}

/-- The operands of `GNS_SNAP` lie outside their ranges. -/
def snapOutside (p : List Byte) : Bool :=
  2 < byteAt p 0 || 1 < byteAt p 1 || field p 2 2 < 10 || (if byteAt p 0 = 0 then 128 else 256) < field p 2 2 ||
    1 < byteAt p 4

theorem snapOutside_iff : snapOutside p = true ↔ 2 < byteAt p 0 ∨ 1 < byteAt p 1 ∨ field p 2 2 < 10 ∨
    (if byteAt p 0 = 0 then 128 else 256) < field p 2 2 ∨ 1 < byteAt p 4 := by
  simp only [snapOutside, Bool.or_eq_true, decide_eq_true_eq, or_assoc]

/-- The bands that `GNS_SNAP` needs. -/
def snapNeed (p : List Byte) : Nat := if byteAt p 0 = 0 then 3 else byteAt p 0

/-- A band is not enabled or its samples are lost, or the GNSS is off (log entry 104). -/
def snapMissing (p : List Byte) (d : Dev) : Bool :=
  snapNeed p &&& pget d kGnsBands 0 != snapNeed p || pget d kGnsEnable 0 == 0 ||
    (byteAt p 0 != 2 && d.gns.lost.get 0) || (byteAt p 0 != 1 && d.gns.lost.get 1)

theorem snapMissing_iff : snapMissing p d = true ↔ snapNeed p &&& pget d kGnsBands 0 ≠ snapNeed p ∨
    pget d kGnsEnable 0 = 0 ∨ (byteAt p 0 ≠ 2 ∧ d.gns.lost.get 0 = true) ∨
      (byteAt p 0 ≠ 1 ∧ d.gns.lost.get 1 = true) := by
  simp only [snapMissing, Bool.or_eq_true, Bool.and_eq_true, bne_iff_ne, beq_iff_eq, or_assoc]

/-- The refusals of `GNS_SNAP`, in the order in which they are judged. -/
def snapChecks (p : List Byte) (d : Dev) : List (Bool × Refuse) :=
  [(snapOutside p, ⟨stRange, 0⟩), (d.gns.snap.st != 0, refused 0x81), (snapMissing p d, refused 0x82),
    (byteAt p 1 == 1 && d.gns.hold, refused 0x83)]

/-- The registers of a capture that is commanded: the buffer captures under the next number. -/
def snapAsked (c : Cmd) (x : SnapSt) : SnapSt :=
  { x with
    st := 1
    number := (x.number + 1) % 65536
    bands := byteAt c.payload 0
    process := byteAt c.payload 1 == 1
    len := field c.payload 2 2
    at_ := if byteAt c.payload 4 = 1 then some (field c.payload 8 8) else none
    begun := false
    m1 := 0
    m5 := 0
    cmd := some c.id }

section
variable {c : Cmd}

theorem cmdSnap_refused {r : Refuse} (h : firstRefusal (snapChecks c.payload d) = some r) :
    cmdSnap c d = complete c r.status r.detail [] d := by
  simp only [snapChecks, snapOutside, snapMissing, snapNeed] at h
  simp only [cmdSnap, h, refuse]

theorem cmdSnap_accepted (h : firstRefusal (snapChecks c.payload d) = none) :
    cmdSnap c d = waitOn c.id (snapMod (snapAsked c) d) := by
  simp only [snapChecks, snapOutside, snapMissing, snapNeed] at h
  simp only [cmdSnap, h]
  rfl

end

theorem snapChecks_range (h : snapOutside p = true) : firstRefusal (snapChecks p d) = some ⟨stRange, 0⟩ :=
  firstRefusal_here h

section
variable (ho : snapOutside p = false)
include ho

theorem snapChecks_busy (h : d.gns.snap.st ≠ 0) : firstRefusal (snapChecks p d) = some (refused 0x81) :=
  (firstRefusal_next ho).trans (firstRefusal_here (by simpa using h))

section
variable (hs : d.gns.snap.st = 0)
include hs

theorem snapChecks_missing (h : snapMissing p d = true) : firstRefusal (snapChecks p d) = some (refused 0x82) :=
  (firstRefusal_next ho).trans ((firstRefusal_next (by simp [hs])).trans (firstRefusal_here h))

section
variable (hm : snapMissing p d = false)
include hm

theorem snapChecks_last : firstRefusal (snapChecks p d) = firstRefusal [(byteAt p 1 == 1 && d.gns.hold, refused 0x83)] :=
  (firstRefusal_next ho).trans ((firstRefusal_next (by simp [hs])).trans (firstRefusal_next hm))

theorem snapChecks_held (hp : byteAt p 1 = 1) (h : d.gns.hold = true) :
    firstRefusal (snapChecks p d) = some (refused 0x83) :=
  (snapChecks_last ho hs hm).trans (firstRefusal_here (by simp [hp, h]))

theorem snapChecks_pass (h : byteAt p 1 = 0 ∨ d.gns.hold = false) : firstRefusal (snapChecks p d) = none :=
  (snapChecks_last ho hs hm).trans (firstRefusal_next (by rcases h with h | h <;> simp [h]))

end

end

end

/-! ## GNS_SNAP_RELEASE, the beginning and the processing (R470, R472, R473, R474) -/

section
variable {c : Cmd}

theorem cmdSnapRelease_refused (h : d.gns.snap.st = 1 ∨ d.gns.snap.st = 3) :
    cmdSnapRelease c d = complete c stRefused 0x84 [] d :=
  if_pos (by simpa using h)

theorem cmdSnapRelease_empties (h1 : d.gns.snap.st ≠ 1) (h3 : d.gns.snap.st ≠ 3) :
    cmdSnapRelease c d = complete c stOk 0 [] (snapMod (fun x => { x with st := 0 }) d) :=
  if_neg (by simp [h1, h3])

end

theorem snapStart_stays (h : d.gns.snap.st ≠ 1 ∨ d.gns.snap.begun = true ∨ gnsSamples d = false) : snapStart d = d :=
  if_neg (by rcases h with h | h | h <;> simp [h])

/-- The device once the command of its capture has begun. -/
def snapCmdBegun (d : Dev) : Dev :=
  match d.gns.snap.cmd with
  | some id => begin_ id d
  | none => d

theorem snapStart_begins (h1 : d.gns.snap.st = 1) (h2 : d.gns.snap.begun = false) (h3 : gnsSamples d = true) :
    snapStart d = snapMod (fun x =>
      { x with begun := true, first := x.at_.getD (tickDtNs d), time := timeWord d, steps := d.gns.steps })
      (snapCmdBegun d) := by
  refine (if_pos (by simp [h1, h2, h3])).trans ?_
  cases hc : d.gns.snap.cmd <;> cases ha : d.gns.snap.at_ <;> simp [snapCmdBegun, snapMod, gnsMod, hc, ha] <;> rfl

theorem snapDone_stays (found : List SnapSat) (h : d.gns.snap.st ≠ 3 ∨ d.gns.snap.desc ≠ none) : snapDone found d = d :=
  if_neg (by rcases h with h | h <;> simp [h])

theorem snapDone_records (found : List SnapSat) (h1 : d.gns.snap.st = 3) (h2 : d.gns.snap.desc = none) :
    snapDone found d =
      let e := forEach found (fun x e => q10Put 3 (q10 e 4 0xFF x.system x.sv x.signal d.gns.snap.steps d.gns.snap.first
        d.gns.snap.time (le 4 x.codePhase ++ le 4 (toBits 32 x.doppler) ++ le 2 x.cn0 ++ le 2 d.gns.snap.number)) e) d
      snapPut (snapDesc e 2 (snapBytes d.gns.snap) found.length) 2 e :=
  if_pos (by simp [h1, h2])

end

/-! ## The buffer filled (R471) -/

/-- A buffer filled from byte 0 reads as its data, and as 0 behind them. -/
theorem memGet_filled (bs : List Byte) (a : Nat) : memGet (memWrite [] 0 bs) a = bs.getD a 0 := by
  by_cases h : a < bs.length
  · have hin := memGet_memWrite_inside (m := []) rfl (a := 0) h
    rw [Nat.zero_add] at hin
    rw [hin, List.getD_eq_getElem _ _ h]
  · rw [memGet_memWrite_outside (.inr (by omega)), List.getD_eq_default _ _ (by omega)]
    rfl

section
variable {l1 l5 : List (BitVec 4)} {lead : Fin 25} {s : State}

theorem execSnapCaptureEnd_idle (h : snapRuns s.dev = false) : execSnapCaptureEnd l1 l5 lead s = .next s :=
  if_neg (by simp [h])

theorem execSnapCaptureEnd_fills (h : snapRuns s.dev = true) : execSnapCaptureEnd l1 l5 lead s =
    .next (settle { s with snap := memWrite [] 0 (snapData s.dev.gns.snap l1 l5), dev := snapEnd l1 l5 lead s.dev }) :=
  if_pos h

end

end Sys2Proof.Machine

namespace Sys2Proof

open Machine

/-- Settles O54: the refusals of GNS_SNAP fall one after the other (0x82 with the GNSS off is log entry 104), and every other row
is the outcome of its own function in one of its branches. -/
theorem snapshotCaptures : Obligations.SnapshotCaptures := by
  refine ⟨fun s id c => ?snap, fun s id c hr => ⟨fun h => ?releaseRefused, fun h1 h3 => ?releases⟩,
    fun s => ⟨fun h1 h2 h3 => ?begins, fun h => ?startStays⟩, fun s l1 l5 lead => ⟨fun h => ?fills, fun h => ?endStays⟩,
    fun s found => ⟨fun h1 h2 => ?records, fun h => ?doneStays⟩⟩
  case snap =>
    intro bands len need outside missing hr
    have hin : ¬outside → snapOutside c.payload = false := fun h => Bool.eq_false_iff.2 fun ho => h (snapOutside_iff.1 ho)
    have hall : ¬missing → snapMissing c.payload s.dev = false :=
      fun h => Bool.eq_false_iff.2 fun hm => h (snapMissing_iff.1 hm)
    refine ⟨fun ho => ?range, fun ho hs => ?busy, fun ho hs hm => ?missing, fun ho hs hm hp hh => ?held,
      fun ho hs hm hp => ?asks⟩
    case range => exact moves_of_ready cmdSnap rfl hr (cmdSnap_refused (snapChecks_range (snapOutside_iff.2 ho)))
    case busy => exact moves_of_ready cmdSnap rfl hr (cmdSnap_refused (snapChecks_busy (hin ho) hs))
    case missing =>
      exact moves_of_ready cmdSnap rfl hr (cmdSnap_refused (snapChecks_missing (hin ho) hs (snapMissing_iff.2 hm)))
    case held => exact moves_of_ready cmdSnap rfl hr (cmdSnap_refused (snapChecks_held (hin ho) hs (hall hm) hp hh))
    case asks => exact moves_of_ready cmdSnap rfl hr (cmdSnap_accepted (snapChecks_pass (hin ho) hs (hall hm) hp))
  case releaseRefused => exact moves_of_ready cmdSnapRelease rfl hr (cmdSnapRelease_refused h)
  case releases => exact moves_of_ready cmdSnapRelease rfl hr (cmdSnapRelease_empties h1 h3)
  case begins => exact moves_of_quiet snapStart rfl (snapStart_begins h1 h2 h3)
  case startStays => exact stays_of_quiet snapStart rfl (snapStart_stays h)
  case fills =>
    refine ⟨_, execSnapCaptureEnd_fills h, settle_pending _, fun a => ?_⟩
    rw [settle_snap, ← memGet_filled]
    rfl
  case endStays => exact execSnapCaptureEnd_idle h
  case records => exact settles_of_loud (snapDone found) rfl (snapDone_records found h1 h2)
  case doneStays => exact settles_of_loud (snapDone found) rfl (snapDone_stays found h)

end Sys2Proof
end

section
/-!
The ladders of the supply, the domains, sleep and wake (R483-R487, R496-R509).
-/
namespace Sys2Proof.Machine

/-! ## VFLD above its range (R483) -/

section
variable {mv : Nat} {d : Dev}

theorem vfldHigh_begins (h : d.pwr.vfldHigh = false) (hmv : 33000 < mv) : vfldHigh mv d =
    raise 6 0x9009 (subPath 9) ([0, 0, 0, 0] ++ le 4 mv) { d with pwr := { d.pwr with vfldHigh := true } } := by
  rw [vfldHigh, if_pos (by simp [h, hmv])]
  rfl

theorem vfldHigh_ends (h : d.pwr.vfldHigh = true) (hmv : mv < 32500) : vfldHigh mv d =
    raise 6 0x9009 (subPath 9) ([1, 0, 0, 0] ++ le 4 mv) { d with pwr := { d.pwr with vfldHigh := false } } := by
  rw [vfldHigh, if_neg (by simp [h]), if_pos (by simp [h, hmv])]
  rfl

theorem vfldHigh_stays (hoff : d.pwr.vfldHigh = false → mv ≤ 33000) (hon : d.pwr.vfldHigh = true → 32500 ≤ mv) :
    vfldHigh mv d = d := by
  cases h : d.pwr.vfldHigh with
  | false => simp [vfldHigh, h, hoff h]
  | true => simp [vfldHigh, h, hon h]

end

/-! ## What the field die's actions leave alone

A ladder's step makes the field die stop, shed and suspend; none of that touches the power state or takes back a stop. -/

/-- The power state, and whether the field die is stopped. -/
def ladder (d : Dev) : PwrSt × Bool := (d.pwr, d.lift.stopped)

theorem pwr_of_ladder {d e : Dev} (h : ladder e = ladder d) : e.pwr = d.pwr := congrArg Prod.fst h

theorem stopped_of_ladder {d e : Dev} (h : ladder e = ladder d) : e.lift.stopped = d.lift.stopped := congrArg Prod.snd h

theorem ladder_parts {d : Dev} {p : PwrSt} {b : Bool} (h : ladder d = (p, b)) : d.pwr = p ∧ d.lift.stopped = b :=
  Prod.mk.inj h

section
variable (d : Dev) (n : Fin 16)

@[simp] theorem ladder_vlvMod (f : VlvCh → VlvCh) : ladder (vlvMod n f d) = ladder d := rfl
@[simp] theorem ladder_pinMod (k : Fin 64) (f : Pin → Pin) : ladder (pinMod k f d) = ladder d := rfl
@[simp] theorem ladder_urgent (code : Fin 5) (bit : Nat) : ladder (urgent code bit d) = ladder d := rfl
@[simp] theorem ladder_nextEnds (cause : Nat) : ladder (nextEnds n cause d) = ladder d := rfl
@[simp] theorem ladder_enterPeak (us : Nat) : ladder (enterPeak n us d) = ladder d := rfl
@[simp] theorem ladder_endProfile : ladder (endProfile n d) = ladder d := rfl
@[simp] theorem ladder_shedReport (bit : Nat) : ladder (shedReport bit d) = ladder d := rfl
@[simp] theorem ladder_dlxPause : ladder (dlxPause d) = ladder d := rfl
@[simp] theorem ladder_vlvF2Begin : ladder (vlvF2Begin d) = ladder d := rfl
@[simp] theorem ladder_openDuty (k : Fin 64) (v : Nat) : ladder (openDuty k v d) = ladder d := rfl

@[simp] theorem ladder_diag (vd kind : Nat) : ladder (diag vd kind d) = ladder d := by
  simp only [diag]
  repeat' split
  all_goals rfl

@[simp] theorem ladder_vlvDiag (kind : Nat) : ladder (vlvDiag n kind d) = ladder d := ladder_diag _ _ _

@[simp] theorem ladder_endNever (cause : Nat) : ladder (endNever n cause d) = ladder d := by
  simp only [endNever]
  split <;> rfl

@[simp] theorem ladder_startDecay (fast on : Bool) : ladder (startDecay n fast on d) = ladder d := by
  simp only [startDecay]
  split
  · exact ladder_vlvDiag _ _ _
  · rfl

@[simp] theorem ladder_wakeAll : ladder (wakeAll d) = ladder d :=
  forEach_keeps ladder (fun n d => by split <;> rfl) _ _

@[simp] theorem ladder_pinSafe (k : Fin 64) : ladder (pinSafe k d) = ladder d := by
  simp only [pinSafe]
  split <;> rfl

@[simp] theorem ladder_pinShed (k : Fin 64) : ladder (pinShed k d) = ladder d := by
  simp only [pinShed]
  split <;> rfl

@[simp] theorem ladder_afterDelay : ladder (afterDelay n d) = ladder d := by
  simp only [afterDelay, deferReject]
  repeat' split
  all_goals simp

@[simp] theorem ladder_vlvShed : ladder (vlvShed n d) = ladder d := by
  simp only [vlvShed]
  repeat' split
  all_goals simp

@[simp] theorem ladder_safeSetPulse : ladder (safeSetPulse n d) = ladder d := by
  simp only [safeSetPulse]
  repeat' split
  all_goals simp

@[simp] theorem ladder_vlvSafe (both : Bool) : ladder (vlvSafe n both d) = ladder d := by
  simp only [vlvSafe]
  repeat' split
  all_goals simp

@[simp] theorem ladder_vlvF2End : ladder (vlvF2End d) = ladder d := by
  refine forEach_keeps ladder (fun n d => ?_) _ _
  dsimp only
  repeat' split
  all_goals simp

@[simp] theorem ladder_excUpdate : ladder (excUpdate d) = ladder d :=
  forEach_keeps ladder (fun ch d => by dsimp only; split <;> rfl) _ _

@[simp] theorem ladder_pinPut (k v : Nat) : ladder (pinPut k v d) = ladder d := by
  simp only [pinPut]
  repeat' split
  all_goals rfl

@[simp] theorem ladder_brnOff (b : Fin 4) : ladder (brnOff b d) = ladder d := by
  simp only [brnOff]
  split <;> rfl

@[simp] theorem ladder_convOff : ladder (convOff n d) = ladder d := ladder_pinPut _ _ _

@[simp] theorem ladder_aerFan (b : Fin 12) (on : Bool) : ladder (aerFan b on d) = ladder d := ladder_pinPut _ _ _

@[simp] theorem ladder_blockClose (i : Fin 2) : ladder (blockClose i d) = ladder d := by
  simp only [blockClose]
  repeat' split
  all_goals rfl

/-- The rounds of a suspension, one per drying bin, aeration bin and water plant. -/
@[simp] theorem ladder_svcSuspend (m : Nat) : ladder (svcSuspend m d) = ladder d := by
  simp only [svcSuspend]
  rw [forEach_keeps ladder, forEach_keeps ladder, forEach_keeps ladder]
  · intro i d
    simp only [burnersOff]
    split
    · rfl
    · rw [forEach_keeps ladder (fun n d => ladder_convOff d n), forEach_keeps ladder (fun b d => ladder_brnOff d b)]
      rfl
  · intro b d
    repeat' split
    · rfl
    · exact ladder_aerFan _ _ _
    · rfl
  · intro i d
    split
    · exact ladder_blockClose _ _
    · exact ladder_blockClose _ _

@[simp] theorem ladder_stopObjects (m : Nat) : ladder (stopObjects m d) = ladder d := by
  simp only [stopObjects, ladder_wakeAll]
  rw [forEach_keeps ladder (fun n d => ladder_vlvSafe d n _), forEach_keeps ladder (fun n d => ladder_pinSafe d n)]
  rfl

@[simp] theorem ladder_stopAll : ladder (stopAll d) = (d.pwr, true) := by
  simp only [stopAll, ladder_excUpdate, ladder_dlxPause, ladder_stopObjects]
  rfl

end

/-- The device with another health mirror. -/
def HostMoved (d e : Dev) : Prop := ∃ h, e = { d with host := h }

theorem healthCheck_host (d : Dev) : HostMoved d (healthCheck d) := by
  simp only [healthCheck, healthRefresh]
  repeat' split
  · exact ⟨d.host, rfl⟩
  · exact ⟨d.host, rfl⟩
  · exact ⟨_, rfl⟩

section
variable (d : Dev)

@[simp] theorem ladder_healthCheck : ladder (healthCheck d) = ladder d := by
  obtain ⟨_, h⟩ := healthCheck_host d
  rw [h]
  rfl

@[simp] theorem healthCheck_pwr : (healthCheck d).pwr = d.pwr := pwr_of_ladder (ladder_healthCheck d)

@[simp] theorem healthCheck_gns : (healthCheck d).gns = d.gns := by
  obtain ⟨_, h⟩ := healthCheck_host d
  rw [h]

/-- A class that is shed counts as shed, and what it switches off leaves the power state. -/
@[simp] theorem ladder_shedClass (c : Fin 4) : ladder (shedClass c d) =
    ({ d.pwr with shed := d.pwr.shed.set c true, relClass := d.pwr.relClass.set c false }, d.lift.stopped) := by
  simp only [shedClass, ladder_shedReport, ladder_wakeAll]
  rw [forEach_keeps ladder (fun n d => ladder_vlvShed d n), forEach_keeps ladder (fun n d => ladder_pinShed d n)]
  rfl

/-! ## The urgent frame that F5 sends, and the field die held in reset (R490, R506) -/

@[simp] theorem upSent_urg_ladder (code : Fin 5) : upSent (.urg code) d = d := rfl

@[simp] theorem ladder_restored : ladder (restored d) = ladder d := by
  simp only [restored]
  split <;> rfl

theorem ladder_shedEvents (m dt : Nat) : ladder (shedEvents m dt d) = ladder d := by
  simp only [shedEvents]
  rw [forEach_keeps ladder, forEach_keeps ladder, forEach_keeps ladder, forEach_keeps ladder] <;> exact fun _ _ => rfl

theorem ladder_urgFrame (f : MaskFrame) : ladder (urgFrame 4 f d) = ladder d :=
  ladder_shedEvents _ f.mask _

theorem ladder_liftMod {f : LiftSt → LiftSt} (h : (f d.lift).stopped = d.lift.stopped) : ladder (liftMod f d) = ladder d := by
  rw [ladder, liftMod_lift, h]
  rfl

/-- The line of an urgent frame counts what it carries and takes the frame. -/
theorem ladder_frameClosed (code : Fin 5) (p : Nat) : ladder (frameClose (.urg code) (upCount p d)) = ladder d := by
  rw [frameClose, ladder_liftMod, upCount, ladder_liftMod, depthNote, ladder_liftMod] <;> rfl

@[simp] theorem ladder_urgRow (p : Nat) : ladder (urgRow 4 p d) = ladder d := by
  simp only [urgRow, upRow, upLine, upSent_urg_ladder]
  split
  · rfl
  · split
    · split
      · rw [ladder_urgFrame, upValid, ladder_restored, ladder_liftMod, ladder_liftMod, ladder_frameClosed]
        all_goals rfl
      · split
        · rw [upLost, ladder_liftMod, ladder_liftMod, ladder_frameClosed]
          all_goals rfl
        · rw [ladder_liftMod, ladder_frameClosed]
          rfl
    · rfl

@[simp] theorem completeId_pwr (id : CmdId) (st dl : Nat) (x : List Byte) : (completeId id st dl x d).pwr = d.pwr :=
  completeId_keeps (·.pwr) (fun _ _ _ _ _ => complete_pwr ..) ..

@[simp] theorem completeId_hlt (id : CmdId) (st dl : Nat) (x : List Byte) : (completeId id st dl x d).hlt = d.hlt :=
  completeId_keeps (·.hlt) (fun _ _ _ _ _ => complete_hlt ..) ..

@[simp] theorem excUpdate_pwr : (excUpdate d).pwr = d.pwr := pwr_of_ladder (ladder_excUpdate d)

@[simp] theorem excUpdate_hlt : (excUpdate d).hlt = d.hlt :=
  forEach_keeps (·.hlt) (fun ch d => by dsimp only; split <;> rfl) _ _

/-- The pulses that a reset of the field die ends leave the power state and chapter 13. -/
theorem pulsesLost_keeps (n : Fin 16) :
    (fun e : Dev => (e.pwr, e.hlt)) (pulsesLost n d) = (fun e : Dev => (e.pwr, e.hlt)) d := by
  simp only [pulsesLost, vlvMod_pwr, vlvMod_hlt]
  refine forEach_keeps (fun e : Dev => (e.pwr, e.hlt)) (fun x d => ?_) _ d
  simp only [pulseReset]
  split
  · rw [completeId_pwr, completeId_hlt]
  · rfl

/-- The power state of a field die in reset: its outputs wait for the release that is named. -/
def fieldHeld (how : HoldEnd) (p : PwrSt) : PwrSt := { p with hold := true, holdEnd := how, fieldUp := false, vfldHigh := false }

theorem fieldReset_leaves (how : HoldEnd) :
    (fieldReset how d).pwr = fieldHeld how d.pwr ∧ (fieldReset how d).hlt = d.hlt := by
  unfold fieldReset
  extract_lets d1 lift afe dlx svc d2 d3 d4 isShed fio vlv d5
  obtain ⟨h1, h1'⟩ : d1.pwr = d.pwr ∧ d1.hlt = d.hlt :=
    Prod.mk.inj (forEach_keeps (fun e : Dev => (e.pwr, e.hlt)) (fun n d => pulsesLost_keeps d n) _ d)
  clear_value d1
  have h3 : d3.pwr = fieldHeld how d1.pwr := rfl
  have h3' : d3.hlt = d1.hlt := rfl
  have h4 : d4.pwr = d3.pwr := forEach_keeps (f := afeRestart) (·.pwr) (fun _ _ => rfl) _ d3
  have h4' : d4.hlt = d3.hlt := forEach_keeps (f := afeRestart) (·.hlt) (fun _ _ => rfl) _ d3
  have h5 : d5.pwr = d4.pwr := rfl
  have h5' : d5.hlt = d4.hlt := rfl
  rw [excUpdate_pwr, h5, h4, h3, h1, excUpdate_hlt, h5', h4', h3', h1']
  exact ⟨rfl, rfl⟩

/-- A field die held in reset has no power. -/
@[simp] theorem fieldOff_pwr (how : HoldEnd) : (fieldOff how d).pwr = { fieldHeld how d.pwr with fieldPow := false } := by
  rw [fieldOff, pwrMod_pwr, (fieldReset_leaves d how).1]

@[simp] theorem fieldOff_hlt (how : HoldEnd) : (fieldOff how d).hlt = d.hlt := by
  rw [fieldOff, pwrMod_hlt, (fieldReset_leaves d how).2]

end

/-! ## The field ladder (R505-R508) -/

section
variable {mv : Nat} {d : Dev}

theorem fieldStepBegin_stays (h : 5 ≤ d.pwr.fStep ∨ d.pwr.fieldPow = false ∨ fieldThreshold (d.pwr.fStep + 1) ≤ mv) :
    fieldStepBegin mv d = d :=
  if_pos (by simpa [or_assoc, Nat.lt_succ_iff] using h)

/-- The field die's actions leave the step in force. -/
theorem fieldStepActs_fStep (k : Nat) (d : Dev) : (fieldStepActs k d).pwr.fStep = d.pwr.fStep := by
  simp only [fieldStepActs]
  split
  · rw [pwr_of_ladder (ladder_dlxPause d)]
  · rw [pwr_of_ladder (ladder_vlvF2Begin d)]
  · split
    · rfl
    · rw [(ladder_parts (ladder_shedClass _ 3)).1, pwrMod_pwr]
  · rw [pwr_of_ladder (ladder_svcSuspend _ _), (ladder_parts (ladder_stopAll _)).1]
  · rfl

/-- F4 stops the field die. -/
theorem fieldStepActs_stops (d : Dev) : (fieldStepActs 4 d).lift.stopped = true := by
  rw [fieldStepActs, stopped_of_ladder (ladder_svcSuspend _ _), (ladder_parts (ladder_stopAll _)).2]

/-- The field die as the next step has begun and its report waits. -/
def stepReported (mv : Nat) (d : Dev) : Dev := shedReport d.pwr.fStep
  (fieldStepActs (d.pwr.fStep + 1) (pwrMod (fun p => { p with vfldField := mv, fStep := d.pwr.fStep + 1 }) d))

theorem stepReported_fStep (mv : Nat) (d : Dev) : (stepReported mv d).pwr.fStep = d.pwr.fStep + 1 := by
  rw [stepReported, pwr_of_ladder (ladder_shedReport _ _), fieldStepActs_fStep, pwrMod_pwr]

section
variable (hk : d.pwr.fStep < 5) (hp : d.pwr.fieldPow = true) (hmv : mv < fieldThreshold (d.pwr.fStep + 1))
include hk hp hmv

/-- A step that begins reports; F5 sends its report and holds the field die in reset. -/
theorem fieldStepBegin_eq : ∃ e, ladder e = ladder (stepReported mv d) ∧
    fieldStepBegin mv d = healthCheck (if d.pwr.fStep + 1 = 5 then fieldOff .svcRelease e else e) := by
  have hbegins : ¬ ((decide (5 < d.pwr.fStep + 1) || !d.pwr.fieldPow || decide (fieldThreshold (d.pwr.fStep + 1) ≤ mv)) =
    true) := by simp [hp, hmv, hk]
  simp only [fieldStepBegin, if_neg hbegins, Nat.add_sub_cancel]
  by_cases h5 : d.pwr.fStep + 1 = 5
  · refine ⟨_, ?_, by rw [if_pos h5, if_pos h5]⟩
    split
    · exact ladder_urgRow _ _
    · rfl
  · exact ⟨_, rfl, by rw [if_neg h5, if_neg h5]; rfl⟩

theorem fieldStepBegin_begins : (fieldStepBegin mv d).pwr.fStep = d.pwr.fStep + 1 ∧
    (d.pwr.fStep = 3 → (fieldStepBegin mv d).lift.stopped = true) ∧
    (d.pwr.fStep = 4 → (fieldStepBegin mv d).pwr.fieldPow = false) := by
  obtain ⟨e, he, h⟩ := fieldStepBegin_eq hk hp hmv
  rw [h]
  refine ⟨?step, fun h3 => ?stops, fun h4 => ?holds⟩
  case step =>
    have hstep : e.pwr.fStep = d.pwr.fStep + 1 := by rw [pwr_of_ladder he, stepReported_fStep]
    split
    · rw [healthCheck_pwr, fieldOff_pwr]
      exact hstep
    · rw [healthCheck_pwr]
      exact hstep
  case stops =>
    have hstop : (stepReported mv d).lift.stopped = true := by
      rw [stepReported, stopped_of_ladder (ladder_shedReport _ _), h3, fieldStepActs_stops]
    rw [if_neg (by omega), stopped_of_ladder ((ladder_healthCheck e).trans he), hstop]
  case holds =>
    rw [if_pos (by omega), healthCheck_pwr, fieldOff_pwr]

end

theorem fieldStepEnd_stays (h : d.pwr.fStep = 0 ∨ mv < fieldThreshold d.pwr.fStep + 500) : fieldStepEnd mv d = d :=
  if_pos (by simpa using h)

/-- What the end of a step leaves: the step in force, and VFLD as it was measured; F5's end gives the field die power. -/
theorem fieldStepEnds_pwr (k : Nat) (d : Dev) : (fieldStepEnds k d).pwr.fStep = d.pwr.fStep ∧
    (fieldStepEnds k d).pwr.vfldField = d.pwr.vfldField ∧ (k = 5 → (fieldStepEnds k d).pwr.fieldPow = true) := by
  simp only [fieldStepEnds]
  split
  · rw [pwr_of_ladder (ladder_vlvF2End d)]
    exact ⟨rfl, rfl, nofun⟩
  · exact ⟨rfl, rfl, nofun⟩
  · rw [excUpdate_pwr]
    exact ⟨rfl, rfl, nofun⟩
  · exact ⟨rfl, rfl, fun _ => rfl⟩
  · exact ⟨rfl, rfl, fun h5 => absurd h5 ‹_›⟩

theorem fieldStepEnd_ends (h0 : d.pwr.fStep ≠ 0) (hmv : fieldThreshold d.pwr.fStep + 500 ≤ mv) :
    (fieldStepEnd mv d).pwr.fStep + 1 = d.pwr.fStep ∧ (fieldStepEnd mv d).pwr.vfldField = mv ∧
      (d.pwr.fStep = 5 → (fieldStepEnd mv d).pwr.fieldPow = true) := by
  obtain ⟨hstep, hfield, hpow⟩ := fieldStepEnds_pwr d.pwr.fStep
    (pwrMod (fun p => { p with vfldField := mv, fStep := d.pwr.fStep - 1 }) d)
  rw [fieldStepEnd, if_neg (by simp [h0, hmv]), healthCheck_pwr, pwr_of_ladder (ladder_shedReport _ _), hstep, hfield]
  exact ⟨Nat.succ_pred_eq_of_pos (Nat.pos_of_ne_zero h0), rfl, hpow⟩

end

/-! ### Shedding by class (R507) -/

section
variable {c : Fin 4} {d : Dev}

theorem f3Shed_stays (h : c = 0 ∨ d.pwr.fStep < 3 ∨ d.pwr.fieldPow = false ∨ d.pwr.shed.get c = true) : f3Shed c d = d :=
  if_pos (by simpa [or_assoc] using h)

theorem f3Shed_sheds (h0 : c ≠ 0) (h3 : 3 ≤ d.pwr.fStep) (hp : d.pwr.fieldPow = true) (hs : d.pwr.shed.get c = false) :
    (f3Shed c d).pwr.shed = d.pwr.shed.set c true := by
  rw [f3Shed, if_neg (by simp [h0, h3, hp, hs]), healthCheck_pwr, (ladder_parts (ladder_shedClass d c)).1]

theorem f3Release_releases (he : d.pwr.f3Ended = true) (h3 : d.pwr.fStep < 3) (hs : d.pwr.shed.get c = true) :
    f3Release c d = { d with pwr := { d.pwr with relClass := d.pwr.relClass.set c true } } :=
  if_pos (by simp [he, h3, hs])

theorem f3Release_stays (h : d.pwr.f3Ended = false ∨ 3 ≤ d.pwr.fStep ∨ d.pwr.shed.get c = false) : f3Release c d = d :=
  if_neg (by rcases h with h | h | h <;> simp [h])

end

/-! ## The logic ladder (R509) -/

section
variable (d : Dev)

@[simp] theorem toHoldover_pwr : (toHoldover d).pwr = d.pwr := by
  simp only [toHoldover]
  split
  · simp only [tqMove]
    split <;> rfl
  · rfl

@[simp] theorem gnsHold_pwr : (gnsHold d).pwr = d.pwr := by
  simp only [gnsHold]
  split <;> exact toHoldover_pwr _

theorem gnsHold_hold : (gnsHold d).gns.hold = true := by
  simp only [gnsHold]
  split <;> rfl

@[simp] theorem flashFreeze_pwr : (flashFreeze d).pwr = d.pwr := rfl

end

section
variable {mv : Nat} {d : Dev}

theorem logicStepBegin_stays (h : 5 ≤ d.pwr.lStep ∨ d.pwr.powered = false ∨ logicThreshold (d.pwr.lStep + 1) ≤ mv) :
    logicStepBegin mv d = d :=
  if_pos (by simpa [or_assoc, Nat.lt_succ_iff] using h)

/-- The device with the next step of the logic ladder in force, and its event. -/
def logicBegun (mv : Nat) (d : Dev) : Dev :=
  logicEvent (d.pwr.lStep + 1) 0 mv (pwrMod (fun p => { p with vlog := mv, lStep := d.pwr.lStep + 1 }) d)

theorem logicBegun_pwr (mv : Nat) (d : Dev) : (logicBegun mv d).pwr = { d.pwr with vlog := mv, lStep := d.pwr.lStep + 1 } := rfl

section
variable (hk : d.pwr.lStep < 5) (hp : d.pwr.powered = true) (hmv : mv < logicThreshold (d.pwr.lStep + 1))
include hk hp hmv

theorem logicBegins : ¬ ((decide (5 < d.pwr.lStep + 1) || !d.pwr.powered ||
    decide (logicThreshold (d.pwr.lStep + 1) ≤ mv)) = true) := by
  simp [hp, hmv, hk]

theorem logicStepBegin_begins (h4 : d.pwr.lStep ≠ 4) : (logicStepBegin mv d).pwr = (logicBegun mv d).pwr ∧
    (d.pwr.lStep = 0 → (logicStepBegin mv d).gns.hold = true) := by
  simp only [logicStepBegin, if_neg (logicBegins hk hp hmv)]
  split
  · rw [healthCheck_pwr, gnsHold_pwr, healthCheck_gns, gnsHold_hold]
    exact ⟨rfl, fun _ => rfl⟩
  · rw [healthCheck_pwr]
    exact ⟨rfl, by omega⟩
  · omega
  · rw [healthCheck_pwr]
    exact ⟨rfl, fun h0 => absurd (congrArg (· + 1) h0) ‹d.pwr.lStep + 1 = 1 → False›⟩

theorem logicStepBegin_resets (h4 : d.pwr.lStep = 4) : logicStepBegin mv d = controlReset 0x05 (logicBegun mv d) := by
  simp only [logicStepBegin, if_neg (logicBegins hk hp hmv), logicBegun]
  simp only [h4]

end

theorem logicStepEnd_stays (h : d.pwr.lStep = 0 ∨ 4 < d.pwr.lStep ∨ mv < logicThreshold d.pwr.lStep + 50) :
    logicStepEnd mv d = d :=
  if_pos (by simpa [or_assoc] using h)

theorem logicStepEnd_ends (h0 : d.pwr.lStep ≠ 0) (h4 : d.pwr.lStep ≤ 4) (hmv : logicThreshold d.pwr.lStep + 50 ≤ mv) :
    (logicStepEnd mv d).pwr.lStep + 1 = d.pwr.lStep ∧ (logicStepEnd mv d).pwr.vlog = mv ∧
      (d.pwr.lStep = 1 → (logicStepEnd mv d).gns.hold = false) := by
  simp only [logicStepEnd, if_neg (show ¬ ((decide (d.pwr.lStep = 0) || decide (4 < d.pwr.lStep) ||
    decide (mv < logicThreshold d.pwr.lStep + 50)) = true) by simp [h0, h4, hmv]), healthCheck_pwr, healthCheck_gns]
  have hpred : d.pwr.lStep - 1 + 1 = d.pwr.lStep := Nat.succ_pred_eq_of_pos (Nat.pos_of_ne_zero h0)
  split
  · exact ⟨hpred, rfl, fun _ => rfl⟩
  · exact ⟨hpred, rfl, fun h1 => absurd h1 ‹_›⟩

end

/-! ## A reset of the control die (R490)

The places of the units change after it (R527), and with them the channels they serve. -/

/-- The device with other units, measurement and dielectric channels, and loops. -/
def UnitsMoved (d e : Dev) : Prop :=
  ∃ us a x c, e = { d with afe := a, dlx := x, ctl := c, hlt := { d.hlt with units := us } }

theorem UnitsMoved.refl (d : Dev) : UnitsMoved d d := ⟨d.hlt.units, d.afe, d.dlx, d.ctl, rfl⟩

theorem UnitsMoved.trans {d e f : Dev} (h : UnitsMoved d e) (h' : UnitsMoved e f) : UnitsMoved d f := by
  obtain ⟨_, _, _, _, rfl⟩ := h
  obtain ⟨_, _, _, _, rfl⟩ := h'
  exact ⟨_, _, _, _, rfl⟩

theorem UnitsMoved.loop {α : Type} {f : α → Dev → Dev} (h : ∀ x d, UnitsMoved d (f x d)) (xs : List α) (d : Dev) :
    UnitsMoved d (forEach xs f d) := by
  induction xs generalizing d with
  | nil => exact .refl d
  | cons x xs ih => exact (h x d).trans (ih _)

theorem supPlaces_units (d : Dev) : UnitsMoved d (supPlaces d) := by
  unfold supPlaces
  extract_lets gone put
  have hput : ∀ u st role d, UnitsMoved d (put u st role d) := by
    intro u st role d
    show UnitsMoved d (if _ then _ else _)
    split
    · exact .refl d
    · exact ⟨_, _, _, _, rfl⟩
  split
  · exact .refl d
  · exact ((hput ..).trans (hput ..)).trans (hput ..)

theorem retiredPlaces_units (d : Dev) : UnitsMoved d (retiredPlaces d) := by
  unfold retiredPlaces
  extract_lets d1 gone d2 d3 dlx d4 d5 ctl d6 ctl1
  have h1 : UnitsMoved d d1 := supPlaces_units d
  have h2 : UnitsMoved d1 d2 := .loop (fun ch d => by
    dsimp only
    repeat' split
    · exact .refl d
    · exact ⟨_, _, _, _, rfl⟩
    · exact ⟨_, _, _, _, rfl⟩) _ _
  have h3 : UnitsMoved d2 d3 := .loop (fun g d => by
    split
    · exact ⟨_, _, _, _, rfl⟩
    · exact .refl d) _ _
  have h4 : UnitsMoved d3 d4 := by
    show UnitsMoved d3 (if _ then _ else _)
    split
    · exact ⟨_, _, _, _, rfl⟩
    · exact .refl _
  have h5 : UnitsMoved d4 d5 := .loop (fun n d => by
    repeat' split
    · exact .refl d
    · exact ⟨_, _, _, _, rfl⟩
    · exact ⟨_, _, _, _, rfl⟩) _ _
  have h6 : UnitsMoved d5 d6 := ⟨d5.hlt.units, d5.afe, d5.dlx, _, rfl⟩
  refine ((((h1.trans h2).trans h3).trans h4).trans h5).trans (h6.trans ?_)
  repeat' split
  · exact ⟨_, _, _, _, rfl⟩
  · exact ⟨_, _, _, _, rfl⟩
  · exact .refl d6

section
variable (d : Dev)

theorem retiredPlaces_same : (retiredPlaces d).host = d.host ∧ (retiredPlaces d).pwr = d.pwr ∧
    (retiredPlaces d).time = d.time ∧ (retiredPlaces d).hlt.demand = d.hlt.demand ∧
    (retiredPlaces d).hlt.causes = d.hlt.causes ∧ (retiredPlaces d).hlt.shutdownWord = d.hlt.shutdownWord := by
  obtain ⟨_, _, _, _, h⟩ := retiredPlaces_units d
  rw [h]
  exact ⟨rfl, rfl, rfl, rfl, rfl, rfl⟩

/-- An erase that is cut short leaves its sectors empty, and nothing else. -/
theorem cutErases_same : (cutErases d).host = d.host ∧ (cutErases d).pwr = d.pwr ∧ (cutErases d).time = d.time ∧
    (cutErases d).hlt = d.hlt := by
  simp only [cutErases]
  repeat' split
  all_goals exact ⟨rfl, rfl, rfl, rfl⟩

end

/-- The demand and its causes are D0's, and stay with it; the SHUTDOWN word is data flash's. -/
theorem hltReset_kept (h : HltSt) : (hltReset true h).demand = h.demand ∧ (hltReset true h).causes = h.causes ∧
    (hltReset true h).shutdownWord = h.shutdownWord := by
  simp only [hltReset, Bool.true_and, if_true, and_self]

/-- What a reset of the control die leaves: the cause is shown, device time runs on, and the demand is D0's. -/
theorem controlReset_leaves (cause : Nat) (d : Dev) :
    (controlReset cause d).host = hostReset cause d.pwr.bootPins d.host ∧
    (controlReset cause d).pwr = pwrControlReset d.pwr ∧ (controlReset cause d).time = d.time ∧
    (controlReset cause d).hlt.demand = d.hlt.demand ∧ (controlReset cause d).hlt.causes = d.hlt.causes ∧
    (controlReset cause d).hlt.shutdownWord = d.hlt.shutdownWord := by
  unfold controlReset
  extract_lets cut d1 gate cmd afe dlx vlv svc bus ch hlt idn
  obtain ⟨hhost, hpwr, htime, hhlt⟩ : d1.host = d.host ∧ d1.pwr = d.pwr ∧ d1.time = d.time ∧ d1.hlt = d.hlt :=
    cutErases_same d
  obtain ⟨hdem, hcauses, hword⟩ : hlt.demand = d1.hlt.demand ∧ hlt.causes = d1.hlt.causes ∧
    hlt.shutdownWord = d1.hlt.shutdownWord := hltReset_kept d1.hlt
  clear_value cut d1 hlt
  rw [← hhost, ← hpwr, ← htime, ← hhlt, ← hdem, ← hcauses, ← hword]
  exact retiredPlaces_same _

end Sys2Proof.Machine

namespace Sys2Proof
open Machine

/-- Settles O51: the two thresholds are the two tests of `vfldHigh`, and what they leave out changes nothing. -/
theorem vfldHighEvent : Obligations.VfldHighEvent := fun _ mv =>
  ⟨fun h hmv => moves_of_quiet (Machine.vfldHigh mv) rfl (vfldHigh_begins h hmv),
    fun h hmv => moves_of_quiet (Machine.vfldHigh mv) rfl (vfldHigh_ends h hmv),
    fun hoff hon => stays_of_quiet (Machine.vfldHigh mv) rfl (vfldHigh_stays hoff hon)⟩

section
variable {s : State} {mv : Nat}

/-- A step of the logic ladder but L5 loses no memory. -/
theorem logicStep_quiet (h : ¬ (s.dev.pwr.lStep = 4 ∧ s.dev.pwr.powered = true ∧ mv < logicThreshold 5)) :
    exec (.logicStepBegin mv) s = quiet (logicStepBegin mv) s :=
  if_neg (by simpa [and_assoc] using h)

/-- L5 resets the control die: the queue region keeps its bytes, and the snapshot buffer does not (log entry 2). -/
theorem logicStep_resets (h4 : s.dev.pwr.lStep = 4) (hp : s.dev.pwr.powered = true) (hmv : mv < logicThreshold 5) :
    exec (.logicStepBegin mv) s =
      .next { s with snap := [], dev := controlReset 0x05 (logicBegun mv s.dev) } := by
  have hmv' : mv < logicThreshold (s.dev.pwr.lStep + 1) := by rw [h4]; exact hmv
  rw [← logicStepBegin_resets (by omega) hp hmv' h4]
  exact (if_pos (by simp [h4, hp, hmv])).trans (losingSnap_next _ _)

end

/-- Settles O57: a step begins or ends past its own threshold, through what its actions leave of the power state (`ladder`)
and what a reset of the control die does (`controlReset_leaves`). That the field ladder runs without FCLK is log entry 108,
that memory outlasts L5 is log entry 2. -/
theorem sideslipLadders : Obligations.SideslipLadders := by
  refine ⟨fun s mv => ⟨fun h => ?fstays, fun hk hp hmv => ?fbegins, fun h => ?fholds, fun h0 hmv => ?fends⟩, ?thresholds,
    fun s c => ⟨fun h => ?sstays, fun h0 h3 hp hs => ?sheds, fun he h3 hs => ?releases, fun h => ?rstays⟩,
    fun s mv => ⟨fun h => ?lstays, fun hk hp hmv => ?lbegins, fun h4 hp hmv => ?lresets, fun h => ?lholds,
      fun h0 h4 hmv => ?lends⟩⟩
  case fstays => exact stays_of_quiet (fieldStepBegin mv) rfl (fieldStepBegin_stays h)
  case fbegins => exact ⟨_, moves_of_quiet (fieldStepBegin mv) rfl rfl, fieldStepBegin_begins hk hp hmv⟩
  case fholds => exact stays_of_quiet (fieldStepEnd mv) rfl (fieldStepEnd_stays h)
  case fends => exact ⟨_, moves_of_quiet (fieldStepEnd mv) rfl rfl, fieldStepEnd_ends h0 hmv⟩
  case thresholds => decide
  case sstays => exact stays_of_quiet (f3Shed c) rfl (f3Shed_stays h)
  case sheds => exact ⟨_, moves_of_quiet (f3Shed c) rfl rfl, f3Shed_sheds h0 h3 hp hs⟩
  case releases => exact moves_of_quiet (f3Release c) rfl (f3Release_releases he h3 hs)
  case rstays => exact stays_of_quiet (f3Release c) rfl (f3Release_stays h)
  case lstays =>
    refine stays_of_quiet (logicStepBegin mv) (logicStep_quiet ?_) (logicStepBegin_stays h)
    rintro ⟨h4, hp, hmv⟩
    rw [h4, hp] at h
    simp [Nat.not_le.2 hmv] at h
  case lbegins =>
    obtain ⟨hpwr, hhold⟩ := logicStepBegin_begins (by omega) hp hmv (by omega)
    refine ⟨_, moves_of_quiet (logicStepBegin mv) (logicStep_quiet (by omega)) rfl, ?_, ?_, hhold⟩
    · rw [hpwr, logicBegun_pwr]
    · rw [hpwr, logicBegun_pwr]
  case lresets =>
    obtain ⟨hhost, hpwr, htime, -⟩ := controlReset_leaves 0x05 (logicBegun mv s.dev)
    refine ⟨_, logicStep_resets h4 hp hmv, rfl, rfl, rfl, ?_, ?_, ?_, htime⟩
    · rw [hhost]
      rfl
    · rw [hhost]
      rfl
    · rw [hpwr]
      exact congrArg (· + 1) h4
  case lholds => exact takes_of_taking (logicStepEnd mv) rfl (logicStepEnd_stays h)
  case lends => exact ⟨_, takes_of_taking (logicStepEnd mv) rfl rfl, logicStepEnd_ends h0 h4 hmv⟩

end Sys2Proof
end

section
/-!
Domains, sleep, pad holds and wake (R485, R486, R496-R504).
-/
namespace Sys2Proof.Machine

/-! ## The state of a domain (R486) -/

section
variable {α : Type} {n : Nat} (v : Vector α n) (f : α → α) (dflt : α)

theorem vAt_vModN_same {i : Nat} (h : i < n) : vAt (vModN v i f) i dflt = f (vAt v i dflt) := by
  simp only [vAt, vModN, dif_pos h, vMod_get_same]

theorem vAt_vModN_other {i j : Nat} (h : i ≠ j) : vAt (vModN v i f) j dflt = vAt v j dflt := by
  simp only [vAt, vModN]
  split
  · split
    · exact vMod_get_other _ _ (by simpa [Fin.ext_iff] using h)
    · rfl
  · rfl

end

/-- What a move of a domain leaves: the states of the domains, and the slot of a sleep that has completed. -/
def sleepSeen (d : Dev) : Vector Nat 11 × Bool := (d.pwr.dom, d.pwr.sleepSlot)

theorem domState_of_seen {d e : Dev} (h : sleepSeen e = sleepSeen d) (n : Nat) : domState e n = domState d n := by
  rw [domState, show e.pwr.dom = d.pwr.dom from congrArg Prod.fst h, domState]

section
variable (d : Dev) (n : Nat)

theorem sleepSeen_of_pwr {d e : Dev} (h : e.pwr = d.pwr) : sleepSeen e = sleepSeen d := by rw [sleepSeen, h, sleepSeen]

@[simp] theorem sleepSeen_clocks : sleepSeen (clocks d) = sleepSeen d := by
  simp only [clocks]
  split <;> rfl

@[simp] theorem sleepSeen_padsHold : sleepSeen (padsHold n d) = sleepSeen d := rfl

@[simp] theorem sleepSeen_excUpdate : sleepSeen (excUpdate d) = sleepSeen d := sleepSeen_of_pwr (excUpdate_pwr d)

theorem gnsOff_pwr : (gnsOff d).pwr = d.pwr := by
  simp only [gnsOff, toHoldover_pwr]
  split
  · exact completeId_pwr ..
  · rfl

/-- The blocks of a domain that leaves ON keep the states of the domains. -/
@[simp] theorem sleepSeen_domLeaves (st : Nat) : sleepSeen (domLeaves n st d) = sleepSeen d := by
  simp only [domLeaves]
  split
  · split
    · exact sleepSeen_of_pwr (gnsOff_pwr d)
    · exact sleepSeen_of_pwr (toHoldover_pwr _)
  · split <;> rfl
  · split <;> rfl
  · split
    · rw [sleepSeen, fieldOff_pwr]
      rfl
    · rfl
  · rfl
  · rfl

theorem domMove_pwr (st cause : Nat) : (domMove n st cause d).pwr =
    { d.pwr with dom := vModN d.pwr.dom n fun _ => st } := rfl

/-- A domain that enters a state is the only one that moves. -/
@[simp] theorem sleepSeen_domSleep (st : Nat) :
    sleepSeen (domSleep n st d) = (vModN d.pwr.dom n fun _ => st, d.pwr.sleepSlot) := by
  have h : sleepSeen (domLeaves n st (excUpdate (padsHold n d))) = sleepSeen d := by simp
  obtain ⟨hdom, hslot⟩ := Prod.mk.inj h
  rw [domSleep, sleepSeen_clocks, sleepSeen, domMove_pwr, hdom, hslot]

@[simp] theorem sleepSeen_domReturns (old : Nat) : sleepSeen (domReturns n old d) = sleepSeen d := by
  simp only [domReturns, when]
  repeat' split
  all_goals rfl

/-- A domain that a wake brings back is the only one that moves. -/
@[simp] theorem sleepSeen_domWake :
    sleepSeen (domWake n 1 d) = (vModN d.pwr.dom n fun _ => 0, d.pwr.sleepSlot) := by
  have h := sleepSeen_domReturns (domMove n 0 1 d) n (domState d n)
  simp only [domWake, sleepSeen_clocks]
  exact h

end

/-! ## Sleep (R498-R501) -/

/-- The last domains enter their states as they were asked to. -/
theorem sleepLast_dom {n : Nat} {d : Dev} (hn : n < 11) (a : Option Nat) :
    (∀ st, a = some st → domState (sleepLast n a d) n = st) ∧ (∀ m, m ≠ n → domState (sleepLast n a d) m = domState d m) ∧
      (sleepLast n a d).pwr.sleepSlot = d.pwr.sleepSlot := by
  cases a with
  | none => exact ⟨nofun, fun _ _ => rfl, rfl⟩
  | some st =>
    obtain ⟨hdom, hslot⟩ := Prod.mk.inj (sleepSeen_domSleep d n st)
    refine ⟨?_, fun m hm => ?_, hslot⟩
    · rintro _ ⟨⟩
      simp only [domState, sleepLast, pwrMod_pwr, hdom]
      exact vAt_vModN_same _ _ _ hn
    · simp only [domState, sleepLast, pwrMod_pwr, hdom]
      exact vAt_vModN_other _ _ _ (Ne.symm hm)

section
variable {d : Dev}

theorem sleepEntry_stays (h : d.pwr.sleepSlot = false) : sleepEntry d = d := if_pos (by simp [h])

/-- D6 enters its state and D1 follows. -/
theorem sleepEntry_enters (h : d.pwr.sleepSlot = true) : (sleepEntry d).pwr.sleepSlot = false ∧
    (∀ st, d.pwr.enterD6 = some st → domState (sleepEntry d) 6 = st) ∧
    (∀ st, d.pwr.enterD1 = some st → domState (sleepEntry d) 1 = st) := by
  rw [sleepEntry, if_neg (by simp [h])]
  obtain ⟨hsix, -, hslot⟩ := sleepLast_dom (n := 6) (by decide) d.pwr.enterD6
    (d := pwrMod (fun p => { p with sleepSlot := false, enterD6 := none, enterD1 := none }) d)
  obtain ⟨hone, hother, hslot'⟩ := sleepLast_dom (n := 1) (by decide) d.pwr.enterD1 (d := sleepLast 6 d.pwr.enterD6
    (pwrMod (fun p => { p with sleepSlot := false, enterD6 := none, enterD1 := none }) d))
  exact ⟨hslot'.trans hslot, fun st h6 => (hother 6 (by decide)).trans (hsix st h6), hone⟩

@[simp] theorem groomAbandon_pwr (b : Bool) : (groomAbandon b d).pwr = d.pwr := by
  simp only [groomAbandon]
  split <;> rfl

@[simp] theorem groomResume_pwr : (groomResume d).pwr = d.pwr := by
  simp only [groomResume]
  split <;> rfl

/-- The snapshot buffer keeps its bytes unless D3 goes OFF. -/
theorem snapAfter_keeps {s : State} (h : domState d 3 = 2 → domState s.dev 3 = 2) : snapAfter s d = s.snap := by
  refine if_neg fun hoff => ?_
  simp only [Bool.and_eq_true, bne_iff_ne, beq_iff_eq] at hoff
  exact hoff.1 (h hoff.2)

end

/-! ### SLEEP_REQ (R498-R501) -/

section
variable {c : Cmd} {d : Dev}

/-- The domains of `SLEEP_REQ`, asked one after another. -/
def sleepAsked (c : Cmd) (d : Dev) : Option (Nat × Nat) × Dev :=
  sleepAsk c.id (field c.payload 0 2) (field c.payload 2 2) askOrder (begin_ c.id (pwrMod (fun p =>
    { p with stopped := [], enterD6 := none, enterD1 := none, sleepSlot := false, sleepCmd := some c.id })
    (groomAbandon true d)))

theorem cmdSleepReq_range
    (h : sleepRange (groomAbandon true d) (field c.payload 0 2) (field c.payload 2 2) = true) :
    cmdSleepReq c d = complete c stRange 0 [] (groomResume (groomAbandon true d)) := if_pos h

section
variable (hok : sleepRange (groomAbandon true d) (field c.payload 0 2) (field c.payload 2 2) = false) {e : Dev}
include hok

theorem cmdSleepReq_agreed (h : sleepAsked c d = (none, e)) : cmdSleepReq c d = completeId c.id stOk 0
    (le 2 (domMask e.pwr.stopped + 64 * b2n e.pwr.enterD6.isSome + 2 * b2n e.pwr.enterD1.isSome)) e := by
  simp only [sleepAsked] at h
  simp only [cmdSleepReq, hok, Bool.false_eq_true, if_false, h]
  rfl

theorem cmdSleepReq_refused {n why : Nat} (h : sleepAsked c d = (some (n, why), e)) :
    cmdSleepReq c d = sleepRollback c n why e := by
  simp only [sleepAsked] at h
  simp only [cmdSleepReq, hok, Bool.false_eq_true, if_false, h]

end

end

/-! ## PAD_RELEASE (R502) -/

section
variable {c : Cmd} {d : Dev}

/-- The mask of `PAD_RELEASE`: 0 names every pad. -/
def padMask (c : Cmd) : Nat := if field c.payload 0 2 = 0 then 2 ^ 11 - 1 else field c.payload 0 2

/-- `PAD_RELEASE` names the pads of D8, and where it names every pad they are held. -/
def padD8 (c : Cmd) (d : Dev) : Bool := bitOf (padMask c) 8 && (field c.payload 0 2 != 0 || vAt d.pwr.pads 8 false)

/-- The pads a mask names are free, but those of D7 and D8. -/
def padsFreed (m : Nat) (d : Dev) : Dev := excUpdate (pwrMod (fun p =>
  { p with pads := Vector.ofFn fun n => p.pads.get n && (!bitOf m n || n.val == 7 || n.val == 8) }) d)

theorem cmdPadRelease_eq : cmdPadRelease c d =
    if 2 ^ 11 ≤ padMask c then complete c stRange 0 [] d
    else if padD8 c d && releaseBarred d then complete c stRefused 0x66 [] d
    else if padD8 c d then begin_ c.id (when ((padsFreed (padMask c) d).pwr.hold &&
      (padsFreed (padMask c) d).pwr.holdEnd == .padRelease) (askRelease { scope := 0, object := 0 } none)
        (padsFreed (padMask c) d))
    else complete c stOk 0 [] (padsFreed (padMask c) d) := by
  unfold cmdPadRelease
  extract_lets m0 m d8 d1 d2
  have hm : m = padMask c := rfl
  have h8 : d8 = padD8 c d := rfl
  have h1 : d1 = padsFreed m d := rfl
  have h2 : d2 = when (d1.pwr.hold && d1.pwr.holdEnd == .padRelease) (askRelease { scope := 0, object := 0 } none) d1 := rfl
  rw [h2, h1, h8, hm]
  rfl

theorem cmdPadRelease_range (h : 2 ^ 11 ≤ padMask c) : cmdPadRelease c d = complete c stRange 0 [] d := by
  rw [cmdPadRelease_eq, if_pos h]

section
variable (hm : padMask c < 2 ^ 11)
include hm

theorem cmdPadRelease_barred (h8 : padD8 c d = true) (hb : releaseBarred d = true) :
    cmdPadRelease c d = complete c stRefused 0x66 [] d := by
  rw [cmdPadRelease_eq, if_neg (Nat.not_le.2 hm), if_pos (by simp [h8, hb])]

theorem cmdPadRelease_frees (h8 : padD8 c d = false) :
    cmdPadRelease c d = complete c stOk 0 [] (padsFreed (padMask c) d) := by
  rw [cmdPadRelease_eq, if_neg (Nat.not_le.2 hm), if_neg (by simp [h8]), if_neg (by simp [h8])]

/-- The start-up hold is left to the release that ends it. -/
theorem cmdPadRelease_waits (h8 : padD8 c d = true) (hb : releaseBarred d = false) (hh : d.pwr.hold = false) :
    cmdPadRelease c d = begin_ c.id (padsFreed (padMask c) d) := by
  have hhold : (padsFreed (padMask c) d).pwr.hold = false := by rw [padsFreed, excUpdate_pwr, pwrMod_pwr, hh]
  rw [cmdPadRelease_eq, if_neg (Nat.not_le.2 hm), if_neg (by simp [hb]), if_pos h8, hhold]
  rfl

end

end

/-! ## Wake (R503, R504) and failures (R485, R496, R497) -/

section
variable {d : Dev}

theorem wake_wakes {src : Fin 6} {late : BitVec 11} (h : d.pwr.stopped ≠ []) (he : wakeEnabled d src = true) :
    wake src late d = wakeUp src late.toNat d := if_neg (by simp [h, he])

theorem wake_stays {src : Fin 6} {late : BitVec 11} (h : d.pwr.stopped = [] ∨ wakeEnabled d src = false) :
    wake src late d = d := if_pos (by simpa using h)

theorem brownoutLow_stays {ms : Nat} {late : BitVec 11} (h : d.pwr.lowPower = false) : brownoutLow ms late d = d :=
  if_pos (by simp [h])

theorem brownoutLow_wakes {ms : Nat} {late : BitVec 11} (h : d.pwr.lowPower = true) : brownoutLow ms late d =
    wakeUp 6 late.toNat (raise 6 0x9007 (subPath 9) (le 4 0 ++ le 4 ms) (setParam (addrOf kPwrLpAllow 0) [0]
      { d with pwr := { d.pwr with lowPower := false, lpBarred := true } })) := if_neg (by simp [h])

section
variable {unit : Fin 3} {link : Bool}

theorem wakeAttemptFail_stays (h : attempting d = false) : wakeAttemptFail unit link d = d := if_pos (by simp [h])

section
variable (h : attempting d = true)
include h

theorem wakeAttemptFail_retries (hr : d.pwr.wakeRetry < 3) : wakeAttemptFail unit link d =
    { d with pwr := { d.pwr with wakeRetry := d.pwr.wakeRetry + 1 } } :=
  (if_neg (by simp [h])).trans (if_pos hr)

theorem wakeAttemptFail_limps (hr : 3 ≤ d.pwr.wakeRetry) : wakeAttemptFail unit link d = enterLimp unit 0 4 link d :=
  (if_neg (by simp [h])).trans (if_neg (Nat.not_lt.2 hr))

end

end

/-- Limp mode leaves the clocks and the level at their least (log entry 39). -/
theorem enterLimp_leaves (unit dom attempts : Nat) (link : Bool) (d : Dev) :
    (enterLimp unit dom attempts link d).host.limp = true ∧ (enterLimp unit dom attempts link d).host.stage = 0xE0 ∧
    (enterLimp unit dom attempts link d).host.hrdy = link ∧ (enterLimp unit dom attempts link d).pwr.level = 0 ∧
    (enterLimp unit dom attempts link d).pwr.coreMv = 800 := by
  have hgns : ∀ d : Dev, (gnsLimp d).host = d.host ∧ (gnsLimp d).pwr = d.pwr := fun d => by
    simp only [gnsLimp, tqMove]
    split <;> exact ⟨rfl, rfl⟩
  unfold enterLimp
  extract_lets d1 d2 d3 time host lift svc d4
  obtain ⟨hhost, hpwr⟩ := hgns d4
  simp only [raise_host, raise_pwr, intSet, hhost, hpwr]
  exact ⟨rfl, rfl, rfl, rfl, rfl⟩

/-! ### A domain that does not return (R497) -/

section
variable {n : Fin 11}

theorem domainTimeout_stays {back : Bool} (h : domState d n ≠ 3) : domainTimeout n back d = d := if_pos (by simpa using h)

theorem domWake_snap (n : Nat) {s : State} (h : domState s.dev n = 3) : snapAfter s (domWake n 1 s.dev) = s.snap := by
  refine snapAfter_keeps fun h2 => ?_
  simp only [domState, (Prod.mk.inj (sleepSeen_domWake s.dev n)).1] at h2
  by_cases hn : n = 3
  · subst hn
    rw [vAt_vModN_same _ _ _ (by decide)] at h2
    exact absurd h2 (by decide)
  · rwa [vAt_vModN_other _ _ _ hn] at h2

section
variable (h : domState d n = 3)
include h

theorem domainTimeout_returns : domainTimeout n true d = domWake n 1 d := if_neg (by simp [h])

theorem domainTimeout_retries (hr : vAt d.pwr.domRetry n 0 < 3) : domainTimeout n false d =
    pwrMod (fun p => { p with domRetry := p.domRetry.set n (vAt d.pwr.domRetry n 0 + 1) }) d := by
  simp only [domainTimeout, if_neg (show ¬ ((domState d n != 3) = true) by simp [h]), Bool.false_eq_true, if_false,
    if_pos (show vAt d.pwr.domRetry n 0 + 1 < 4 by omega)]

/-- After the third retry the domain stays OFF. -/
theorem domainTimeout_off (hr : 3 ≤ vAt d.pwr.domRetry n 0) (hn : n ≠ 1) :
    domState (domainTimeout n false d) n = 2 ∧ vAt (domainTimeout n false d).pwr.domDead n false = true := by
  have heq : ∃ e : PwrSt, (domainTimeout n false d).pwr =
      { e with dom := e.dom.set n 2, domDead := e.domDead.set n true } := by
    simp only [domainTimeout, if_neg (show ¬ ((domState d n != 3) = true) by simp [h]), Bool.false_eq_true, if_false,
      if_neg (show ¬ (vAt d.pwr.domRetry n 0 + 1 < 4) by omega), if_neg hn]
    exact ⟨_, rfl⟩
  obtain ⟨e, heq⟩ := heq
  simp [domState, heq, vAt]

end

end

end

end Sys2Proof.Machine

namespace Sys2Proof
open Machine

section
variable {s : State} {id : CmdId} {c : Cmd}

/-- `SLEEP_REQ` moves the device by its meaning, and the snapshot buffer is EMPTY as D3 goes OFF. -/
theorem sleepReq_runs (hr : Ready s id 0x1901 c) {e : Dev} (h : cmdSleepReq c s.dev = e) :
    exec (.sleepReq id) s = .next { s with snap := snapAfter s e, dev := e } := by
  obtain ⟨hlive, hop, hstart⟩ := hr
  show Host.Outcome.next _ = _
  rw [withCmd_runs hlive hop hstart, h]

end

section
variable {s : State} {n : Fin 11} {back : Bool}

theorem domainReturn_runs : exec (.domainReturnTimeout n back) s = .next (takeAll (settle
    { s with snap := snapAfter s (domainTimeout n back s.dev), dev := domainTimeout n back s.dev })) := rfl

/-- A domain that does not go OFF leaves the snapshot buffer. -/
theorem domainReturn_takes {e : Dev} (h : domainTimeout n back s.dev = e) (hs : snapAfter s e = s.snap) :
    Takes (.domainReturnTimeout n back) s e := by
  rw [Takes, domainReturn_runs, h, hs]

end

/-- Settles O56: the commands answer by their branches, and a domain that sleeps or wakes is the only one that moves
(`sleepSeen`). Limp mode's level is log entry 39, 0x66 and a result of 0 without D8 are log entry 106, and that attempts
count together over the domains is log entry 107. -/
theorem sleepAndWake : Obligations.SleepAndWake := by
  refine ⟨fun s id c hr => ⟨fun hrange => ?range, fun hok hagree => ?agree, fun n why hok hno => ?rollback⟩,
    fun s => ⟨fun h => ?noEntry, fun h => ?entry⟩,
    fun s id c hr => ⟨fun hm => ?padRange, fun hm h8 hb => ?barred, fun hm h8 => ?frees, fun hm h8 hb hh => ?waits⟩,
    fun s src late ms unit link => ⟨fun hs he => ?wakes, fun h => ?noWake, fun h => ?brownout, fun h => ?noBrownout,
      fun h => ?noAttempt, fun h hr => ?retry, fun h hr => ?limp⟩,
    fun s n back => ⟨fun h => ?steady, fun h => ⟨?returns, fun hr => ?again, fun hr hn => ?off⟩⟩⟩
  case range =>
    have hsnap : snapAfter s (complete c stRange 0 [] (groomResume (groomAbandon true s.dev))) = s.snap :=
      snapAfter_keeps fun h2 => by rwa [domState, complete_pwr, groomResume_pwr, groomAbandon_pwr] at h2
    rw [Moves, sleepReq_runs hr (cmdSleepReq_range hrange), hsnap]
  case agree => exact sleepReq_runs hr (cmdSleepReq_agreed hok (Prod.ext hagree rfl))
  case rollback => exact sleepReq_runs hr (cmdSleepReq_refused hok (Prod.ext hno rfl))
  case noEntry => exact stays_of_quiet Machine.sleepEntry rfl (sleepEntry_stays h)
  case entry => exact ⟨_, moves_of_quiet Machine.sleepEntry rfl rfl, sleepEntry_enters h⟩
  case padRange => exact moves_of_ready cmdPadRelease rfl hr (cmdPadRelease_range hm)
  case barred => exact moves_of_ready cmdPadRelease rfl hr (cmdPadRelease_barred hm h8 hb)
  case frees => exact moves_of_ready cmdPadRelease rfl hr (cmdPadRelease_frees hm h8)
  case waits => exact moves_of_ready cmdPadRelease rfl hr (cmdPadRelease_waits hm h8 hb hh)
  case wakes => exact takes_of_taking (Machine.wake src late) rfl (wake_wakes hs he)
  case noWake => exact takes_of_taking (Machine.wake src late) rfl (wake_stays h)
  case brownout => exact takes_of_taking (brownoutLow ms late) rfl (brownoutLow_wakes h)
  case noBrownout => exact takes_of_taking (brownoutLow ms late) rfl (brownoutLow_stays h)
  case noAttempt => exact takes_of_taking (Machine.wakeAttemptFail unit link) rfl (wakeAttemptFail_stays h)
  case retry => exact takes_of_taking (Machine.wakeAttemptFail unit link) rfl (wakeAttemptFail_retries h hr)
  case limp =>
    exact ⟨_, takes_of_taking (Machine.wakeAttemptFail unit link) rfl (wakeAttemptFail_limps h hr), enterLimp_leaves ..⟩
  case steady => exact domainReturn_takes (domainTimeout_stays h) (snapAfter_keeps fun h2 => h2)
  case returns => exact domainReturn_takes (domainTimeout_returns h) (domWake_snap n h)
  case again => exact domainReturn_takes (domainTimeout_retries h hr) (snapAfter_keeps fun h2 => h2)
  case off => exact ⟨_, domainReturn_runs, domainTimeout_off h hr hn⟩

end Sys2Proof
end

section
/-!
The power state outlasts what parameters, their words and the services do: values at their boundaries, words of the PAIRED store
that are repaired or lost (R46-R51, R88).
-/
namespace Sys2Proof.Machine

section
variable (d : Dev)

@[simp] theorem pinPut_pwr (n v : Nat) : (pinPut n v d).pwr = d.pwr := pwr_of_ladder (ladder_pinPut d n v)
@[simp] theorem blockClose_pwr (i : Fin 2) : (blockClose i d).pwr = d.pwr := pwr_of_ladder (ladder_blockClose d i)
@[simp] theorem wakeAll_pwr : (wakeAll d).pwr = d.pwr := pwr_of_ladder (ladder_wakeAll d)
@[simp] theorem vlvShed_pwr (n : Fin 16) : (vlvShed n d).pwr = d.pwr := pwr_of_ladder (ladder_vlvShed d n)
@[simp] theorem endNever_pwr (n : Fin 16) (cause : Nat) : (endNever n cause d).pwr = d.pwr :=
  pwr_of_ladder (ladder_endNever d n cause)
@[simp] theorem startDecay_pwr (n : Fin 16) (fast on : Bool) : (startDecay n fast on d).pwr = d.pwr :=
  pwr_of_ladder (ladder_startDecay d n fast on)

/-! ## Loops (R304, R329) -/

@[simp] theorem ctlTrans_pwr (i : LI) (f : CtlInst → CtlInst) : (ctlTrans i f d).pwr = d.pwr := by
  simp only [ctlTrans, ctlTransAt]
  split <;> rfl

@[simp] theorem ctlStop_pwr (i : LI) : (ctlStop i d).pwr = d.pwr := ctlTrans_pwr _ i _

@[simp] theorem ctlBegin_pwr (i : LI) (mode : Nat) : (ctlBegin i mode d).pwr = d.pwr := by
  simp only [ctlBegin]
  split
  · rfl
  · rw [ctlTrans_pwr]
    split <;> rfl

@[simp] theorem ctlWriteOut_pwr (w : Nat) (v : Int) : (ctlWriteOut w v d).pwr = d.pwr := by
  simp only [ctlWriteOut]
  repeat' split
  all_goals rfl

@[simp] theorem fallbackWritten_pwr (i : LI) (o : Nat) : (fallbackWritten i o d).pwr = d.pwr := by
  simp only [fallbackWritten]
  split
  · exact ctlWriteOut_pwr _ _ _
  · rfl

@[simp] theorem ctlFallback_pwr (i : LI) (cause : Nat) : (ctlFallback i cause d).pwr = d.pwr := by
  simp only [ctlFallback, ctlFallbackAt, ctlWriteAll]
  split
  · exact ctlTrans_pwr d i _
  · rw [forEach_keeps (·.pwr) (fun o d => ctlWriteOut_pwr d _ _)]
    exact ctlTrans_pwr d i _

/-! ## The hooks of the blocks (R88) -/

@[simp] theorem fioHook_pwr (a : Nat) : (fioHook a d).pwr = d.pwr := by
  simp only [fioHook]
  repeat' split
  all_goals rfl

@[simp] theorem afeSettings_pwr (ch : Fin 32) : (afeSettings ch d).pwr = d.pwr := by
  simp only [afeSettings]
  split <;> rfl

@[simp] theorem afeHook_pwr (a : Nat) : (afeHook a d).pwr = d.pwr := by
  simp only [afeHook]
  repeat' split
  · rfl
  · rfl
  · exact afeSettings_pwr d _
  · exact afeSettings_pwr _ _
  · exact afeSettings_pwr d _
  · rfl
  · rfl

@[simp] theorem dlxHook_pwr (a : Nat) : (dlxHook a d).pwr = d.pwr := by
  have hsteps : ∀ xs d, (forEach xs (fun (x : CalStep) d => completeId x.cmd stRefused 0x31 [] d) d).pwr = d.pwr :=
    fun xs d => forEach_keeps (·.pwr) (fun x d => completeId_pwr d _ _ _ _) xs d
  simp only [dlxHook]
  repeat' split
  all_goals simp [hsteps]

@[simp] theorem vlvCut_pwr (n : Fin 16) : (vlvCut n d).pwr = d.pwr := by
  simp only [vlvCut]
  repeat' split
  all_goals simp [nextEnds]

@[simp] theorem vlvRest_pwr (n : Fin 16) : (vlvRest n d).pwr = d.pwr := rfl
@[simp] theorem openProp_pwr (n : Fin 16) (v : Nat) : (openProp n v d).pwr = d.pwr := rfl

@[simp] theorem vlvHook_pwr (a : Nat) : (vlvHook a d).pwr = d.pwr := by
  simp only [vlvHook]
  split
  · simp [apply_ite Dev.pwr]
  · rfl

@[simp] theorem ctlHook_pwr (a : Nat) : (ctlHook a d).pwr = d.pwr := by
  simp only [ctlHook]
  repeat' split
  all_goals simp

@[simp] theorem txComplete_pwr (ch : Fin 2) (e : TxEntry) (st dl dt : Nat) : (txComplete ch e st dl dt d).pwr = d.pwr := by
  simp only [txComplete, irqCheck]
  split <;> rfl

@[simp] theorem busHook_pwr (a : Nat) : (busHook a d).pwr = d.pwr := by
  have hfail : ∀ ch d, (failOneShots ch 1 d).pwr = d.pwr := fun ch d =>
    forEach_keeps (·.pwr) (fun e d => txComplete_pwr d ch e _ _ _) _ d
  have hmode : ∀ ch d, (busModeHook ch d).pwr = d.pwr := fun ch d => by
    simp only [busModeHook]
    repeat' split
    · rfl
    · rfl
    · exact hfail ch _
    · exact hfail ch _
  simp only [busHook]
  repeat' split
  · exact hmode _ d
  all_goals rfl

@[simp] theorem gnsHook_pwr (a : Nat) : (gnsHook a d).pwr = d.pwr := by
  simp only [gnsHook]
  repeat' split
  · rfl
  · exact toHoldover_pwr _
  all_goals rfl

@[simp] theorem allHook_pwr (a : Nat) : (allHook a d).pwr = d.pwr := by
  simp only [allHook]
  split <;> simp

@[simp] theorem applyValue_pwr (a : Nat) (ws : List Word) : (applyValue a ws d).pwr = d.pwr := by
  simp only [applyValue]
  repeat' split
  all_goals rfl

@[simp] theorem completeSuperseded_pwr (id : CmdId) (x : List Byte) : (completeSuperseded id x d).pwr = d.pwr := by
  simp only [completeSuperseded]
  repeat' split
  all_goals rfl

theorem applyWaits_pwr (ws : List Wait) (d : Dev) : (applyWaits allHook ws d).pwr = d.pwr := by
  induction ws generalizing d with
  | nil => rfl
  | cons w rest ih =>
    simp only [applyWaits]
    repeat' split
    all_goals simp [ih]

/-- Values that reach their boundary leave the power state. -/
@[simp] theorem atBoundary_pwr (p : Wait → Bool) : (atBoundary p d).pwr = d.pwr := applyWaits_pwr _ _

/-! ## The services (R347, R387) -/

@[simp] theorem svcWrite_pwr (key inst : Nat) (w : Word) (b : Boundary) : (svcWrite key inst w b d).pwr = d.pwr := by
  simp only [svcWrite]
  split <;> rfl

@[simp] theorem loopLimits_pwr (li : Nat) (lo hi : Int) : (loopLimits li lo hi d).pwr = d.pwr := by
  simp only [loopLimits]
  split <;> simp

@[simp] theorem loopEnable_pwr (li v : Nat) : (loopEnable li v d).pwr = d.pwr := by
  simp only [loopEnable]
  split
  · exact ctlHook_pwr _ _
  · rfl

@[simp] theorem rollStop_pwr (i : Fin 6) : (rollStop i d).pwr = d.pwr := by
  simp only [rollStop]
  split <;> simp

@[simp] theorem chainKill_pwr (c : Nat) : (chainKill c d).pwr = d.pwr := by
  simp only [chainKill]
  split
  · exact forEach_keeps (·.pwr) (fun n d => pwr_of_ladder (ladder_convOff d n)) _ _
  · rfl

@[simp] theorem burnersOff_pwr (i : Fin 6) : (burnersOff i d).pwr = d.pwr :=
  forEach_keeps (·.pwr) (fun b d => pwr_of_ladder (ladder_brnOff d b)) _ d

@[simp] theorem dryLotClose_pwr (i : Fin 6) (aborted : Bool) : (dryLotClose i aborted d).pwr = d.pwr := by
  simp only [dryLotClose]
  repeat' split
  all_goals rfl

@[simp] theorem dryEnd_pwr (i : Fin 6) (phase cause : Nat) (aborted : Bool) :
    (dryEnd i phase cause aborted d).pwr = d.pwr := by
  simp only [dryEnd]
  show (forEach _ _ _).pwr = d.pwr
  rw [forEach_keeps (·.pwr)]
  · exact dryLotClose_pwr _ _ _
  · intro b d
    rw [pinPut_pwr, loopLimits_pwr]
    rfl

@[simp] theorem dryAbort_pwr (i : Fin 6) : (dryAbort i d).pwr = d.pwr := by
  simp only [dryAbort]
  split <;> simp

/-! ## Words of the PAIRED store (R47, R51) -/

@[simp] theorem loopSafe_pwr (i : LI) : (loopSafe i d).pwr = d.pwr := by
  simp only [loopSafe, when]
  split
  · exact ctlFallback_pwr d i 3
  · rfl

@[simp] theorem servicesSafe_pwr : (servicesSafe d).pwr = d.pwr := by
  simp only [servicesSafe]
  split
  · rw [forEach_keeps (·.pwr), forEach_keeps (·.pwr) (fun b d => pwr_of_ladder (ladder_brnOff d b)),
      forEach_keeps (·.pwr) (fun i d => dryAbort_pwr d i)]
    exact fun i d => blockClose_pwr _ i
  · rw [forEach_keeps (·.pwr) (fun b d => pwr_of_ladder (ladder_brnOff d b)),
      forEach_keeps (·.pwr) (fun i d => dryAbort_pwr d i)]

@[simp] theorem askSafe_pwr (sc : Scope) (cause : Nat) (cmd : Option CmdId) : (askSafe sc cause cmd d).pwr = d.pwr := by
  simp only [askSafe, cancelReleases]
  rw [forEach_keeps (·.pwr)]
  · rfl
  · intro r d
    split
    · exact completeId_pwr d _ _ _ _
    · rfl

@[simp] theorem pairSafe_pwr (a : Nat) : (pairSafe a d).pwr = d.pwr := by
  have hasks : (forEach (pairScopes a) (fun sc d => askSafe sc 1 none d) d).pwr = d.pwr :=
    forEach_keeps (·.pwr) (fun sc d => askSafe_pwr d sc 1 none) _ d
  simp only [pairSafe]
  repeat' split
  all_goals simp [hasks]

@[simp] theorem pairFirst_pwr (a : Nat) : (pairFirst a d).pwr = d.pwr := by
  simp only [pairFirst]
  split <;> rfl

@[simp] theorem pairLost_pwr (p : Fin 8) (a : Nat) : (pairLost p a d).pwr = d.pwr := by
  simp only [pairLost]
  repeat' split
  · rfl
  · exact pairFirst_pwr _ a
  · rfl
  · exact pairSafe_pwr _ a

@[simp] theorem pairFix_pwr (p : Fin 8) (a : Nat) : (pairFix p a d).pwr = d.pwr := by
  simp only [pairFix]
  repeat' split
  · rfl
  · rfl
  · rfl
  · rfl
  · rfl
  · exact pairLost_pwr d p a
  · exact pairLost_pwr d p a

end

/-! ## The housekeeping round (R515, R519, R537-R540) -/

section
variable (d : Dev)

theorem doubleFault_pwr (k : Nat) : (doubleFault k d).pwr = d.pwr := rfl

@[simp] theorem refsRound_pwr (r : Vector Int 3) : (refsRound r d).pwr = d.pwr := by
  simp only [refsRound, hltMod_pwr, refsJudge]
  repeat' split
  · refine forEach_keeps (·.pwr) (fun k d => ?_) _ d
    repeat' split
    all_goals rfl
  all_goals rfl

theorem sensorTake_pwr (now : List Int) (k : Nat) (s : Fin 14) : (sensorTake now k s d).pwr = d.pwr := rfl

theorem sensorSubst_pwr (was : Bool) (s : Fin 14) : (sensorSubst was s d).pwr = d.pwr := by
  simp only [sensorSubst]
  repeat' split
  all_goals rfl

@[simp] theorem sensorsRound_pwr (die : Nat) (now : List Int) : (sensorsRound die now d).pwr = d.pwr := by
  have htaken : ∀ xs d, (forEach xs (fun (x : Fin 14 × Nat) d => sensorTake now x.2 x.1 d) d).pwr = d.pwr :=
    fun xs d => forEach_keeps (·.pwr) (fun x d => sensorTake_pwr d now x.2 x.1) xs d
  have hsubst : ∀ xs d, (forEach xs (fun (x : Fin 14 × Bool) d => sensorSubst x.2 x.1 d) d).pwr = d.pwr :=
    fun xs d => forEach_keeps (·.pwr) (fun x d => sensorSubst_pwr d _ _) xs d
  simp only [sensorsRound]
  split
  · rw [doubleFault_pwr, hsubst, htaken]
  · rw [hsubst, htaken]

/-! ### The throttle keeps the margins that it judges (R539) -/

/-- What the throttle judges: the margin of the round, each sensor's own, and the power state. -/
def heat (d : Dev) : Int × (Fin 14 → Int) × PwrSt := (d.hlt.margin, ownMargin d, d.pwr)

theorem heat_parts {d e : Dev} (h : heat e = heat d) :
    e.hlt.margin = d.hlt.margin ∧ marginNow e = marginNow d ∧ e.pwr = d.pwr := by
  obtain ⟨hm, hrest⟩ := Prod.mk.inj h
  obtain ⟨hown, hp⟩ := Prod.mk.inj hrest
  exact ⟨hm, by rw [marginNow, marginNow, hown], hp⟩

/-- A warning that is given or taken back is no part of a sensor's margin. -/
theorem heat_warn (v : Vector SensorSt 14) (h : ∀ s, ∃ w, v.get s = { d.hlt.sensors.get s with warn := w }) :
    heat (hltMod (fun h => { h with sensors := v }) d) = heat d := by
  have hown : ownMargin (hltMod (fun h => { h with sensors := v }) d) = ownMargin d := by
    funext s
    obtain ⟨w, hw⟩ := h s
    simp only [ownMargin, hltMod, hw]
  rw [heat, hown]
  rfl

theorem heat_throttleActs (old new : Nat) : heat (throttleActs old new d) = heat d := by
  unfold throttleActs
  extract_lets d1 floor d2
  have hcap : heat d2 = heat d := by
    show heat (if _ then _ else _) = _
    split <;> rfl
  split
  · exact (heat_warn d2 _ fun s => ⟨false, by simp⟩).trans hcap
  · exact hcap

theorem heat_throttleTo (new : Nat) : heat (throttleTo new d) = heat d := heat_throttleActs (hltMod _ d) _ new

theorem heat_throttleUp (n : Nat) (d : Dev) : heat (throttleUp n d) = heat d := by
  induction n generalizing d with
  | zero => rfl
  | succ n ih =>
    simp only [throttleUp]
    split
    · rw [ih, heat_throttleTo]
    · rfl

theorem heat_throttleDown (n : Nat) (d : Dev) : heat (throttleDown n d) = heat d := by
  induction n generalizing d with
  | zero => rfl
  | succ n ih =>
    simp only [throttleDown]
    split
    · rw [ih, heat_throttleTo]
    · rfl

theorem heat_tempWarn : heat (tempWarn d) = heat d := by
  simp only [tempWarn]
  split
  · rfl
  · refine forEach_keeps heat (fun s d => ?_) _ d
    refine heat_warn d (d.hlt.sensors.set s { d.hlt.sensors.get s with warn := true }) fun t => ?_
    by_cases h : s = t
    · subst h
      exact ⟨true, vSet_get_same ..⟩
    · exact ⟨_, vSet_get_other _ _ h⟩

/-- The round leaves the margin that its sensors have. -/
theorem throttleRound_margin : (throttleRound d).hlt.margin = marginNow (throttleRound d) ∧ (throttleRound d).pwr = d.pwr := by
  have hheat := (heat_tempWarn _).trans ((heat_throttleDown 4 _).trans (heat_throttleUp 4 (hltMod (fun h =>
    { h with
      margin := marginNow d
      thrBelow := Vector.ofFn fun k => if decide (marginNow d ≤ stepMargin d (k.val + 1)) then h.thrBelow.get k + 1 else 0
      thrAbove := Vector.ofFn fun k => if decide (stepMargin d (k.val + 1) + 500 < marginNow d) then h.thrAbove.get k + 1
        else 0 }) d)))
  obtain ⟨hmargin, hnow, hpwr⟩ := heat_parts hheat
  exact ⟨hmargin.trans hnow.symm, hpwr⟩

end

end Sys2Proof.Machine
end

section
/-!
Health: the housekeeping round, the thermal cap, the supervisors, Patrol, uncorrectable errors and quarantine (R515-R531, R540).
-/
namespace Sys2Proof.Machine

/-! ## The housekeeping round (R515, R520) -/

section
variable (d : Dev)

theorem healthRefresh_host : HostMoved d (healthRefresh d) := by
  simp only [healthRefresh]
  split
  · exact ⟨d.host, rfl⟩
  · exact ⟨_, rfl⟩

@[simp] theorem healthCheck_hlt : (healthCheck d).hlt = d.hlt := by
  obtain ⟨_, h⟩ := healthCheck_host d
  rw [h]

@[simp] theorem healthCheck_gate : (healthCheck d).gate = d.gate := by
  obtain ⟨_, h⟩ := healthCheck_host d
  rw [h]

/-- A mirror that is refreshed leaves what the round has judged. -/
theorem heat_healthRefresh : heat (healthRefresh d) = heat d := by
  obtain ⟨_, h⟩ := healthRefresh_host d
  rw [h]
  rfl

end

section
variable {r : HouseRound} {d : Dev}

theorem houseRound_stays (h : d.pwr.powered = false) : houseRound r d = d := if_pos (by simp [h])

theorem houseRound_runs (h : d.pwr.powered = true) : (houseRound r d).pwr.vlog = r.vlogMv ∧
    (houseRound r d).hlt.margin = marginNow (houseRound r d) := by
  have hpairs : ∀ xs d, (forEach xs (pairFix 1) d).pwr = d.pwr := fun xs d =>
    forEach_keeps (·.pwr) (fun a d => pairFix_pwr d 1 a) xs d
  unfold houseRound
  rw [if_neg (by simp [h])]
  extract_lets d1 d2 d3 d4 d5 d6 d7
  have h1 : d1.pwr.vlog = r.vlogMv := by rw [atBoundary_pwr, pwrMod_pwr]
  have h3 : d3.pwr = d1.pwr := hpairs _ d2
  have h4 : d4.pwr = d1.pwr := by
    show Dev.pwr (if _ then _ else _) = _
    split
    · rfl
    · split <;> exact h3
  have h7 : d7.pwr = d1.pwr := by rw [sensorsRound_pwr, sensorsRound_pwr, refsRound_pwr, h4]
  obtain ⟨hmargin, hpwr⟩ := throttleRound_margin d7
  obtain ⟨hkept, hnow, hpwr'⟩ := heat_parts (heat_healthRefresh (throttleRound d7))
  exact ⟨by rw [hpwr', hpwr, h7, h1], by rw [hkept, hnow, hmargin]⟩

end

/-! ## A demand that begins (R517) -/

section
variable (d : Dev)

@[simp] theorem askSafe_hlt (sc : Scope) (cause : Nat) (cmd : Option CmdId) : (askSafe sc cause cmd d).hlt = d.hlt := by
  simp only [askSafe, cancelReleases]
  rw [forEach_keeps (·.hlt)]
  · rfl
  · intro r d
    split
    · exact completeId_hlt d _ _ _ _
    · rfl

/-- A cause that is raised stands in the demand. -/
theorem demandBegin_stands {k : Fin 4} (h : d.hlt.causes.get k = true → d.hlt.demand = true) :
    (demandBegin k d).hlt.demand = true ∧ (demandBegin k d).hlt.causes.get k = true := by
  simp only [demandBegin]
  split
  · next hk => exact ⟨h hk, hk⟩
  · simp

end

/-! ## The thermal cap (R540) -/

section
variable {d : Dev}

theorem capStep_off (h : d.hlt.capOn = false) : capStep d = d := if_pos (by simp [h])

section
variable (h : d.hlt.capOn = true)
include h

theorem capStep_rises (h3 : 3 ≤ d.hlt.thrStep) (hm : d.hlt.capMargin + 100 ≤ d.hlt.margin) :
    capStep d = { d with hlt := { d.hlt with capMargin := d.hlt.margin } } := by
  rw [capStep, if_neg (by simp [h]), if_pos h3]
  exact if_pos hm

theorem capStep_falls (h3 : 3 ≤ d.hlt.thrStep) (hm : d.hlt.margin < d.hlt.capMargin + 100)
    (hl : (if anyLoopRuns d then 1 else 0) < d.hlt.capLevel) :
    capStep d = { d with hlt := { d.hlt with capLevel := d.hlt.capLevel - 1, capMargin := d.hlt.margin } } := by
  rw [capStep, if_neg (by simp [h]), if_pos h3]
  refine (if_neg (Int.not_le.2 hm)).trans ?_
  rw [hltMod, if_pos hl]

theorem capStep_ends (h3 : d.hlt.thrStep < 3) : (capStep d).hlt.capLevel = min 3 (d.hlt.capLevel + 1) := by
  simp only [capStep, h, Bool.not_true, Bool.false_eq_true, if_false, if_neg (Nat.not_le.2 h3), hltMod]

end

end

/-! ## Supervisors (R523, R524, R531) -/

section
variable {d : Dev}

/-- The unit that takes a role over is in use. -/
theorem crossover_new {old new role : Nat} (h : new < 52) : (unitOf (crossover old new role d) new).st = 0 := by
  have hunits : ∃ us : Vector UnitSt 52, (crossover old new role d).hlt.units =
      vModN us new fun u => { u with st := 0, role := role } := by
    simp only [crossover, advanceEpoch]
    split <;> exact ⟨_, rfl⟩
  obtain ⟨us, hus⟩ := hunits
  rw [unitOf, hus, vAt_vModN_same _ _ _ h]

/-- The unit that stands by is one of three; where the pair runs in lockstep, it is SC. -/
theorem standby_some {new : Nat} (h : standby d = some new) : new < 52 ∧ (lockstep d = true → new ≠ 1) := by
  have hst : ∀ {u : Nat}, (unitOf d u).st = 1 → (unitOf d u).st ≠ 0 := by omega
  simp only [standby] at h
  split at h
  · split at h
    · cases h
      exact ⟨by decide, fun _ => by decide⟩
    · cases h
  · split at h
    · cases h
      exact ⟨by decide, fun _ => by decide⟩
    · split at h
      · next hone =>
        cases h
        refine ⟨by decide, fun hpair => ?_⟩
        simp only [lockstep, Bool.and_eq_true, beq_iff_eq, decide_eq_true_eq] at hpair hone
        exact absurd hpair.2 (hst hone.1)
      · cases h

/-- The unit that stands by becomes the active supervisor. -/
theorem supMove_moves {new : Nat} (h : standby d = some new) :
    (unitOf (supMove new d) new).st = 0 ∧ (supMove new d).hlt.supSingle = true := by
  obtain ⟨hlt, hone⟩ := standby_some h
  refine ⟨?_, rfl⟩
  simp only [supMove]
  split
  · next hpair =>
    exact (congrArg UnitSt.st (vAt_vModN_other (crossover _ new 0 d).hlt.units _ _ (hone hpair).symm)).trans
      (crossover_new hlt)
  · exact crossover_new hlt

theorem supFault_moves {new : Nat} (hp : d.pwr.powered = true) (hl : d.hlt.patrolLost = false) (h : standby d = some new) :
    supFault d = supMove new d := by
  rw [supFault, if_neg (by simp [hp, hl]), h]

theorem supFault_unseen (h : d.pwr.powered = false ∨ d.hlt.patrolLost = true) : supFault d = d := if_pos (by simpa using h)

section
variable {us : Nat} {differs : Bool}

theorem mismatch_unseen (h : mismatchSeen d = false) : mismatch us differs d = d := if_pos (by simp [h])

section
variable (h : mismatchSeen d = true)
include h

theorem mismatch_persists (hp : mismatchPersists differs d = true) : mismatch us differs d = supFault d := by
  rw [mismatch, if_neg (by simp [h]), if_pos hp]

theorem mismatch_rolledBack (hp : mismatchPersists differs d = false) : mismatch us differs d = rollback us d := by
  rw [mismatch, if_neg (by simp [h]), if_neg (by simp [hp])]

end

end

theorem rollback_counts (us : Nat) (d : Dev) :
    (rollback us d).hlt.rollback = some d.time.tick ∧ (rollback us d).hlt.rollbacks = d.hlt.rollbacks + 1 := ⟨rfl, rfl⟩

/-- With no unit standing by the control die resets with a demand. -/
theorem supDouble_resets (h : d.hlt.causes.get 0 = true → d.hlt.demand = true) :
    (supDouble d).host.cause = 0x04 ∧ (supDouble d).hlt.demand = true := by
  obtain ⟨hhost, -, -, hdemand, -, -⟩ := controlReset_leaves 0x04 (demandBegin 0 (doubleFault 0 d))
  obtain ⟨hstands, -⟩ := demandBegin_stands (doubleFault 0 d) (k := 0) h
  rw [supDouble, hhost, hdemand, hstands]
  exact ⟨rfl, rfl⟩

end

/-! ## Patrol's own failure (R516) -/

section
variable {d : Dev}

theorem patrolStall_lost (h : d.hlt.patrolLost = true) : patrolStall d = d := if_pos h

theorem patrolStall_givesUp {r : Nat} (h : d.hlt.patrolLost = false) (hr : d.hlt.patrolRestart = some r)
    (ht : d.time.tick - r ≤ 3600000) : (patrolStall d).hlt.patrolLost = true := by
  simp only [patrolStall, h, Bool.false_eq_true, if_false, hr]
  rw [if_pos (decide_eq_true (show d.time.tick - r ≤ ticksHour from ht)), healthCheck_hlt]
  rfl

theorem patrolStall_restarts (h : d.hlt.patrolLost = false)
    (hr : ∀ r, d.hlt.patrolRestart = some r → 3600000 < d.time.tick - r) :
    (patrolStall d).hlt.patrolLost = false ∧ (patrolStall d).hlt.patrolRestart = some d.time.tick := by
  cases hs : d.hlt.patrolRestart with
  | none =>
    simp only [patrolStall, h, Bool.false_eq_true, if_false, hs]
    exact ⟨h, rfl⟩
  | some r =>
    have hlate : ¬ (decide (d.time.tick - r ≤ ticksHour) = true) := by
      rw [decide_eq_true_eq]
      exact Nat.not_le.2 (hr r hs)
    simp only [patrolStall, h, Bool.false_eq_true, if_false, hs]
    rw [if_neg hlate]
    exact ⟨h, rfl⟩

end

/-! ## Uncorrectable errors (R518) -/

section
variable {d : Dev} {region : Fin 9} {addr : BitVec 32} {other : Bool}

/-- The device with an uncorrectable error raised and counted. -/
def eccCounted (region : Fin 9) (addr : BitVec 32) (d : Dev) : Dev :=
  hltCount 1 1 (raise 6 0xA003 (mkPath 0xA 2 0xFFFFFF) (le 4 addr.toNat ++ le 1 region) d)

theorem eccError_noted (h : region = 6 ∨ (region = 7 ∧ other = true)) :
    eccError region addr other d = eccCounted region addr d := by
  rcases h with rfl | ⟨rfl, rfl⟩ <;> rfl

theorem eccError_word (h : region = 4 ∨ region = 5) : eccError region addr other d =
    { eccCounted region addr d with host := { (eccCounted region addr d).host with
      badWords := addr.toNat / 4 * 4 :: (eccCounted region addr d).host.badWords.filter (· != addr.toNat / 4 * 4) } } := by
  rcases h with rfl | rfl <;> rfl

theorem eccError_rollsBack (h : region = 3 ∨ (region = 7 ∧ other = false)) :
    eccError region addr other d = eccRollback (eccCounted region addr d) := by
  rcases h with rfl | ⟨rfl, rfl⟩ <;> rfl

end

/-! ## Quarantine (R527) -/

section
variable {u : Fin 52} {passed : Bool} {d : Dev}

theorem quarantineDone_stays (h : (unitOf d u).st ≠ 2 ∨ d.hlt.patrolLost = true) : quarantineDone u passed d = d :=
  if_pos (by simpa using h)

@[simp] theorem supSettled_units (d : Dev) : (supSettled d).hlt.units = d.hlt.units := by
  simp only [supSettled]
  split <;> rfl

/-- A spare of any block but the supervisors' leaves the units as they are. -/
theorem spareAgain_units {u : Nat} (h : 3 ≤ u) (d : Dev) : (spareAgain u d).hlt.units = d.hlt.units := by
  rw [spareAgain, if_neg (Nat.not_lt.2 h)]
  repeat' split
  all_goals rfl

/-- The unit of a test that has ended. -/
theorem unitOf_tested (d : Dev) : unitOf (healthCheck (supSettled d)) u = unitOf d u := by
  rw [unitOf, healthCheck_hlt, supSettled_units]
  rfl

section
variable (h : (unitOf d u).st = 2) (hl : d.hlt.patrolLost = false)
include h hl

theorem quarantineDone_retires (hp : passed = false ∨ (unitOf d u).again = true) :
    (unitOf (quarantineDone u passed d) u).st = 3 := by
  have hfails : ¬ ((passed && !(unitOf d u).again) = true) := by rcases hp with hp | hp <;> simp [hp]
  rw [quarantineDone, if_neg (by simp [h, hl])]
  simp only [if_neg hfails, unitOf_tested, retire]
  exact congrArg UnitSt.st (vAt_vModN_same _ _ _ u.isLt)

theorem quarantineDone_spares (hp : passed = true) (ha : (unitOf d u).again = false) (hu : 3 ≤ u.val) :
    (unitOf (quarantineDone u passed d) u).st = 1 := by
  have hpasses : (passed && !(unitOf d u).again) = true := by simp [hp, ha]
  rw [quarantineDone, if_neg (by simp [h, hl])]
  simp only [if_pos hpasses, unitOf_tested]
  rw [unitOf, spareAgain_units hu]
  exact congrArg UnitSt.st (vAt_vModN_same _ _ _ u.isLt)

end

end

end Sys2Proof.Machine

namespace Sys2Proof
open Machine

section
variable {s : State}

/-- A round without a clock fault takes the entries it can. -/
theorem housekeeping_takes {r : HouseRound} (h : s.dev.pwr.powered = false ∨ clockFails r s.dev = false) :
    exec (.housekeepingRound r) s = taking (houseRound r) s := if_neg (by rcases h with h | h <;> simp [h])

/-- A row that loses the snapshot buffer keeps the queue region's bytes (log entry 2). -/
theorem losingSnap_leaves {i : Instr} {f : Dev → Dev} (hx : exec i s = losingSnap f s) :
    ∃ t, exec i s = .next t ∧ t.pending = s.pending ∧ t.mem = s.mem ∧ t.snap = [] ∧ t.dev = f s.dev :=
  ⟨_, hx.trans (losingSnap_next _ _), rfl, rfl, rfl, rfl⟩

/-- A clock fault resets the control die. -/
theorem housekeeping_resets {r : HouseRound} (hp : s.dev.pwr.powered = true) (hc : clockFails r s.dev = true) :
    exec (.housekeepingRound r) s = losingSnap (clockReset r) s := if_pos (by simp [hp, hc])

/-- The demand of a clock fault outlasts the reset. -/
theorem clockReset_demands {r : HouseRound} {d : Dev} (h : d.hlt.causes.get 1 = true → d.hlt.demand = true) :
    (clockReset r d).host.cause = 0x04 ∧ (clockReset r d).hlt.demand = true ∧ (clockReset r d).hlt.causes.get 1 = true := by
  obtain ⟨hhost, -, -, hdemand, hcauses, -⟩ :=
    controlReset_leaves 0x04 (demandBegin 1 (raise 1 0xA00A (subPath 0xA) (le 4 r.rootKhz) (clockRound r.rootKhz d)))
  obtain ⟨hstands, hcause⟩ :=
    demandBegin_stands (raise 1 0xA00A (subPath 0xA) (le 4 r.rootKhz) (clockRound r.rootKhz d)) (k := 1) h
  rw [clockReset, hhost, hdemand, hcauses]
  exact ⟨rfl, hstands, hcause⟩

/-- A missing heartbeat with a unit standing by, or that nobody sees. -/
theorem heartbeat_quiet (h : supResets s.dev = false) : exec .supervisorHeartbeatMiss s = quiet supFault s :=
  if_neg (by simp [h])

/-- With no unit standing by the control die resets. -/
theorem heartbeat_resets (h : supResets s.dev = true) : exec .supervisorHeartbeatMiss s = losingSnap supDouble s := if_pos h

section
variable {us : Nat} {differs : Bool}

/-- A mismatch that does not persist leaves the snapshot buffer. -/
theorem mismatch_quiet (h : (mismatchSeen s.dev && mismatchPersists differs s.dev) = false) :
    exec (.lockstepMismatch us differs) s = quiet (mismatch us differs) s := if_neg (by simp [h])

/-- A mismatch that persists is a supervisor fault. -/
theorem mismatch_isHeartbeat (h : mismatchSeen s.dev = true) (hp : mismatchPersists differs s.dev = true) :
    exec (.lockstepMismatch us differs) s = exec .supervisorHeartbeatMiss s := by
  show (if _ then _ else _) = _
  cases hr : supResets s.dev with
  | true => rw [if_pos (by simp [h, hp]), heartbeat_resets hr]
  | false => rw [if_neg (by simp), heartbeat_quiet hr, quiet_next, quiet_next, mismatch_persists h hp]

end

end

/-- Settles O58: what a round, a supervisor fault, a stall of Patrol and an error do, each read off its branch. The cap and
the standby are log entries 111 and 112, retirement at the end of the test is log entry 113, the regions and the engine of
an address are log entry 116, and that memory outlasts a reset is log entry 2. -/
theorem healthEvents : Obligations.HealthEvents := by
  refine ⟨fun s r => ⟨fun h => ?dark, fun hp hc => ?runs, fun hp hc hd => ?clock⟩,
    fun s => ⟨fun h => ?capOff, fun h h3 hm => ?capRises, fun h h3 hm hl => ?capFalls, fun h h3 => ?capEnds⟩,
    fun s us differs => ⟨fun h => ?unseen, fun h hp => ?rolledBack, fun h hp => ?persists, fun h => ?unheard,
      fun new hp hl h => ?moves, fun hp hl h hd => ?double⟩,
    fun s => ⟨fun h => ?gone, fun r h hr ht => ?givesUp, fun h hr => ?restarts⟩,
    fun s region addr other => ⟨fun h => ?noted, fun h => ?word, fun h => ?pair, fun h => ?engine, fun h => ?data,
      fun h => ?record⟩,
    fun s u passed => ⟨fun h => ?untested, fun h hl => ?tested⟩⟩
  case dark => exact takes_of_taking (houseRound r) (housekeeping_takes (.inl h)) (houseRound_stays h)
  case runs => exact ⟨_, takes_of_taking (houseRound r) (housekeeping_takes (.inr hc)) rfl, houseRound_runs hp⟩
  case clock =>
    obtain ⟨t, hx, hq, hm, hs, hdev⟩ := losingSnap_leaves (housekeeping_resets hp hc)
    refine ⟨t, hx, hq, hm, hs, ?_⟩
    rw [hdev]
    exact clockReset_demands hd
  case capOff => exact stays_of_quiet capStep rfl (capStep_off h)
  case capRises => exact moves_of_quiet capStep rfl (capStep_rises h h3 hm)
  case capFalls => exact moves_of_quiet capStep rfl (capStep_falls h h3 hm hl)
  case capEnds => exact ⟨_, moves_of_quiet capStep rfl rfl, capStep_ends h h3⟩
  case unseen => exact stays_of_quiet (mismatch us differs) (mismatch_quiet (by simp [h])) (mismatch_unseen h)
  case rolledBack =>
    exact ⟨_, moves_of_quiet (mismatch us differs) (mismatch_quiet (by simp [hp])) (mismatch_rolledBack h hp),
      rollback_counts us s.dev⟩
  case persists => exact mismatch_isHeartbeat h hp
  case unheard =>
    have hnone : supResets s.dev = false := by rcases h with h | h <;> simp [supResets, h]
    exact stays_of_quiet supFault (heartbeat_quiet hnone) (supFault_unseen h)
  case moves =>
    exact ⟨_, moves_of_quiet supFault (heartbeat_quiet (by simp [supResets, h])) (supFault_moves hp hl h), supMove_moves h⟩
  case double =>
    obtain ⟨t, hx, hq, hm, hs, hdev⟩ := losingSnap_leaves (heartbeat_resets (s := s) (by simp [supResets, hp, hl, h]))
    refine ⟨t, hx, hq, hm, hs, ?_⟩
    rw [hdev]
    exact supDouble_resets hd
  case gone => exact stays_of_quiet Machine.patrolStall rfl (patrolStall_lost h)
  case givesUp => exact ⟨_, moves_of_quiet Machine.patrolStall rfl rfl, patrolStall_givesUp h hr ht⟩
  case restarts => exact ⟨_, moves_of_quiet Machine.patrolStall rfl rfl, patrolStall_restarts h hr⟩
  case noted => exact moves_of_quiet (eccError region addr other) rfl (eccError_noted h)
  case word => exact moves_of_quiet (eccError region addr other) rfl (eccError_word h)
  case pair =>
    subst h
    exact moves_of_quiet (eccError 0 addr other) rfl rfl
  case engine =>
    subst h
    exact ⟨⟨addr.toNat % 3, by omega⟩, rfl, moves_of_quiet (eccError 2 addr other) rfl rfl⟩
  case data => exact moves_of_quiet (eccError region addr other) rfl (eccError_rollsBack h)
  case record =>
    subst h
    exact moves_of_quiet (eccError 8 addr other) rfl rfl
  case untested => exact stays_of_quiet (Machine.quarantineDone u passed) rfl (quarantineDone_stays h)
  case tested =>
    exact ⟨_, moves_of_quiet (Machine.quarantineDone u passed) rfl rfl, quarantineDone_retires h hl,
      quarantineDone_spares h hl⟩

end Sys2Proof
end

section
/-!
Grooming, the shut-downs, the flash operations and the end of a demand (R517, R533, R534, R541-R544, R551).
-/
namespace Sys2Proof.Machine

/-! ## Grooming (R533, R534) -/

section
variable {d : Dev}

theorem groomPass_stays (h : d.hlt.groomRun = true ∨ groomDeferred d = true ∨ groomDue d = false ∨ d.host.stage ≠ 0x80) :
    groomPass d = d := if_pos (by simpa [or_assoc] using h)

theorem groomPass_begins (hrun : d.hlt.groomRun = false) (hdef : groomDeferred d = false) (hdue : groomDue d = true)
    (hst : d.host.stage = 0x80) : groomPass d = { d with hlt := { d.hlt with
      groomRun := true
      groomReason := if d.hlt.groomBoot then 1 else if d.hlt.groomCmd.isSome then 2 else 0
      groomBoot := false
      groomRepeat := none } } := if_neg (by simp [hrun, hdef, hdue, hst])

theorem cmdGroomNow_refused {c : Cmd} (h : d.hlt.groomRun = true ∨ d.hlt.groomCmd.isSome = true) :
    cmdGroomNow c d = complete c stRefused 0xA1 [] d := if_pos (by simpa using h)

theorem cmdGroomNow_asks {c : Cmd} (hrun : d.hlt.groomRun = false) (hcmd : d.hlt.groomCmd = none) :
    cmdGroomNow c d = groomPass { begin_ c.id d with hlt := { (begin_ c.id d).hlt with groomCmd := some c.id } } :=
  if_neg (by simp [hrun, hcmd])

/-- V3 keeps its last plan only past its own bound; the other items are not of type 0 (R535). -/
theorem planOut_keepsV3 (p : GroomPlan) : ((planOut p).any fun x => x.1 == 0) = decide (800 < slowCore p) := by
  have hif : ∀ (b : Prop) [Decidable b] (k i j : Nat), ((if b then [(k, i, j)] else []).any fun x => x.1 == 0) =
      (decide b && k == 0) := fun b _ k i j => by split <;> simp [*]
  simp [planOut, hif, List.any_map, Function.comp_def]

/-- What a plan leaves of a pass: whether it runs, its number and its tick. -/
def passSeen (h : HltSt) : Bool × Nat × Nat := (h.groomRun, h.groomPass, h.groomLast)

/-- A plan sets V3 unless it keeps its last one, and is no part of the pass. -/
theorem planApply_sets (p : GroomPlan) (d : Dev) : passSeen (planApply p d).hlt = passSeen d.hlt ∧
    (planApply p d).hlt.v3 = if 800 < slowCore p then d.hlt.v3 else planV3 p := by
  have hgns : ∀ d : Dev, (gnsGroom d).hlt = d.hlt := fun d => by
    simp only [gnsGroom]
    split <;> rfl
  unfold planApply
  extract_lets out keep v d1 d2 d3 d4
  have hv : v = if 800 < slowCore p then d.hlt.v3 else planV3 p := by
    show (if (planOut p).any (fun x => x.1 == 0) then _ else _) = _
    rw [planOut_keepsV3]
    simp
  have h1 : passSeen d1.hlt = passSeen d.hlt ∧ d1.hlt.v3 = v := ⟨rfl, rfl⟩
  have h2 : d2.hlt = d1.hlt := by
    show Dev.hlt (if _ then _ else _) = _
    split <;> rfl
  have h3 : passSeen d3.hlt = passSeen d2.hlt ∧ d3.hlt.v3 = d2.hlt.v3 := by
    simp only [d3]
    repeat' split
    all_goals exact ⟨rfl, rfl⟩
  obtain ⟨hseen1, hv1⟩ := h1
  obtain ⟨hseen3, hv3⟩ := h3
  have h4 : (gnsGroom d4).hlt = d3.hlt := hgns d4
  exact ⟨by rw [h4, hseen3, h2, hseen1], by rw [h4, hv3, h2, hv1, hv]⟩

theorem groomCommit_stays {p : GroomPlan} (h : d.hlt.groomRun = false) : groomCommit p d = d := if_pos (by simp [h])

/-- After the plan the pass is recorded and its command ends. -/
theorem groomCommit_commits {p : GroomPlan} (h : d.hlt.groomRun = true) : (groomCommit p d).hlt.groomRun = false ∧
    (groomCommit p d).hlt.groomCmd = none ∧ (groomCommit p d).hlt.groomPass = (d.hlt.groomPass + 1) % 65536 ∧
    (groomCommit p d).hlt.groomLast = d.time.tick ∧
    (groomCommit p d).hlt.v3 = if 800 < slowCore p then d.hlt.v3 else planV3 p := by
  unfold groomCommit
  rw [if_neg (by simp [h])]
  extract_lets t dt d1 n fl r d2 d3 d4 d5
  obtain ⟨hseen, hv3⟩ : passSeen d1.hlt = (false, (d.hlt.groomPass + 1) % 65536, t) ∧
    d1.hlt.v3 = if 800 < slowCore p then d.hlt.v3 else planV3 p := planApply_sets p _
  have h2 : passSeen d2.hlt = passSeen d1.hlt ∧ d2.hlt.v3 = d1.hlt.v3 := by
    show passSeen (Dev.hlt (if _ then _ else _)) = _ ∧ (Dev.hlt (if _ then _ else _)).v3 = _
    split <;> exact ⟨rfl, rfl⟩
  have h4 : d4.hlt = d2.hlt := forEach_keeps (·.hlt) (fun _ _ => raise_hlt ..) _ d3
  clear_value d4
  have h5 : passSeen d5.hlt = passSeen d4.hlt ∧ d5.hlt.v3 = d4.hlt.v3 ∧ d5.hlt.groomCmd = none := by
    simp only [d5]
    split
    · rw [completeId_hlt]
      exact ⟨rfl, rfl, rfl⟩
    · exact ⟨rfl, rfl, ‹_›⟩
  obtain ⟨hseen5, hv5, hcmd⟩ := h5
  obtain ⟨hrun, hpass, hlast⟩ : d5.hlt.groomRun = false ∧ d5.hlt.groomPass = (d.hlt.groomPass + 1) % 65536 ∧
      d5.hlt.groomLast = t := by
    rw [h4, h2.1, hseen] at hseen5
    obtain ⟨hrun, hrest⟩ := Prod.mk.inj hseen5
    exact ⟨hrun, Prod.mk.inj hrest⟩
  rw [healthCheck_hlt]
  exact ⟨hrun, hcmd, hpass, hlast, by rw [hv5, h4, h2.2, hv3]⟩

end

/-! ## Shut-down (R541-R543) -/

section
variable {d : Dev}

theorem controlShutdown_leaves (sensor : Fin 6) (v : Int) (d : Dev) : (controlShutdown sensor v d).pwr.powered = false ∧
    (controlShutdown sensor v d).hlt.ctlLatch = true ∧ (controlShutdown sensor v d).hlt.shutdownWord =
      some (le 8 (dtNs d) ++ le 1 sensor ++ [0] ++ le 2 (toBits 16 v)) := by
  obtain ⟨-, -, -, -, -, hword⟩ := controlReset_leaves 0x00 (hltMod (fun h => { h with
    shutdownWord := some (le 8 (dtNs d) ++ le 1 sensor ++ [0] ++ le 2 (toBits 16 v)) }) d)
  rw [controlShutdown, chaletReset]
  generalize controlReset 0x00 (hltMod (fun h => { h with
    shutdownWord := some (le 8 (dtNs d) ++ le 1 sensor ++ [0] ++ le 2 (toBits 16 v)) }) d) = e at hword ⊢
  exact ⟨rfl, rfl, hword⟩

theorem fieldShutdown_off (h : d.pwr.fieldPow = false) : fieldShutdown d = d := if_pos (by simp [h])

theorem fieldShutdown_latches (h : d.pwr.fieldPow = true) : (fieldShutdown d).hlt.fieldLatch = true ∧
    (fieldShutdown d).pwr.fieldPow = false ∧ (fieldShutdown d).pwr.hold = true ∧
    (fieldShutdown d).pwr.holdEnd = .svcRelease := by
  rw [fieldShutdown, if_neg (by simp [h]), fieldOff_pwr, fieldOff_hlt]
  exact ⟨rfl, rfl, rfl, rfl⟩

end

/-! ## Flash operations (R87, R509, R534, R544) -/

/-- The device as the oldest operation has acted. -/
def flashActed (f : FlashOp) (rest : List FlashOp) (d : Dev) : Dev :=
  flashActs f { d with hlt := { d.hlt with flash := rest, flashOpen := false } }

section
variable {d : Dev} {f : FlashOp} {rest : List FlashOp}

theorem flashDone_waits (h : d.hlt.flash = [] ∨ flashRuns d = false) : flashDone d = d := by
  rcases h with h | h
  · simp only [flashDone, h]
  · simp only [flashDone, h]
    split <;> rfl

theorem flashDone_notBegun (hf : d.hlt.flash = f :: rest) (hk : f.kind = 5) : flashDone d = d := by
  simp only [flashDone, hf]
  exact if_pos (by simp [hk])

section
variable (hf : d.hlt.flash = f :: rest) (hr : flashRuns d = true) (hk : f.kind ≠ 5)
include hf hr hk

theorem flashDone_silent (hc : f.cmd = none) : flashDone d = flashNext (flashActed f rest d) := by
  simp only [flashDone, hf]
  rw [if_neg (by simp [hr, hk]), hc]
  rfl

theorem flashDone_completes {id : CmdId} (hc : f.cmd = some id) : flashDone d = flashNext (completeId id stOk 0
    (if f.kind = 0 && f.wr.isSome then tickBytes (flashActed f rest d) else f.result) (flashActed f rest d)) := by
  simp only [flashDone, hf]
  rw [if_neg (by simp [hr, hk]), hc]
  rfl

end

section
variable {sectors discarded : Nat}

theorem flashRefresh_waits (h : domOn d 5 = false ∨ 3 ≤ d.pwr.lStep) : flashRefresh sectors discarded d = d :=
  if_pos (by simpa using h)

theorem flashRefresh_erases (h5 : domOn d 5 = true) (h3 : d.pwr.lStep < 3) : flashRefresh sectors discarded d =
    raise 6 0xA013 (subPath 0xA) (le 1 sectors ++ le 1 discarded ++ le 1 1)
      { d with hlt := { d.hlt with erases := d.hlt.erases + sectors } } := if_neg (by simp [h5, h3])

end

end

/-! ## HLT_DEMAND_CLEAR (R517) -/

section
variable {c : Cmd} {d : Dev}

theorem cmdDemandClear_refused (h : ∃ k, d.hlt.causes.get k = true ∧ causeHolds d k = true) :
    cmdDemandClear c d = complete c stRefused 0xA2 [] d := by
  obtain ⟨k, hk, hholds⟩ := h
  exact if_pos (List.any_eq_true.2 ⟨k, by simpa using hk, hholds⟩)

theorem cmdDemandClear_clears (h : ∀ k, d.hlt.causes.get k = true → causeHolds d k = false) :
    (cmdDemandClear c d).hlt.demand = false ∧ (∀ k, (cmdDemandClear c d).hlt.causes.get k = false) ∧
    (cmdDemandClear c d).gate.ports.get 5 =
      d.gate.ports.get 5 ++ [.comp (compOf c stOk 0 false (tickBytes d))] := by
  have hnone : ¬ (((List.finRange 4).filter fun (k : Fin 4) => d.hlt.causes.get k).any (causeHolds d) = true) := by
    simpa using h
  have hraise : ∀ (ks : List (Fin 4)) (d : Dev),
      (forEach ks (fun k d => raise 1 0xA014 (subPath 0xA) (le 1 k ++ [1]) d) d).hlt = d.hlt ∧
      (forEach ks (fun k d => raise 1 0xA014 (subPath 0xA) (le 1 k ++ [1]) d) d).gate.ports.get 5 = d.gate.ports.get 5 ∧
      (forEach ks (fun k d => raise 1 0xA014 (subPath 0xA) (le 1 k ++ [1]) d) d).time = d.time := fun ks d =>
    ⟨forEach_keeps (·.hlt) (fun _ _ => raise_hlt ..) ks d,
      forEach_keeps (·.gate.ports.get 5) (fun _ _ => vMod_get_other _ _ (by decide)) ks d,
      forEach_keeps (·.time) (fun _ _ => raise_time ..) ks d⟩
  unfold cmdDemandClear
  extract_lets ks d1 d2
  obtain ⟨hhlt, hport, htime⟩ : d2.hlt = d1.hlt ∧ d2.gate.ports.get 5 = d1.gate.ports.get 5 ∧ d2.time = d1.time := hraise ks d1
  have hticks : tickBytes d2 = tickBytes d := by rw [tickBytes, htime]; rfl
  clear_value d2
  rw [if_neg hnone, healthCheck_hlt, healthCheck_gate, complete_hlt, hhlt, hticks]
  refine ⟨rfl, fun k => ?_, ?_⟩
  · show (Vector.replicate 4 false).get k = false
    simp
  · rw [complete_port, hport]
    rfl

end

end Sys2Proof.Machine

namespace Sys2Proof
open Machine

/-- Settles O59: the rows by their branches; a commit through what its plan leaves of the pass (`planApply_sets`), the
shut-downs through what a reset leaves of either die. That all causes end together is log entry 50, the waiting flash
command is log entry 160, the details of Grooming are log entry 117. -/
theorem groomingShutdownAndFlash : Obligations.GroomingShutdownAndFlash := by
  refine ⟨fun s => ⟨fun h => ?stays, fun hrun hdef hdue hst => ?begins⟩, fun s p => ⟨fun h => ?idle, fun h => ?commits⟩,
    fun s id c hr => ⟨fun h => ?busy, fun hrun hcmd => ?asks⟩, fun s id c hr => ⟨fun h => ?holds, fun h => ?clears⟩,
    fun s sensor v => ⟨fun h => ?dark, fun h => ?control, fun h => ?noField, fun h => ?field, ?latch⟩,
    fun s => ⟨fun h => ?waits, fun f rest hf hk => ?notBegun, fun f rest hf hr hk =>
      ⟨fun hc => ?silent, fun id hc => ?completes⟩⟩,
    fun s sectors discarded => ⟨fun h => ?noRefresh, fun h5 h3 => ?refreshes⟩⟩
  case stays => exact stays_of_quiet groomPass rfl (groomPass_stays h)
  case begins => exact moves_of_quiet groomPass rfl (groomPass_begins hrun hdef hdue hst)
  case idle => exact stays_of_quiet (groomCommit p) rfl (groomCommit_stays h)
  case commits => exact ⟨_, moves_of_quiet (groomCommit p) rfl rfl, groomCommit_commits h⟩
  case busy => exact moves_of_ready cmdGroomNow rfl hr (cmdGroomNow_refused h)
  case asks => exact moves_of_ready cmdGroomNow rfl hr (cmdGroomNow_asks hrun hcmd)
  case holds => exact moves_of_ready cmdDemandClear rfl hr (cmdDemandClear_refused h)
  case clears => exact ⟨_, moves_of_ready cmdDemandClear rfl hr rfl, cmdDemandClear_clears h⟩
  case dark => exact if_neg (by simp [h])
  case control =>
    obtain ⟨hp, hlatch, hword⟩ := controlShutdown_leaves sensor v s.dev
    exact ⟨_, (if_pos h).trans (losing_next _ _), rfl, rfl, rfl, hp, hlatch, hword⟩
  case noField => exact stays_of_quiet fieldShutdown rfl (fieldShutdown_off h)
  case field => exact ⟨_, moves_of_quiet fieldShutdown rfl rfl, fieldShutdown_latches h⟩
  case latch => exact moves_of_quiet Machine.fieldLatchClear rfl rfl
  case waits => exact takes_of_taking flashDone rfl (flashDone_waits h)
  case notBegun => exact takes_of_taking flashDone rfl (flashDone_notBegun hf hk)
  case silent => exact takes_of_taking flashDone rfl (flashDone_silent hf hr hk hc)
  case completes => exact takes_of_taking flashDone rfl (flashDone_completes hf hr hk hc)
  case noRefresh => exact stays_of_quiet (flashRefresh sectors discarded) rfl (flashRefresh_waits h)
  case refreshes => exact moves_of_quiet (flashRefresh sectors discarded) rfl (flashRefresh_erases h5 h3)

end Sys2Proof
end

section
/-!
Identity: the record store, lot records, attestation, enrolment and the nonce (R556-R567).
-/
namespace Sys2Proof.Machine

/-! ## The record store (R561, R564) -/

/-- What a record that is written leaves alone: the nonce, the services and the flash operations; and its number counts on. -/
def besideStore (d : Dev) : Nat × Option (Nat × Nat) × SvcSt × List FlashOp :=
  (d.idn.next, d.idn.nonce, d.svc, d.hlt.flash)

theorem besideStore_parts {d : Dev} {n : Nat} {x : Option (Nat × Nat)} {v : SvcSt} {f : List FlashOp}
    (h : besideStore d = (n, x, v, f)) : d.idn.next = n ∧ d.idn.nonce = x ∧ d.svc = v ∧ d.hlt.flash = f := by
  simpa [besideStore] using h

section
variable (d : Dev)

theorem storeErase_keeps : besideStore (storeErase d) = besideStore d := by
  simp only [storeErase]
  repeat' split
  all_goals rfl

/-- Copies that reach Q16 leave the records where they are. -/
theorem copyFlush_keeps : besideStore (copyFlush d) = besideStore d ∧ (copyFlush d).idn.records = d.idn.records := by
  simp only [copyFlush]
  split
  · exact ⟨rfl, rfl⟩
  · refine ⟨?_, ?_⟩
    · refine (forEach_keeps besideStore (fun i d => ?_) _ d)
      split <;> rfl
    · refine (forEach_keeps (·.idn.records) (fun i d => ?_) _ d)
      split <;> rfl

/-- A record that is written is the newest one. -/
theorem storeRecord_writes (ty lot : Nat) (body : List Byte) :
    besideStore (storeRecord ty lot body d) = (d.idn.next + 1, d.idn.nonce, d.svc, d.hlt.flash) ∧
    (newestRecord (storeRecord ty lot body d)).map (·.1) = some d.idn.next := by
  obtain ⟨hnext, hnonce, hsvc, hflash⟩ := besideStore_parts (storeErase_keeps d)
  unfold storeRecord
  extract_lets i b b' d1 d2
  refine ⟨?_, ?_⟩
  · show (d.idn.next + 1, d1.idn.nonce, d1.svc, d1.hlt.flash) = _
    rw [hnonce, hsvc, hflash]
  · show ((d1.idn.records ++ [(d.idn.next, b')]).getLast?).map (·.1) = _
    simp

/-- A record that is written, with its copy on the way to Q16, is the newest one. -/
theorem recordStored (ty lot : Nat) (body : List Byte) :
    besideStore (copyFlush (storeRecord ty lot body d)) = (d.idn.next + 1, d.idn.nonce, d.svc, d.hlt.flash) ∧
    (newestRecord (copyFlush (storeRecord ty lot body d))).map (·.1) = some d.idn.next := by
  obtain ⟨hbeside, hrecords⟩ := copyFlush_keeps (storeRecord ty lot body d)
  obtain ⟨hwritten, hnewest⟩ := storeRecord_writes d ty lot body
  rw [hbeside, hwritten, newestRecord, hrecords]
  exact ⟨rfl, hnewest⟩

end

/-! ## Lot records (R561) -/

section
variable {d : Dev}

theorem lotSigned_waits (h : (∀ l ∈ d.svc.closed, l.closeBib = none) ∨ 3 ≤ d.pwr.lStep) : lotSigned d = d := by
  simp only [lotSigned]
  split
  · rfl
  · next l hl =>
    rcases h with h | h
    · have hnone := h l (List.mem_of_find?_eq_some hl)
      simpa [hnone] using List.find?_some hl
    · exact if_pos h

/-- The oldest lot whose close has its bib leaves the closed lots and is the newest record. -/
theorem lotSigned_signs {l : Lot} (hl : (d.svc.closed.find? fun l => l.closeBib.isSome) = some l) (h3 : d.pwr.lStep < 3) :
    (lotSigned d).idn.next = d.idn.next + 1 ∧ (newestRecord (lotSigned d)).map (·.1) = some d.idn.next ∧
    ∀ x ∈ (lotSigned d).svc.closed, x.no ≠ l.no := by
  simp only [lotSigned, hl]
  rw [if_neg (Nat.not_le.2 h3)]
  obtain ⟨hbeside, hnewest⟩ := recordStored { takeFree d with svc := { (takeFree d).svc with
    closed := (takeFree d).svc.closed.filter fun x => x.no != l.no
    resume := (takeFree d).svc.resume.map fun r => if r.lot.any fun x => x.no = l.no then { r with lot := none } else r } }
    1 l.no (lotBody d l (Config.freeWord d.free))
  obtain ⟨hnext, -, hsvc, -⟩ := besideStore_parts hbeside
  refine ⟨hnext, hnewest, fun x hx => ?_⟩
  rw [hsvc] at hx
  exact bne_iff_ne.1 (List.mem_filter.1 hx).2

end

/-! ## Attestation (R556) -/

section
variable {c : Cmd} {d : Dev}

theorem cmdIdAttest_keyFault (h : d.idn.keyFault = true) : cmdIdAttest c d = complete c stIntegrity 0 [] d := if_pos h

theorem cmdIdAttest_raises (h : d.idn.keyFault = false) : cmdIdAttest c d =
    begin_ c.id (raise 6 0xB003 (pkgPath 0xB) (le 1 c.commander)
      { d with idn := { d.idn with attests := d.idn.attests ++
        [{ cmd := c.id, source := c.commander, challenge := c.payload.take 32 }] } }) := if_neg (by simp [h])

/-! ## Enrolment (R557-R559) -/

/-- The staged request is taken (log entry 121). -/
def enrolTaken (d : Dev) : Dev := atBoundary (fun w => w.bnd == .enrol) d

/-- The request as it was staged. -/
def enrolRequest (d : Dev) : List Byte := padTo 224 (pbytes (enrolTaken d) kIdnEnrolReq 0)

theorem cmdIdEnrol_refused {r : Refuse} (h : enrolRefusal (enrolTaken d) (enrolRequest d) = some r) :
    cmdIdEnrol c d = complete c r.status r.detail [] (enrolTaken d) := by
  simp only [enrolTaken, enrolRequest] at h
  simp only [cmdIdEnrol, h]
  rfl

theorem cmdIdEnrol_enrols (h : enrolRefusal (enrolTaken d) (enrolRequest d) = none) :
    (cmdIdEnrol c d).idn.next = (enrolTaken d).idn.next + 1 ∧ (cmdIdEnrol c d).idn.nonce = none ∧
    (newestRecord (cmdIdEnrol c d)).map (·.1) = some (enrolTaken d).idn.next ∧
    ((cmdIdEnrol c d).hlt.flash.getLast?.map fun f => (f.cmd, f.kind, f.ref)) =
      some (some c.id, 3, chainNo (enrolTaken d) + 1) := by
  simp only [enrolTaken, enrolRequest] at h
  simp only [cmdIdEnrol, h, queueFlash]
  obtain ⟨hbeside, hnewest⟩ := recordStored (idnMod (fun x => { x with nonce := none }) (enrolTaken d)) 2 0
    (startBody (enrolTaken d) (enrolRequest d) (chainNo (enrolTaken d) + 1))
  obtain ⟨hnext, hnonce, -, -⟩ := besideStore_parts hbeside
  refine ⟨hnext, hnonce, hnewest, ?_⟩
  rw [begin__hlt, List.getLast?_concat]
  rfl

end

end Sys2Proof.Machine

namespace Sys2Proof
open Machine

/-- Settles O60: a record that is written is the newest one (`recordStored`), and the commands answer by their branches. That
the nonce is a free value is log entry 4, records at L3 are log entry 109, the staged request is log entry 121, and that
`ID_ENROL` waits for its turn is log entry 160. -/
theorem identityCommands : Obligations.IdentityCommands := by
  refine ⟨fun s => ⟨fun h => ?waits, fun l hl h3 => ?signs⟩, fun s id c =>
    ⟨fun hr => ⟨fun hk => ?keyFault, fun hk => ?attests⟩, fun hr hq => ?queued,
      fun hr hfree => ⟨fun r hrefused => ?refused, fun hok => ?enrols⟩, fun hr => ?nonce⟩⟩
  case waits => exact settles_of_loud lotSigned rfl (lotSigned_waits h)
  case signs => exact ⟨_, settles_of_loud lotSigned rfl rfl, lotSigned_signs hl h3⟩
  case keyFault => exact moves_of_ready cmdIdAttest rfl hr (cmdIdAttest_keyFault hk)
  case attests => exact moves_of_ready cmdIdAttest rfl hr (cmdIdAttest_raises hk)
  case queued => exact settles_of_ready (flashTurn cmdIdEnrol) rfl hr (flashTurn_queued cmdIdEnrol hq)
  case refused =>
    exact settles_of_ready (flashTurn cmdIdEnrol) rfl hr ((flashTurn_free cmdIdEnrol hfree).trans (cmdIdEnrol_refused hrefused))
  case enrols =>
    exact ⟨_, settles_of_ready (flashTurn cmdIdEnrol) rfl hr (flashTurn_free cmdIdEnrol hfree), cmdIdEnrol_enrols hok⟩
  case nonce => exact moves_of_ready cmdIdNonce rfl hr rfl

end Sys2Proof
end

section
/-!
The device-wide commands: running and stopping, batches, aborts and timeouts, pairs, images, firmware and replays (R42, R86-R94,
R493, R551, R564, R592, R594).
-/
namespace Sys2Proof.Machine

/-! ## A row without its command (log entry 5) -/

/-- A command row runs nothing where no live command of its opcode is next in order. -/
theorem withCmd_unready {s : State} {id : CmdId} {op : Nat} (h : ∀ c, ¬Ready s id op c) (f : Cmd → Dev → Dev) :
    withCmd op id f s.dev = s.dev := by
  cases hlive : liveCmd s.dev id with
  | none => exact withCmd_absent hlive op f
  | some c => exact withCmd_skips hlive (fun ⟨hop, hstart⟩ => h c ⟨hlive, hop, hstart⟩) f

/-- A command row without its command changes nothing, but that ring writes that already waited may be performed. -/
def RowRests (i : Instr) (s : State) : Prop := exec i s = .next s ∨ exec i s = .next (settle s)

section
variable {i : Instr} {s : State} {id : CmdId} {op : Nat} (f : Cmd → Dev → Dev)

theorem rests_of_quiet (hx : exec i s = quiet (withCmd op id f) s) (h : ∀ c, ¬Ready s id op c) : RowRests i s :=
  .inl (stays_of_quiet (withCmd op id f) hx (withCmd_unready h f))

theorem rests_of_loud (hx : exec i s = loud (withCmd op id f) s) (h : ∀ c, ¬Ready s id op c) : RowRests i s :=
  .inr (settles_of_loud (withCmd op id f) hx (withCmd_unready h f))

end

/-- A domain that does not move leaves the snapshot buffer. -/
theorem sleepReq_rests {s : State} {id : CmdId} (h : ∀ c, ¬Ready s id 0x1901 c) : RowRests (.sleepReq id) s := by
  refine .inl ?_
  show Host.Outcome.next { s with snap := snapAfter s (withCmd 0x1901 id cmdSleepReq s.dev),
                                  dev := withCmd 0x1901 id cmdSleepReq s.dev } = .next s
  rw [withCmd_unready h, snapAfter_keeps (fun hoff => hoff)]

/-- Every command row rests without its command: those that write rings, `SLEEP_REQ`, and those that change the device alone; no
other row runs a command. -/
theorem commandRow_rests {i : Instr} {s : State} {id : CmdId} {op : Nat} (h : commandRow i = some (id, op))
    (hn : ∀ c, ¬Ready s id op c) : RowRests i s := by
  cases i
  case paramWrite | paramWritePaired | paramWriteBlob | evtFetch | busTxFlush | hltLogRead | idEnrol | idRecordFetch
    =>
    cases h
    exact rests_of_loud _ rfl hn
  case sleepReq =>
    cases h
    exact sleepReq_rests hn
  case nop | devInfo | run | stop | safeNow | resetReq | paramRead | paramInfo | cfgBegin | cfgCommit | cfgAbort |
    cmdAbort | imgOpen | imgData | imgClose | imgApply | imgInfo | imgErase | fwOpen | fwData | fwClose | fwSwitch |
    afeRead | afeLeadNow | dlxRead | dlxPointRead | dlxProbeCal | dlxRefCapture | dlxRefSet | dlxFit | dlxCalRead |
    fioRead | fioClear | fioCntClear | fioBankRead | vlvPulse | vlvRead | vlvClear | ctlCoefWrite | ctlSetWrite |
    ctlSetSeal | ctlSrcSelect | ctlResume | ctlStateWrite | ctlRead | ctlClearFlags | ctlAdmitCheck | ctlSetRead |
    svcStart | svcStop | svcAbort | svcNext | svcRead | svcRelease | svcFaultClear | svcRecipeLoad | svcWaterDose |
    svcLedgerRead | svcLotOpen | svcLotClose | busRateDetect | busRead | busFrameUs | busRoleAssign | busRoleRead |
    gnsRead | gnsTimeSet | gnsSurveyRestart | gnsSnap | gnsSnapRelease | gnsChRead | padRelease | pwrRead | hltRead |
    hltGroomNow | hltDemandClear | idAttest | idRead | idNonce =>
    cases h
    exact rests_of_quiet _ rfl hn
  all_goals cases h

/-! ## RUN, STOP and RELEASE (R93, R392, R493) -/

section
variable {c : Cmd} {d : Dev}

theorem cmdRun_starts (h : d.pwr.fieldUp = true) : cmdRun c d = complete c stOk 0 (tickBytes d) (startBlocks d) :=
  if_neg (by simp [h])

theorem cmdRun_fieldDown (h : d.pwr.fieldUp = false) : cmdRun c d = complete c stRefused 0x91 [] d :=
  if_pos (by simp [h])

/-- The blocks as they begin to stop, the words of the safe states checked (R46; log entry 33). -/
def stopBegun (d : Dev) : Dev :=
  stopBlocks (pairsUse (pairsHeld d fun a => [kFioSafe, kVlvSafe, kVlvSafeMa].contains (keyOf a)) d)

theorem cmdStop_waits (h : d.pwr.fieldUp = true) : cmdStop c d =
    cmdMod c.id (fun x => { x with note := openTick (stopBegun d) }) (begin_ c.id (stopBegun d)) :=
  if_pos h

theorem cmdStop_fieldDown (h : d.pwr.fieldUp = false) : cmdStop c d = complete c stOk 0 (tickBytes (stopBegun d))
    { stopBegun d with svc := { (stopBegun d).svc with running := false, stopping := false } } := by
  simp only [cmdStop, stopBegun, h, Bool.false_eq_true, if_false]
  rfl

theorem cmdSafeNow_asks {sc : Scope} (h : targetScope c.target = some sc) :
    cmdSafeNow c d = askSafe sc 0 (some c.id) (waitOn c.id d) := by
  rw [cmdSafeNow, h]

theorem cmdSafeNow_range (h : targetScope c.target = none) : cmdSafeNow c d = complete c stRange 0 [] d := by
  rw [cmdSafeNow, h, refuse]

theorem cmdSvcRelease_range (h : targetScope c.target = none) : cmdSvcRelease c d = complete c stRange 0 [] d := by
  rw [cmdSvcRelease, h]
  rfl

section
variable {sc : Scope} (h : targetScope c.target = some sc)
include h

theorem cmdSvcRelease_asks (hl : d.lift.up.inLock = true) (hf : d.pwr.fStep < 4) (hd : d.hlt.demand = false) :
    cmdSvcRelease c d = askRelease sc (some c.id) (waitOn c.id d) := by
  rw [cmdSvcRelease, h]
  exact if_neg (by simp [releaseBarred, hl, hd, hf])

theorem cmdSvcRelease_barred (hb : d.lift.up.inLock = false ∨ 4 ≤ d.pwr.fStep ∨ d.hlt.demand = true) :
    cmdSvcRelease c d = complete c stRefused 0x66 [] d := by
  rw [cmdSvcRelease, h]
  exact if_pos (by simpa [releaseBarred] using hb)

end

theorem cmdResetReq_keyed (h : field c.payload 0 4 = 0x7C19) : cmdResetReq c d = complete c stOk 0 [] d :=
  if_neg (by simp [h])

theorem cmdResetReq_range (h : field c.payload 0 4 ≠ 0x7C19) : cmdResetReq c d = complete c stRange 0 [] d :=
  if_pos (by simp [h])

end

/-! ## Pairs (R42-R44, R88) -/

theorem pairValid_iff (v c : Word) : pairValid (v, c) = true ↔ v ^^^ c = 0xFFFFFFFF := beq_iff_eq

theorem pairsValid_iff (ps : List (Word × Word)) : pairsValid ps = true ↔ ∀ q ∈ ps, q.1 ^^^ q.2 = 0xFFFFFFFF := by
  simp only [pairsValid, List.all_eq_true, Prod.forall, pairValid_iff]

/-- A PAIRED write whose pairs are as many as the parameter's words is refused for a pair that is not valid, before any later
check. -/
theorem writeCheck_badPair {d : Dev} {a : Nat} {p : PDef} {ws : List Word} (hp : findDef a = some p) (hc : p.cls = .paired)
    (hdev : deviceOnly a = none) (hlen : (pairsOfWords ws).length = p.ty.words)
    (hbad : ∃ q ∈ pairsOfWords ws, q.1 ^^^ q.2 ≠ 0xFFFFFFFF) : writeCheck d 0x0102 a ws = some ⟨stPairMismatch, 0⟩ := by
  have hinvalid : pairsValid (pairsOfWords ws) = false := by
    rw [← Bool.not_eq_true, pairsValid_iff]
    simpa using hbad
  simp [writeCheck, hp, writeFits, hc, hdev, firstRefusal, hlen, hinvalid]

section
variable {c : Cmd} {a : Nat} {ws : List Word} {d : Dev}

theorem writeWhole_refused {r : Refuse} (hf : c.flags % 2 = 0) (h : writeCheck d c.opcode a ws = some r) :
    writeWhole c a ws d = complete c r.status r.detail [] d := by
  rw [writeWhole, if_neg (by omega), h]
  rfl

theorem writeWhole_accepted (hf : c.flags % 2 = 0) (h : writeCheck d c.opcode a ws = none) :
    writeWhole c a ws d = writeValue c a ws d := by
  rw [writeWhole, if_neg (by omega), h]

/-- A value with a boundary waits for it; a value of the tick set has joined it, and one that crosses the Lift is sent. -/
theorem landValue_waits {id : Option CmdId} {commander left : Nat} {p : PDef} {b : Boundary} (hp : findDef a = some p)
    (hb : boundaryOf d a p = some (b, left)) : landValue id commander a ws d =
      pairFirst a (addWait { addr := a, words := ws, bnd := b, left := left, cmd := id }
        (openValue a ws (when (b == .tick && left == 0) (cfgSend a) d))) := by
  simp only [landValue, hp, hb]

/-- A PAIRED value that applies is in both copies (R44). -/
theorem applyValue_bothCopies (hdef : findDef a ≠ none) (hc : ∀ p, findDef a = some p → p.cls = .paired) :
    (pairOf (applyValue a ws d) a).prim = pairsOfWords ws ∧ (pairOf (applyValue a ws d) a).shad = pairsOfWords ws := by
  obtain ⟨p, hp⟩ := Option.ne_none_iff_exists'.1 hdef
  simp only [applyValue, hp, hc p hp, if_true, setPair, pairOf, find?_alSet, and_self]

end

/-! ## Batches (R90, R91) -/

section
variable {c : Cmd} {d : Dev}

theorem cmdCfgBegin_full (h : 4 ≤ (openBatches d).length) : cmdCfgBegin c d = complete c stAdmission 0 [] d := if_pos h

theorem cmdCfgBegin_opens (h : (openBatches d).length < 4) : cmdCfgBegin c d = complete c stOk 0 (le 2 d.cmd.nextId)
    { d with cmd := { d.cmd with
        batches := d.cmd.batches ++ [{ id := d.cmd.nextId, writes := [], failed := false, commit := none }]
        discarded := d.cmd.discarded.filter (· != d.cmd.nextId)
        nextId := d.cmd.nextId % 65535 + 1 } } :=
  if_neg (Nat.not_le.2 h)

/-- The refusal of a command that names no open batch, its status and detail apart. -/
theorem refuse_noBatch (n : Nat) : refuse c (noBatch d n) d =
    complete c (if d.cmd.discarded.contains n then stRefused else stRange)
      (if d.cmd.discarded.contains n then 0x04 else 0) [] d := by
  rw [refuse, noBatch]
  split <;> rfl

section
variable {b : Batch} (h : batchOf d (field c.payload 0 2) = some b)
include h

theorem cmdCfgCommit_begins (hg : batchGood d b = true) : cmdCfgCommit c d =
    begin_ c.id (batchMod (field c.payload 0 2) (fun x => { x with commit := some c.id }) d) := by
  simp only [cmdCfgCommit, h, hg, if_true]

theorem cmdCfgCommit_fails (hg : batchGood d b = false) :
    cmdCfgCommit c d = complete c stRefused 0x03 [] (batchDrop (field c.payload 0 2) d) := by
  simp only [cmdCfgCommit, h, hg, Bool.false_eq_true, if_false]
  rfl

theorem cmdCfgAbort_drops : cmdCfgAbort c d = complete c stOk 0 [] (batchDrop (field c.payload 0 2) d) := by
  simp only [cmdCfgAbort, h]
  rfl

end

section
variable (h : batchOf d (field c.payload 0 2) = none)
include h

theorem cmdCfgCommit_noBatch : cmdCfgCommit c d = refuse c (noBatch d (field c.payload 0 2)) d := by
  simp only [cmdCfgCommit, h]

theorem cmdCfgAbort_noBatch : cmdCfgAbort c d = refuse c (noBatch d (field c.payload 0 2)) d := by
  simp only [cmdCfgAbort, h]

end

theorem batchDiscard_discards {n : Nat} {b : Batch} (h : batchOf d n = some b) : batchDiscard n d =
    { d with cmd := { d.cmd with
        batches := d.cmd.batches.filter fun x => x.id != n
        discarded := d.cmd.discarded.filter (· != n) ++ [n] } } := by
  simp only [batchDiscard, h]
  rfl

end

/-! ## Aborts and timeouts (R86, R93) -/

theorem liveCmd_id {d : Dev} {id : CmdId} {x : Cmd} (h : liveCmd d id = some x) : x.id = id := by
  have hx := List.find?_some h
  simp only [Bool.and_eq_true, decide_eq_true_eq] at hx
  exact hx.1

section
variable {d : Dev} {id : CmdId} {st : Nat}

/-- A command that has been taken and has not begun ends with the status, and what the blocks hold of it is dropped. -/
theorem cancelCmd_ends {x : Cmd} (h : liveCmd d id = some x) (hp : x.phase = .taken ∨ x.phase = .waiting) :
    cancelCmd id st d = some (dropWork id (complete x st 0 [] d)) := by
  simp only [cancelCmd, h]
  exact if_pos (by simpa using hp)

theorem cancelCmd_none (h : ∀ y, liveCmd d id = some y → y.phase = .begun ∨ y.phase = .done) : cancelCmd id st d = none := by
  simp only [cancelCmd]
  split
  · rfl
  · next y hy => exact if_neg (by rcases h y hy with hp | hp <;> simp [hp])

theorem commandTimeout_ends {x : Cmd} (h : liveCmd d id = some x) (ht : x.timeout ≠ 0)
    (hp : x.phase = .taken ∨ x.phase = .waiting) :
    commandTimeout id d = dropWork id (complete x stTimeout 0 [] d) := by
  simp only [commandTimeout, h, ht, if_false, cancelCmd_ends h hp, Option.getD_some]

theorem commandTimeout_stays
    (h : ∀ y, liveCmd d id = some y → y.timeout = 0 ∨ y.phase = .begun ∨ y.phase = .done) : commandTimeout id d = d := by
  simp only [commandTimeout]
  split
  · rfl
  · next y hy =>
    split
    · rfl
    · next ht =>
      have hphase := (h y hy).resolve_left ht
      have hnone : cancelCmd id stTimeout d = none :=
        cancelCmd_none fun z hz => by
          rw [hy] at hz
          injection hz with hyz
          exact hyz ▸ hphase
      rw [hnone, Option.getD_none]

end

section
variable {c : Cmd} {d : Dev}

theorem cmdCmdAbort_ends {x : Cmd} (hid : c.id ≠ .host (c.payload.headD 0))
    (h : liveCmd d (.host (c.payload.headD 0)) = some x) (hp : x.phase = .taken ∨ x.phase = .waiting) :
    cmdCmdAbort c d = complete c stOk 0 [] (dropWork (.host (c.payload.headD 0)) (complete x stAborted 0 [] d)) := by
  simp only [cmdCmdAbort, hid.symm, if_false, cancelCmd_ends h hp]
  rfl

theorem cmdCmdAbort_none (hid : c.id ≠ .host (c.payload.headD 0))
    (h : ∀ y, liveCmd d (.host (c.payload.headD 0)) = some y → y.phase = .begun ∨ y.phase = .done) :
    cmdCmdAbort c d = complete c stRefused 0x06 [] d := by
  simp only [cmdCmdAbort, hid.symm, if_false, cancelCmd_none h]
  rfl

theorem cmdCmdAbort_own (hid : c.id = .host (c.payload.headD 0)) : cmdCmdAbort c d = complete c stRefused 0x06 [] d :=
  if_pos hid.symm

end

end Sys2Proof.Machine

namespace Sys2Proof
open Machine

/-- Settles O6, by the form of each row (`commandRow_rests`). -/
theorem commandRowsNeedTheirCommand : Obligations.CommandRowsNeedTheirCommand :=
  fun _ _ _ _ h hn => commandRow_rests h hn

/-- Settles O13: each command in its branches. What STOP does to modes and outputs is log entry 33, that RUN completes with the
current tick is log entry 37. -/
theorem runStopSafeRelease : Obligations.RunStopSafeRelease := by
  refine fun s id c => ⟨fun hr => ⟨fun hup => ?runs, fun hdown => ?runDown⟩,
    fun hr => ⟨fun hup => ?stopWaits, fun hdown => ?stopDown⟩, fun hr => ⟨fun sc hsc => ?safe, fun hsc => ?safeRange⟩,
    fun hr => ⟨fun sc hsc => ⟨fun hl hf hd => ?release, fun hb => ?barred⟩, fun hsc => ?releaseRange⟩,
    fun hr => ⟨fun hkey => ?reset, fun hkey => ?resetRange⟩⟩
  case runs => exact moves_of_ready cmdRun rfl hr (cmdRun_starts hup)
  case runDown => exact moves_of_ready cmdRun rfl hr (cmdRun_fieldDown hdown)
  case stopWaits => exact moves_of_ready cmdStop rfl hr (cmdStop_waits hup)
  case stopDown =>
    have hm := moves_of_ready (i := .stop id) cmdStop rfl hr (cmdStop_fieldDown hdown)
    simpa only [stopBegun] using hm
  case safe => exact moves_of_ready cmdSafeNow rfl hr (cmdSafeNow_asks hsc)
  case safeRange => exact moves_of_ready cmdSafeNow rfl hr (cmdSafeNow_range hsc)
  case release => exact moves_of_ready cmdSvcRelease rfl hr (cmdSvcRelease_asks hsc hl hf hd)
  case barred => exact moves_of_ready cmdSvcRelease rfl hr (cmdSvcRelease_barred hsc hb)
  case releaseRange => exact moves_of_ready cmdSvcRelease rfl hr (cmdSvcRelease_range hsc)
  case reset => exact moves_of_ready cmdResetReq rfl hr (cmdResetReq_keyed hkey)
  case resetRange => exact moves_of_ready cmdResetReq rfl hr (cmdResetReq_range hkey)

/-- Settles O17: the check of the pairs comes before those that follow it, a value that passes them all waits for its boundary,
and a PAIRED value applies to both copies. -/
theorem badPairIsRefused : Obligations.BadPairIsRefused := by
  refine ⟨pairValid_iff, pairsValid_iff, fun s id c p hr hf hp hc hdev => ?refused, fun s id c p b left hr hf => ?waits,
    fun d a ws => applyValue_bothCopies⟩
  case refused =>
    intro ps hlen hbad
    have hop : c.opcode = 0x0102 := hr.2.1
    have hcheck : writeCheck s.dev c.opcode (targetAddr c) (wordsOf (c.length / 4) (c.payload.take c.length)) =
        some ⟨stPairMismatch, 0⟩ := by
      rw [hop]
      exact writeCheck_badPair hp hc hdev hlen hbad
    exact settles_of_ready cmdParamWritePaired rfl hr (writeWhole_refused hf hcheck)
  case waits =>
    intro ws hp hc hkey hcheck hb
    have hop : c.opcode = 0x0102 := hr.2.1
    refine settles_of_ready cmdParamWritePaired rfl hr ((writeWhole_accepted hf (by rw [hop]; exact hcheck)).trans ?_)
    rw [writeValue, if_neg hkey, landValue_waits hp hb]

/-- Settles O18: each command in its branches; a command that names no open batch has one refusal (`refuse_noBatch`). -/
theorem batches : Obligations.Batches := by
  refine fun s id c => ⟨fun hr => ⟨fun h => ?full, fun h => ?opens⟩,
    fun hr => ⟨fun b hb => ⟨fun hg => ?commits, fun hg => ?fails⟩, fun hb => ?commitNone⟩,
    fun hr => ⟨fun b hb => ?aborts, fun hb => ?abortNone⟩, fun n b hb => ?discards, fun a k => ?assembly⟩
  case full => exact moves_of_ready cmdCfgBegin rfl hr (cmdCfgBegin_full h)
  case opens => exact moves_of_ready cmdCfgBegin rfl hr (cmdCfgBegin_opens h)
  case commits => exact moves_of_ready cmdCfgCommit rfl hr (cmdCfgCommit_begins hb hg)
  case fails => exact moves_of_ready cmdCfgCommit rfl hr (cmdCfgCommit_fails hb hg)
  case commitNone => exact moves_of_ready cmdCfgCommit rfl hr ((cmdCfgCommit_noBatch hb).trans (refuse_noBatch _))
  case aborts => exact moves_of_ready cmdCfgAbort rfl hr (cmdCfgAbort_drops hb)
  case abortNone => exact moves_of_ready cmdCfgAbort rfl hr ((cmdCfgAbort_noBatch hb).trans (refuse_noBatch _))
  case discards => exact moves_of_quiet (batchDiscard n.toNat) rfl (batchDiscard_discards hb)
  case assembly => exact moves_of_quiet (assemblyDiscard a.toNat k.val) rfl rfl

/-- Settles O19: a command ends where it has not begun to apply (`cancelCmd_ends`), and nowhere else (`cancelCmd_none`). -/
theorem abortsAndTimeouts : Obligations.AbortsAndTimeouts := by
  refine fun s id c x => ⟨fun hr hid => ⟨fun hx hp => ?aborts, fun hnone => ?nothing⟩, fun hr hid => ?own,
    fun hx ht hp => ?ends, fun h => ?stays⟩
  case aborts => exact moves_of_ready cmdCmdAbort rfl hr (cmdCmdAbort_ends hid hx hp)
  case nothing => exact moves_of_ready cmdCmdAbort rfl hr (cmdCmdAbort_none hid hnone)
  case own => exact moves_of_ready cmdCmdAbort rfl hr (cmdCmdAbort_own hid)
  case ends => exact moves_of_quiet (commandTimeout id) rfl (commandTimeout_ends hx ht hp)
  case stays => exact stays_of_quiet (commandTimeout id) rfl (commandTimeout_stays h)

end Sys2Proof
end

section
/-!
Images, firmware and replays (R28, R77, R87, R93, R94, R551, R564; log entries 32, 44, 153, 154, 160).
-/
namespace Sys2Proof.Machine

section
variable {c : Cmd} {d : Dev}

/-! ## Images (R94) -/

theorem cmdImgOpen_opens (hn : byteAt c.payload 0 ≤ 1) (hlo : 32 ≤ field c.payload 4 4) (hhi : field c.payload 4 4 ≤ 131072) :
    cmdImgOpen c d = queueFlash c 0 0 [] none (slotMod (byteAt c.payload 0) (fun x =>
        { x with bytes := List.replicate (field c.payload 4 4) 0xFF, opened := some (field c.payload 4 4), closed := false })
      { d with cmd := { d.cmd with slots := d.cmd.slots.map fun x => { x with opened := none } } }) :=
  if_neg (by omega)

theorem cmdImgOpen_range (h : 1 < byteAt c.payload 0 ∨ field c.payload 4 4 < 32 ∨ 131072 < field c.payload 4 4) :
    cmdImgOpen c d = complete c stRange 0 [] d :=
  if_pos h

theorem cmdImgData_notOpen (h : openSlot d = none) : cmdImgData c d = complete c stRefused 0 [] d := by
  simp only [cmdImgData, h]
  rfl

theorem cmdImgClose_notOpen (h : openSlot d = none) : cmdImgClose c d = complete c stRefused 0 [] d := by
  simp only [cmdImgClose, h]
  rfl

section
variable {n len : Nat} (h : openSlot d = some (n, len))
include h

theorem cmdImgData_range (hlen : len < field c.payload 0 4 + ((c.payload.drop 4).take (c.length - 4)).length) :
    cmdImgData c d = complete c stRange 0 [] d := by
  simp only [cmdImgData, h, hlen, if_true]
  rfl

theorem cmdImgData_writes (hlen : field c.payload 0 4 + ((c.payload.drop 4).take (c.length - 4)).length ≤ len) :
    cmdImgData c d = queueFlash c 0 0 [] none (slotMod n (fun x =>
      { x with bytes := overwrite x.bytes (field c.payload 0 4) ((c.payload.drop 4).take (c.length - 4)) }) d) := by
  simp only [cmdImgData, h, Nat.not_lt.2 hlen, if_false]

theorem cmdImgClose_integrity (hcrc : imgCrc (slotOf d n).bytes ≠ field c.payload 0 4) :
    cmdImgClose c d = complete c stIntegrity 0 [] d := by
  simp only [cmdImgClose, h, bne_iff_ne.2 hcrc, if_true]
  rfl

theorem cmdImgClose_stores (hcrc : imgCrc (slotOf d n).bytes = field c.payload 0 4) :
    let gen := (max (generation d 0) (generation d 1) + 1) % 2 ^ 32
    let bs := overwrite (slotOf d n).bytes 12 (le 4 gen)
    cmdImgClose c d = queueFlash c 1 n (le 4 gen) none
      (slotMod n (fun x => { x with bytes := overwrite bs 28 (le 4 (imgCrc bs)), opened := none }) d) := by
  simp only [cmdImgClose, h, hcrc, bne_self_eq_false, Bool.false_eq_true, if_false]

end

theorem cmdImgApply_range (h : 1 < byteAt c.payload 0) : cmdImgApply c d = complete c stRange 0 [] d := if_pos h

section
variable (hn : byteAt c.payload 0 ≤ 1)
include hn

theorem cmdImgApply_integrity (h : imageRecords d (byteAt c.payload 0) = none) :
    cmdImgApply c d = complete c stIntegrity 0 [] d := by
  simp only [cmdImgApply, Nat.not_lt.2 hn, if_false, h]
  rfl

section
variable {rs : List (Nat × List Word)} (h : imageRecords d (byteAt c.payload 0) = some rs)
include h

theorem cmdImgApply_busy (hb : ∃ r ∈ rs, recordBusy d r.1 = true) : cmdImgApply c d = complete c stBusyRunning 0 [] d := by
  simp only [cmdImgApply, Nat.not_lt.2 hn, if_false, h, List.any_eq_true.2 hb, if_true]
  rfl

theorem cmdImgApply_begins (hb : ∀ r ∈ rs, recordBusy d r.1 = false) : cmdImgApply c d = begin_ c.id d := by
  have hany : (rs.any fun r => recordBusy d r.1) = false := by simpa [List.any_eq_false] using hb
  simp only [cmdImgApply, Nat.not_lt.2 hn, if_false, h, hany, Bool.false_eq_true]

end

theorem cmdImgErase_erases : cmdImgErase c d =
    queueFlash c 2 (byteAt c.payload 0) [] none (slotMod (byteAt c.payload 0) (fun x => { x with opened := none }) d) :=
  if_neg (Nat.not_lt.2 hn)

end

theorem cmdImgErase_range (h : 1 < byteAt c.payload 0) : cmdImgErase c d = complete c stRange 0 [] d := if_pos h

/-! ## Firmware (R93) -/

theorem cmdFwOpen_range (h : field c.payload 0 4 = 0 ∨ 2 ^ 21 < field c.payload 0 4) :
    cmdFwOpen c d = complete c stRange 0 [] d :=
  if_pos h

theorem cmdFwOpen_opens (h0 : field c.payload 0 4 ≠ 0) (hmax : field c.payload 0 4 ≤ 2 ^ 21) :
    cmdFwOpen c d = queueFlash c 0 0 [] none { d with cmd := { d.cmd with fw := { d.cmd.fw with
      opened := some (field c.payload 0 4), bytes := [], checked := false } } } :=
  if_neg (by omega)

theorem cmdFwData_notOpen (h : d.cmd.fw.opened = none) : cmdFwData c d = complete c stRefused 0 [] d := by
  simp only [cmdFwData, h]
  rfl

theorem cmdFwClose_notOpen (h : d.cmd.fw.opened = none) : cmdFwClose c d = complete c stRefused 0 [] d := by
  simp only [cmdFwClose, h]
  rfl

section
variable {len : Nat} (h : d.cmd.fw.opened = some len)
include h

theorem cmdFwData_range (hlen : len < field c.payload 0 4 + ((c.payload.drop 4).take (c.length - 4)).length) :
    cmdFwData c d = complete c stRange 0 [] d := by
  simp only [cmdFwData, h, hlen, if_true]
  rfl

theorem cmdFwData_writes (hlen : field c.payload 0 4 + ((c.payload.drop 4).take (c.length - 4)).length ≤ len) :
    cmdFwData c d = queueFlash c 0 0 [] none { d with cmd := { d.cmd with fw := { d.cmd.fw with
      bytes := overwrite (d.cmd.fw.bytes ++ List.replicate (field c.payload 0 4 - d.cmd.fw.bytes.length) 0xFF)
        (field c.payload 0 4) ((c.payload.drop 4).take (c.length - 4)) } } } := by
  simp only [cmdFwData, h, Nat.not_lt.2 hlen, if_false, fwMod]

theorem cmdFwClose_integrity
    (himg : Config.fwImage (d.cmd.fw.bytes ++ List.replicate (len - d.cmd.fw.bytes.length) 0xFF) = none) :
    cmdFwClose c d = complete c stIntegrity 0 [] d := by
  simp only [cmdFwClose, h, himg]
  rfl

theorem cmdFwClose_returns {v : Word}
    (himg : Config.fwImage (d.cmd.fw.bytes ++ List.replicate (len - d.cmd.fw.bytes.length) 0xFF) = some v) :
    cmdFwClose c d = queueFlash c 4 0 (le 4 v.toNat) none
      { d with cmd := { d.cmd with fw := { d.cmd.fw with opened := none } } } := by
  simp only [cmdFwClose, h, himg]
  rfl

end

theorem cmdFwSwitch_refused (h : d.cmd.fw.checked = false) : cmdFwSwitch c d = complete c stRefused 0 [] d :=
  if_pos (by simp [h])

theorem cmdFwSwitch_chooses (h : d.cmd.fw.checked = true) : cmdFwSwitch c d = queueFlash c 0 0 [] none
    { d with cmd := { d.cmd with fw := { d.cmd.fw with nextBank := !d.host.fwBank } } } :=
  if_neg (by simp [h])

/-! ## Replays (R77, R551, R564) -/

theorem cmdLogRead_range (h : 1 < byteAt c.payload 0) : cmdLogRead c d = complete c stRange 0 [] d := if_pos h

theorem cmdLogRead_places (h : byteAt c.payload 0 ≤ 1) :
    let log := if byteAt c.payload 0 = 0 then d.hlt.healthLog else d.hlt.ageLog
    let old := log.take (log.length - field c.payload 4 4)
    let rs := old.drop (old.length - field c.payload 8 4)
    let n := if (ringOf d 17).en then min rs.length ((ringOf d 17).free / (byteAt c.payload 0 + 1)) else 0
    cmdLogRead c d = queueFlash c 0 0 (le 4 n) none
      (forEach ((rs.take n).flatMap logEntries) (fun b d => emit (.push 17 b) d) d) :=
  if_neg (Nat.not_lt.2 h)

theorem cmdRecordFetch_range (h : field c.payload 4 4 = 0 ∨ 1800 < field c.payload 4 4) :
    cmdRecordFetch c d = complete c stRange 0 [] d :=
  if_pos h

theorem cmdRecordFetch_queues (h0 : field c.payload 4 4 ≠ 0) (hmax : field c.payload 4 4 ≤ 1800) :
    let is := (d.idn.records.map (·.1)).filter fun i =>
      field c.payload 0 4 ≤ i && i < field c.payload 0 4 + field c.payload 4 4
    cmdRecordFetch c d = copyFlush (queueFlash c 0 0 (le 4 is.length) none
      (idnMod (fun x => { x with copies := x.copies ++ is }) d)) :=
  if_neg (by omega)

end

/-! ## Flash commands begin or wait (R86, R87, R509; log entry 160) -/

section
variable {i : Instr} {s : State} {id : CmdId} {op : Nat} {c : Cmd} {t : Dev} (f : Cmd → Dev → Dev)

/-- A row of a ready flash command whose turn it is moves the device by the command's meaning. -/
theorem moves_of_flashFree (hx : exec i s = quiet (withCmd op id (flashTurn f)) s) (hfree : FlashFree s)
    (hr : Ready s id op c) (h : f c s.dev = t) : Moves i s t :=
  moves_of_ready (flashTurn f) hx hr ((flashTurn_free f hfree).trans h)

/-- A row of a ready flash command whose turn it is not queues the command. -/
theorem moves_of_flashBusy (hx : exec i s = quiet (withCmd op id (flashTurn f)) s) (hq : ¬FlashFree s)
    (hr : Ready s id op c) : Moves i s (flashQueued c s.dev) :=
  moves_of_ready (flashTurn f) hx hr (flashTurn_queued f hq)

end

end Sys2Proof.Machine

namespace Sys2Proof
open Machine

/-- Settles O20: a flash command waits or begins by its turn (log entry 160), and each command answers in its branches: lengths
out of range are log entry 153, a bank that is not open is log entry 154, a slot that is not open log entry 32. -/
theorem imageAndFirmwareCommands : Obligations.ImageAndFirmwareCommands := by
  refine ⟨fun s id c => ⟨fun hq => ⟨fun hr => ?openQ, fun hr => ?dataQ, fun hr => ?closeQ, fun hr => ?eraseQ⟩,
      fun hfree hr hn hlo hhi => ?opens, fun hfree hr h => ?openRange,
      fun hfree hr => ⟨fun h => ?dataNone, fun n len h => ⟨fun hlen => ?dataRange, fun hlen => ?data⟩⟩,
      fun hfree hr => ⟨fun h => ?closeNone, fun n len h => ⟨fun hcrc => ?closeCrc, fun hcrc => ?closes⟩⟩,
      fun hr => ⟨fun h => ?applyRange, fun hn h => ?applyIntegrity, fun rs hn h => ⟨fun hb => ?applyBusy, fun hb => ?applies⟩⟩,
      fun hfree hr => ⟨fun h => ?eraseRange, fun hn => ?erases⟩⟩,
    fun s id c => ⟨fun hq => ⟨fun hr => ?fwOpenQ, fun hr => ?fwDataQ, fun hr => ?fwCloseQ, fun hr => ?fwSwitchQ⟩,
      fun hfree hr => ⟨fun h => ?fwOpenRange, fun h0 hmax => ?fwOpens⟩,
      fun hfree hr => ⟨fun h => ?fwDataNone, fun len h => ⟨fun hlen => ?fwDataRange, fun hlen => ?fwData⟩⟩,
      fun hfree hr => ⟨fun h => ?fwCloseNone, fun len h => ⟨fun himg => ?fwIntegrity, fun v himg => ?fwCloses⟩⟩,
      fun hfree hr => ⟨fun h => ?fwUnchecked, fun h => ?fwSwitches⟩⟩⟩
  case openQ => exact moves_of_flashBusy cmdImgOpen rfl hq hr
  case dataQ => exact moves_of_flashBusy cmdImgData rfl hq hr
  case closeQ => exact moves_of_flashBusy cmdImgClose rfl hq hr
  case eraseQ => exact moves_of_flashBusy cmdImgErase rfl hq hr
  case opens => exact moves_of_flashFree cmdImgOpen rfl hfree hr (cmdImgOpen_opens hn hlo hhi)
  case openRange => exact moves_of_flashFree cmdImgOpen rfl hfree hr (cmdImgOpen_range h)
  case dataNone => exact moves_of_flashFree cmdImgData rfl hfree hr (cmdImgData_notOpen h)
  case dataRange => exact moves_of_flashFree cmdImgData rfl hfree hr (cmdImgData_range h hlen)
  case data => exact moves_of_flashFree cmdImgData rfl hfree hr (cmdImgData_writes h hlen)
  case closeNone => exact moves_of_flashFree cmdImgClose rfl hfree hr (cmdImgClose_notOpen h)
  case closeCrc => exact moves_of_flashFree cmdImgClose rfl hfree hr (cmdImgClose_integrity h hcrc)
  case closes => exact moves_of_flashFree cmdImgClose rfl hfree hr (cmdImgClose_stores h hcrc)
  case applyRange => exact moves_of_ready cmdImgApply rfl hr (cmdImgApply_range h)
  case applyIntegrity => exact moves_of_ready cmdImgApply rfl hr (cmdImgApply_integrity hn h)
  case applyBusy => exact moves_of_ready cmdImgApply rfl hr (cmdImgApply_busy hn h hb)
  case applies => exact moves_of_ready cmdImgApply rfl hr (cmdImgApply_begins hn h hb)
  case eraseRange => exact moves_of_flashFree cmdImgErase rfl hfree hr (cmdImgErase_range h)
  case erases => exact moves_of_flashFree cmdImgErase rfl hfree hr (cmdImgErase_erases hn)
  case fwOpenQ => exact moves_of_flashBusy cmdFwOpen rfl hq hr
  case fwDataQ => exact moves_of_flashBusy cmdFwData rfl hq hr
  case fwCloseQ => exact moves_of_flashBusy cmdFwClose rfl hq hr
  case fwSwitchQ => exact moves_of_flashBusy cmdFwSwitch rfl hq hr
  case fwOpenRange => exact moves_of_flashFree cmdFwOpen rfl hfree hr (cmdFwOpen_range h)
  case fwOpens => exact moves_of_flashFree cmdFwOpen rfl hfree hr (cmdFwOpen_opens h0 hmax)
  case fwDataNone => exact moves_of_flashFree cmdFwData rfl hfree hr (cmdFwData_notOpen h)
  case fwDataRange => exact moves_of_flashFree cmdFwData rfl hfree hr (cmdFwData_range h hlen)
  case fwData => exact moves_of_flashFree cmdFwData rfl hfree hr (cmdFwData_writes h hlen)
  case fwCloseNone => exact moves_of_flashFree cmdFwClose rfl hfree hr (cmdFwClose_notOpen h)
  case fwIntegrity => exact moves_of_flashFree cmdFwClose rfl hfree hr (cmdFwClose_integrity h himg)
  case fwCloses => exact moves_of_flashFree cmdFwClose rfl hfree hr (cmdFwClose_returns h himg)
  case fwUnchecked => exact moves_of_flashFree cmdFwSwitch rfl hfree hr (cmdFwSwitch_refused h)
  case fwSwitches => exact moves_of_flashFree cmdFwSwitch rfl hfree hr (cmdFwSwitch_chooses h)

/-- Settles O21: the two flash commands wait or begin by their turn (log entry 160); which records HLT_LOG_READ places is log
entry 38, and that the copies of ID_RECORD_FETCH are placed when it begins is log entry 121. -/
theorem replayCommands : Obligations.ReplayCommands := by
  refine fun s id c => ⟨fun hq => ⟨fun hr => ?logQ, fun hr => ?recordQ⟩, fun hr => ?events, fun hfree hr h => ?logRange,
    fun hfree hr h => ?log, fun hfree hr h => ?recordRange, fun hfree hr h0 hmax => ?records⟩
  case logQ => exact settles_of_ready (flashTurn cmdLogRead) rfl hr (flashTurn_queued cmdLogRead hq)
  case recordQ => exact settles_of_ready (flashTurn cmdRecordFetch) rfl hr (flashTurn_queued cmdRecordFetch hq)
  case events => exact settles_of_ready cmdEvtFetch rfl hr rfl
  case logRange =>
    exact settles_of_ready (flashTurn cmdLogRead) rfl hr ((flashTurn_free cmdLogRead hfree).trans (cmdLogRead_range h))
  case log =>
    exact settles_of_ready (flashTurn cmdLogRead) rfl hr ((flashTurn_free cmdLogRead hfree).trans (cmdLogRead_places h))
  case recordRange =>
    exact settles_of_ready (flashTurn cmdRecordFetch) rfl hr
      ((flashTurn_free cmdRecordFetch hfree).trans (cmdRecordFetch_range h))
  case records =>
    exact settles_of_ready (flashTurn cmdRecordFetch) rfl hr
      ((flashTurn_free cmdRecordFetch hfree).trans (cmdRecordFetch_queues h0 hmax))

end Sys2Proof
end

section
/-!
Rings, doorbells and interrupts: ring registers, the taking of an entry, the age of a ring and silence (R68, R73-R84, R100, R435).
-/
namespace Sys2Proof.Machine

/-! ## One ring changed -/

section
variable {d : Dev} {q : Nat} {f : Ring → Ring}

theorem ringOf_ringMod_same (h : q < 20) : ringOf (ringMod q f d) q = f (ringOf d q) := vAt_vModN_same _ _ _ h

theorem ringOf_ringMod_other {p : Nat} (h : q ≠ p) : ringOf (ringMod q f d) p = ringOf d p := vAt_vModN_other _ _ _ h

/-- What a device's rings are decides what each of them is. -/
theorem ringOf_congr {e : Dev} (h : e.rings = d.rings) (q : Nat) : ringOf e q = ringOf d q := by
  rw [ringOf, h, ringOf]

end

/-! ## Interrupt bits (R68) -/

section
variable {d : Dev} {q : Nat}

/-- A check of a queue's interrupt condition changes no more than HST_INT_STATUS. -/
theorem irqCheck_host (q : Nat) (d : Dev) : HostMoved d (irqCheck q d) := by
  simp only [irqCheck]
  split
  · exact ⟨_, rfl⟩
  · exact ⟨d.host, rfl⟩

@[simp] theorem irqCheck_rings (q : Nat) (d : Dev) : (irqCheck q d).rings = d.rings := by
  obtain ⟨_, h⟩ := irqCheck_host q d
  rw [h]

theorem irqCheck_fires (hq : q < 18) (h : irqCond q (ringOf d q) = true) : irqCheck q d = intSet (2 ^ q) d :=
  if_pos (by simp only [Bool.and_eq_true, decide_eq_true_eq]; exact ⟨hq, h⟩)

theorem getLsbD_intSet_of_set {m k : Nat} (h : d.host.intStatus.getLsbD k = true) :
    (intSet m d).host.intStatus.getLsbD k = true := by
  simp [h]

theorem getLsbD_intSet_same (hq : q < 32) : (intSet (2 ^ q) d).host.intStatus.getLsbD q = true := by
  simp only [intSet_host, w32, BitVec.getLsbD_or, BitVec.getLsbD_ofNat, hq, decide_true, Nat.testBit_two_pow_self,
    Bool.and_self, Bool.or_true]

theorem getLsbD_irqCheck_of_set {k : Nat} (p : Nat) (h : d.host.intStatus.getLsbD k = true) :
    (irqCheck p d).host.intStatus.getLsbD k = true := by
  simp only [irqCheck]
  split
  · exact getLsbD_intSet_of_set h
  · exact h

/-- The checks of a list of queues leave a bit set that is set, and set that of a listed queue whose condition holds. -/
theorem getLsbD_irqChecks (hq : q < 18) (xs : List Nat) {d : Dev} (hc : irqCond q (ringOf d q) = true)
    (h : d.host.intStatus.getLsbD q = true ∨ q ∈ xs) : (forEach xs irqCheck d).host.intStatus.getLsbD q = true := by
  induction xs generalizing d with
  | nil => exact h.resolve_right List.not_mem_nil
  | cons x xs ih =>
    refine ih (d := irqCheck x d) (by rwa [ringOf_congr (irqCheck_rings x d)]) ?_
    rcases h with h | h
    · exact .inl (getLsbD_irqCheck_of_set x h)
    · rcases List.mem_cons.1 h with rfl | h
      · refine .inl ?_
        rw [irqCheck_fires hq hc]
        exact getLsbD_intSet_same (by omega)
      · exact .inr h

theorem bitOf_eq_testBit (x k : Nat) : bitOf x k = x.testBit k := by
  rw [bitOf, Nat.testBit_eq_decide_div_mod_eq, Nat.shiftRight_eq_div_pow]
  rfl

/-- A bit whose condition holds is set again where it is cleared. -/
theorem intClear_conditionHolds (hq : q < 18) (v : Nat) (hs : d.host.intStatus.getLsbD q = true)
    (hc : irqCond q (ringOf d q) = true) : (intClear v d).host.intStatus.getLsbD q = true := by
  simp only [intClear]
  refine getLsbD_irqChecks hq _ hc ?_
  by_cases hv : v.testBit q = true
  · refine .inr (List.mem_filter.2 ⟨List.mem_range.2 hq, ?_⟩)
    rw [bitOf_eq_testBit, Nat.testBit_and, hv, BitVec.testBit_toNat, hs]
    rfl
  · refine .inl ?_
    simp [w32, BitVec.getLsbD_ofNat, hs, hv]
    omega

end

/-! ## The age of a ring (R68) -/

section
variable {d : Dev} {q : Nat}

/-- A ring whose oldest entry is marked as aged meets its age condition. -/
theorem irqCond_aged {r : Ring} (hen : r.en = true) (hp : hostProduced q = false) (hc : r.irqCount ≠ 0) (ht : r.irqTime ≠ 0)
    (hn : r.count ≠ 0) : irqCond q { r with aged := true } = true := by
  have hage : ageCond q { r with aged := true } = true := by
    rw [ageCond, show Ring.count { r with aged := true } = r.count from rfl]
    simp [hp, ht, hn]
  rw [irqCond, hage]
  simp [hen, hc]

theorem queueAge_marks (hq : q < 18) (hen : (ringOf d q).en = true) (hp : hostProduced q = false)
    (hc : (ringOf d q).irqCount ≠ 0) (ht : (ringOf d q).irqTime ≠ 0) (hn : (ringOf d q).count ≠ 0) :
    let e := ringMod q (fun r => { r with aged := true }) d
    queueAge ⟨q, hq⟩ d = intSet (2 ^ q) e ∧ irqCond q (ringOf e q) = true := by
  have hcond : irqCond q (ringOf (ringMod q (fun r => { r with aged := true }) d) q) = true := by
    rw [ringOf_ringMod_same (by omega)]
    exact irqCond_aged hen hp hc ht hn
  exact ⟨(if_pos (by simp [hen, hp, hc, ht, hn])).trans (irqCheck_fires hq hcond), hcond⟩

theorem queueAge_stays {q : Fin 18} (h : (ringOf d q).en = false ∨ hostProduced q = true ∨ (ringOf d q).irqCount = 0 ∨
    (ringOf d q).irqTime = 0 ∨ (ringOf d q).count = 0) : queueAge q d = d :=
  if_neg (by rcases h with h | h | h | h | h <;> simp [h])

end

/-! ## Silence (R100, R435) -/

section
variable {d : Dev}

theorem hostSilence_begins (ht : pget d kHstSilenceMs 0 ≠ 0) (hh : d.host.heard = true) (hs : d.host.silent = false)
    (h6 : domOn d 6 = true) : hostSilence d = ctlSilence 0 (raise 6 0xC001 (subPath 0xC) [0]
      { d with host := { d.host with silent := true } }) :=
  if_neg (by simp [ht, hh, hs, h6])

theorem hostSilence_stays (h : pget d kHstSilenceMs 0 = 0 ∨ d.host.heard = false ∨ d.host.silent = true ∨ domOn d 6 = false) :
    hostSilence d = d :=
  if_pos (by rcases h with h | h | h | h <;> simp [h])

section
variable {ch : Fin 2} {k : Fin 8}

theorem remoteSilence_begins (ht : pget d kHstRmbSilenceMs 0 ≠ 0) (hh : 8 * ch.val + k.val ∈ d.host.rmbHeard)
    (hs : 8 * ch.val + k.val ∉ d.host.rmbSilent) : remoteSilence ch k d =
      ctlSilence (1 + (8 * ch.val + k.val)) (raise 6 0xC001 (subPath 0xC) (le 1 (1 + ch.val))
        { d with host := { d.host with rmbSilent := d.host.rmbSilent ++ [8 * ch.val + k.val] } }) :=
  if_neg (by simp [ht, hh, hs])

theorem remoteSilence_stays (h : pget d kHstRmbSilenceMs 0 = 0 ∨ 8 * ch.val + k.val ∉ d.host.rmbHeard ∨
    8 * ch.val + k.val ∈ d.host.rmbSilent) : remoteSilence ch k d = d :=
  if_pos (by rcases h with h | h | h <;> simp [h])

end

end

/-! ## Doorbells (R73, R74) -/

section
variable {d : Dev} {q v : Nat}

/-- An error of a doorbell marks its ring and leaves every other. -/
theorem ringOf_dbError (hq : q < 20) : ringOf (dbError q d) q = { ringOf d q with dbErr := true } := ringOf_ringMod_same hq

theorem ringOf_dbError_other {p : Nat} (h : p ≠ q) : ringOf (dbError q d) p = ringOf d p := ringOf_ringMod_other h.symm

theorem snapFlush_rings (d : Dev) : (snapFlush d).rings = d.rings := by
  simp only [snapFlush]
  repeat' split
  all_goals rfl

theorem copyFlush_rings (d : Dev) : (copyFlush d).rings = d.rings := by
  simp only [copyFlush]
  split
  · rfl
  · refine forEach_keeps (·.rings) (fun i d => ?_) _ d
    split <;> rfl

theorem ringOpens_rings (q : Nat) (d : Dev) : (ringOpens q d).rings = d.rings := by
  simp only [ringOpens]
  repeat' split
  · exact snapFlush_rings d
  · exact copyFlush_rings d
  · rfl

theorem lossRaise_rings (d : Dev) : (lossRaise d).rings = d.rings := by
  simp only [lossRaise]
  repeat' split
  all_goals rfl

/-- What follows from the host's consuming entries leaves the ring registers. -/
theorem consumed_rings (q first n : Nat) (d : Dev) : (consumed q first n d).rings = d.rings := by
  simp only [consumed]
  repeat' split
  · rfl
  · rfl
  · exact lossRaise_rings d
  · exact ringOpens_rings q d

section
variable (hp : hostProduced q = true)
include hp

theorem doorbell_tail
    (hlo : ((ringOf d q).tail + 65536 - (ringOf d q).back q) % 65536 ≤ (v % 65536 + 65536 - (ringOf d q).back q) % 65536)
    (hhi : (v % 65536 + 65536 - (ringOf d q).back q) % 65536 ≤ (ringOf d q).size) :
    doorbell q v d = ringMod q (fun r => { r with tail := v % 65536 }) d := by
  simp only [doorbell, hp, hlo, hhi, decide_true, Bool.and_self, if_true]

theorem doorbell_overflows
    (h : ¬(((ringOf d q).tail + 65536 - (ringOf d q).back q) % 65536 ≤ (v % 65536 + 65536 - (ringOf d q).back q) % 65536 ∧
      (v % 65536 + 65536 - (ringOf d q).back q) % 65536 ≤ (ringOf d q).size)) : doorbell q v d = dbError q d := by
  simp only [doorbell, hp, if_true]
  exact if_neg (by simpa using h)

end

section
variable (hp : hostProduced q = false)
include hp

theorem doorbell_head (h : (v % 65536 + 65536 - (ringOf d q).head) % 65536 ≤ (ringOf d q).count) :
    let n := (v % 65536 + 65536 - (ringOf d q).head) % 65536
    doorbell q v d = consumed q (ringOf d q).head n
      (ringMod q (fun r => { r with head := v % 65536, aged := r.aged && n == 0 }) d) := by
  simp only [doorbell, hp, Bool.false_eq_true, if_false, h, if_true]

theorem doorbell_passesTail (h : ¬(v % 65536 + 65536 - (ringOf d q).head) % 65536 ≤ (ringOf d q).count) :
    doorbell q v d = dbError q d := by
  simp only [doorbell, hp, Bool.false_eq_true, if_false, h]

end

end

/-! ## An entry whose tag is live (R76, R84) -/

/-- The device with the entry at the head of a host ring taken and its completion slot reserved, before the entry is judged. -/
def slotReserved (r : Fin 4) (s : State) : Dev :=
  let d := irqCheck r (ringMod r (fun q => { q with head := (q.head + 1) % 65536 }) s.dev)
  { d with cmd := turned r false { d.cmd with resv := vMod d.cmd.resv r (· + 1) } }

/-- The completion slot that the next entry of a host ring is given. -/
def nextSlot (d : Dev) (r : Fin 4) : Nat := ((ringOf d (r.val + 4)).tail + d.cmd.resv.get r) % 65536

/-- The entry at the head of a host ring as the device holds it. -/
def headCmd (s : State) (r : Fin 4) : Cmd :=
  entryCmd (.host ((headEntry s r).headD 0)) r 0 (nextSlot s.dev r) (headEntry s r)

theorem takeHost_eq (r : Fin 4) (s : State) : takeHost r s =
    { s with
      dev := enter (headCmd s r) (headEntry s r) (badIn s.dev ((ringOf s.dev r).slotAt r (ringOf s.dev r).head) 64)
        (slotReserved r s) } := rfl

/-- What the reservation of a slot touches. -/
theorem slotReserved_parts (r : Fin 4) (s : State) : ∃ h resv q23 turn, slotReserved r s = { s.dev with
    host := h, rings := (slotReserved r s).rings,
    cmd := { s.dev.cmd with resv := resv, q23 := q23, laneTurn := turn } } := by
  obtain ⟨h, hirq⟩ := irqCheck_host r (ringMod r (fun q => { q with head := (q.head + 1) % 65536 }) s.dev)
  refine ⟨h, (slotReserved r s).cmd.resv, (slotReserved r s).cmd.q23, (slotReserved r s).cmd.laneTurn, ?_⟩
  simp only [slotReserved, hirq]
  rfl

/-- An entry whose tag is live is completed at once and not executed. -/
theorem enter_duplicate {c x : Cmd} {d : Dev} (h : liveCmd d c.id = some x) (b : List Byte) (bad : Bool) :
    let e : Cmd := { c with dup := true, phase := .done }
    enter c b bad d =
      post 5 (.comp (compOf e stNoTag 0 false [])) { d with cmd := { d.cmd with live := d.cmd.live ++ [e] } } :=
  if_pos (by simp [h])

/-- A command that is live stays so beside entries that join. -/
theorem liveCmd_append {d e : Dev} {id : CmdId} {x : Cmd} (h : liveCmd d id = some x) {xs : List Cmd}
    (he : e.cmd.live = d.cmd.live ++ xs) : liveCmd e id = some x := by
  rw [liveCmd, he, List.find?_append]
  rw [liveCmd] at h
  rw [h, Option.some_or]

end Sys2Proof.Machine

namespace Sys2Proof
open Machine

/-- Settles O8: a doorbell moves its index or marks its ring, and what follows from entries consumed leaves the registers
(`consumed_rings`). -/
theorem doorbellMovesTheIndex : Obligations.DoorbellMovesTheIndex := by
  refine fun d q v => ⟨fun hp hlo hhi => ?tail, fun hp h => ?head, fun h => ?error⟩
  case tail => rw [doorbell_tail hp hlo hhi, ringOf_ringMod_same (by omega)]
  case head =>
    rw [doorbell_head hp h, ringOf_congr (consumed_rings _ _ _ _), ringOf_ringMod_same (by omega)]
    exact ⟨rfl, rfl⟩
  case error =>
    have hdb : doorbell q v d = dbError q d := by
      cases hp : hostProduced q with
      | true => exact doorbell_overflows hp (by simpa [hp] using h)
      | false => exact doorbell_passesTail hp (by simpa [hp] using h)
    rw [hdb]
    exact ⟨ringOf_dbError (by omega), fun p hne => ringOf_dbError_other (by omega)⟩

/-- Settles O22: silence begins once, a ring that has aged meets its condition, and a bit whose condition holds is set again. -/
theorem silenceAndQueueAge : Obligations.SilenceAndQueueAge := by
  refine ⟨fun s ch k => ⟨fun ht hh hs h6 => ?hostBegins, fun h => ?hostStays, fun ht hh hs => ?remoteBegins,
    fun h => ?remoteStays⟩, fun s q => ⟨fun hen hp hc ht hn => ?ages, fun v => ?setAgain, fun h => ?ageStays⟩⟩
  case hostBegins => exact moves_of_quiet Machine.hostSilence rfl (hostSilence_begins ht hh hs h6)
  case hostStays => exact stays_of_quiet Machine.hostSilence rfl (hostSilence_stays h)
  case remoteBegins => exact moves_of_quiet (remoteSilence ch k) rfl (remoteSilence_begins ht hh hs)
  case remoteStays => exact stays_of_quiet (remoteSilence ch k) rfl (remoteSilence_stays h)
  case ages =>
    obtain ⟨hage, hcond⟩ := queueAge_marks q.isLt hen hp hc ht hn
    exact ⟨moves_of_quiet (queueAge q) rfl hage, hcond⟩
  case setAgain => exact intClear_conditionHolds q.isLt v
  case ageStays => exact stays_of_quiet (queueAge q) rfl (queueAge_stays h)

/-- Settles O49: the entry is taken and its slot reserved, and then it is completed and joins the entries marked DUP. -/
theorem duplicateTagIsNotExecuted : Obligations.DuplicateTagIsNotExecuted := by
  intro s r x hx
  have hid : x.id = .host ((headEntry s r).headD 0) := liveCmd_id hx
  obtain ⟨h, resv, q23, turn, hres⟩ := slotReserved_parts r s
  have hlive : liveCmd (slotReserved r s) (headCmd s r).id = some x := by rw [hres]; exact hx
  have htake := takeHost_eq r s
  rw [enter_duplicate hlive, hres] at htake
  intro slot c t
  have ht : t = _ := htake
  clear_value t
  subst ht
  refine ⟨rfl, rfl, rfl, rfl, rfl, ?_, ?_, fun p hp => ?_⟩
  · rw [hid]
    exact liveCmd_append hx rfl
  · exact vMod_get_same _ _ _
  · exact vMod_get_other _ _ hp.symm

end Sys2Proof
end

section
/-!
Transactions on the host link: writes and reads that are well formed, writes with a bad CRC, and the registers they reach (R55-R68,
R74, R78, R97).
-/
namespace Sys2Proof.Machine

/-! ## Writes (R57, R60) -/

section
variable (a : Nat) {vs : List Nat}

theorem byteAt_writeBytes (hn : vs ≠ []) (hl : vs.length ≤ 64) : 128 ≤ byteAt (writeBytes a vs) 0 := by
  have h0 : 0 < vs.length := List.length_pos_iff.2 hn
  simp only [byteAt, writeBytes, le, List.cons_append, List.getD_cons_zero, BitVec.toNat_ofNat]
  split <;> omega

theorem registerWrite_linked (hn : vs ≠ []) (hl : vs.length ≤ 64) (s : State) :
    exec (.registerWrite (writeBytes a vs)) s = linked (writeBytes a vs) s :=
  if_pos (byteAt_writeBytes a hn hl)

/-- A row that writes one register is the write of one word. -/
theorem registerWrite_word (v : Word) (s : State) :
    exec (.registerWrite (writeBytes a [v.toNat])) s = linked (writeBytes a [v.toNat]) s :=
  registerWrite_linked a (List.cons_ne_nil _ _) (by simp) s

end

/-- A transaction that resets no die is followed by ring writes and the taking of entries. -/
theorem linked_next {mosi : List Byte} {s : State} (h : resetsDevice mosi s.dev = false) :
    linked mosi s = .next (takeAll (settle (transaction mosi s))) :=
  if_neg (by simp [h])

/-- A write whose CRC does not hold ends in the link's error state (R60, R63). -/
theorem linkWrite_badCrc {n : Nat} {mosi : List Byte} (hlen : mosi.length = 5 + 4 * n)
    (hcrc : crc16 (mosi.take (3 + 4 * n)) ≠ deBig (mosi.drop (3 + 4 * n))) (miso : List Byte) (s : State) :
    linkWrite n mosi miso s = { s with dev := linkEnd .crc miso s.dev } := by
  rw [linkWrite, if_neg (by simp [hlen]), if_pos hcrc]

/-- A write of one word, or a burst, of the right length runs as a write. -/
theorem transaction_writes {op : Byte} {rest : List Byte} {s : State} (hr : s.dev.host.hrdy = true) (hop : 128 ≤ op.toNat)
    (hform : op.toNat / 64 % 2 = 0 → op.toNat % 64 = 0) : transaction (op :: rest) s =
      linkWrite (op.toNat % 64 + 1) (op :: rest)
        (padTo (op :: rest).length (le 1 (statusByte (healthCheck s.dev)))) { s with dev := healthCheck s.dev } := by
  have hgood : ¬(op.toNat / 64 % 2 = 0 ∧ op.toNat % 64 + 1 ≠ 1) := by omega
  simp only [transaction, hr, Bool.not_true, Bool.false_eq_true, if_false, if_neg hgood, hop, if_true]

theorem resetsDevice_badCrc {op : Byte} {rest : List Byte} {d : Dev}
    (hlen : (op :: rest).length = 5 + 4 * (op.toNat % 64 + 1))
    (hcrc : crc16 ((op :: rest).take (3 + 4 * (op.toNat % 64 + 1))) ≠ deBig ((op :: rest).drop (3 + 4 * (op.toNat % 64 + 1)))) :
    resetsDevice (op :: rest) d = false := by
  by_cases h9 : (op :: rest).length = 9
  · have hseven : 3 + 4 * (op.toNat % 64 + 1) = 7 := by omega
    rw [hseven] at hcrc
    simp only [resetsDevice, beq_false_of_ne hcrc, Bool.and_false, Bool.false_and]
  · simp only [resetsDevice, beq_false_of_ne h9, Bool.and_false, Bool.false_and]

/-! ## Registers written (R66, R68, R72, R74, R78, R97) -/

section
variable {q ofs v : Nat} {s : State} {e : Dev}

/-- A word of a queue's registers that takes the write (R69). -/
theorem windowWrite_queue (hq : q < 18) (ho : ofs < 8) (h : queueWrite q ofs v s.dev = (true, e)) :
    windowWrite (0x100 + 8 * q + ofs) v s = (true, { s with dev := e }) := by
  have hlo : ¬(0x100 + 8 * q + ofs < 0x13) := by omega
  have hin : (decide (0x100 ≤ 0x100 + 8 * q + ofs) && decide (0x100 + 8 * q + ofs < 0x1A0)) = true := by
    simp only [Bool.and_eq_true, decide_eq_true_eq]
    omega
  have hq' : (0x100 + 8 * q + ofs - 0x100) / 8 = q := by omega
  have ho' : (0x100 + 8 * q + ofs) % 8 = ofs := by omega
  simp only [windowWrite, if_neg hlo, if_pos hin, hq', ho', h]

theorem queueWrite_size (hq : q < 18) (v : Nat) (d : Dev) : queueWrite q 1 v d = (true, sizeWrite q v d) :=
  if_neg (Nat.not_le.2 hq)

theorem queueWrite_doorbell (hq : q < 18) (v : Nat) (d : Dev) : queueWrite q 4 v d = (true, doorbell q v d) :=
  if_neg (Nat.not_le.2 hq)

theorem queueWrite_ctrl (hq : q < 18) (v : Nat) (d : Dev) : queueWrite q 5 v d = (true, ctrlWrite q v d) :=
  if_neg (Nat.not_le.2 hq)

/-- The key holds LOADER for the next reset (R97). -/
theorem bootCtrl_loader {d : Dev} (hkey : v / 65536 = 0x7C19) (hl : bitOf v 1 = true) :
    bootCtrl v d = (true, { d with host := { d.host with loaderNext := true } }) := by
  simp only [bootCtrl, hkey, bne_self_eq_false, Bool.false_eq_true, if_false, hl, if_true]

end

/-! ## Reads (R58, R61, R63) -/

section
variable (a : Nat)

@[simp] theorem readBytes_length : (readBytes a).length = 12 := by simp [readBytes]

/-- The parts of a read on HMOSI: its opcode, its address and the CRC over both. -/
theorem readBytes_parts (ha : a < 65536) : byteAt (readBytes a) 0 = 0 ∧ deBig (((readBytes a).drop 1).take 2) = a ∧
    crc16 ((readBytes a).take 3) = deBig (((readBytes a).drop 3).take 2) := by
  have haddr : deBig (beBytes 2 a) = a := deBig_beBytes (by omega)
  refine ⟨rfl, haddr, ?_⟩
  show crc16 (le 1 0 ++ beBytes 2 a) = deBig (beBytes 2 (crc16 (le 1 0 ++ beBytes 2 a)))
  rw [deBig_beBytes (crc16_lt _)]

theorem readTransaction_linked (s : State) : exec (.readTransaction (readBytes a)) s = linked (readBytes a) s := by
  have hop : byteAt (readBytes a) 0 < 128 := show (0 : Nat) < 128 by omega
  show execReadTransaction (readBytes a) s = linked (readBytes a) s
  rw [execReadTransaction, if_pos hop]

theorem resetsDevice_read (d : Dev) : resetsDevice (readBytes a) d = false := by
  simp only [resetsDevice, readBytes_length, Nat.reduceBEq, Bool.and_false, Bool.false_and]

theorem transaction_reads {s : State} (hr : s.dev.host.hrdy = true) :
    transaction (readBytes a) s = linkRead 1 (readBytes a) { s with dev := healthCheck s.dev } := by
  simp only [transaction, hr, Bool.not_true, Bool.false_eq_true, if_false]
  rfl

end

theorem inRow_one (a : Nat) : inRow a 1 = true := rfl

/-- A list that has the length it is filled to stays as it is. -/
theorem padTo_length {n : Nat} {bs : List Byte} (h : bs.length = n) : padTo n bs = bs := by
  rw [padTo, ← h, List.take_left]

/-- A read of one mapped word without an uncorrectable error (R58, R61). -/
theorem linkRead_good {a : Nat} {s : State} (ha : a < 65536) (hmap : (windowRead s a a).2 = true)
    (hgood : windowBad s.dev a = false) :
    let w := (windowRead s a a).1
    let st := le 1 (statusByte s.dev)
    let reply := st ++ [0, 0, 0, 0, 0] ++ beBytes 4 w.toNat ++ beBytes 2 (crc16 (st ++ beBytes 4 w.toNat))
    linkRead 1 (readBytes a) s = { s with dev := linkEnd .good reply (readEffects a 1 false s.dev) } := by
  obtain ⟨-, haddr, hcrc⟩ := readBytes_parts a ha
  simp only [linkRead, haddr]
  simp [hcrc, inRow_one, hmap, hgood]
  rw [padTo_length (by simp)]

end Sys2Proof.Machine

namespace Sys2Proof
open Machine

/-- Settles O7: a row that writes a register is a write transaction (`registerWrite_word`), which applies its words in order
(`transaction_write`), and each register acts as its own function. -/
theorem hostWritesAreApplied : Obligations.HostWritesAreApplied := by
  refine ⟨fun s a vs hr ha hn hl hv hi hres => ?applied, fun s v q a ws => ⟨?_, ?_, ?_, ?_, ?_, ?_, fun hn hl => ?window⟩,
    fun s v q => ⟨rfl, rfl, ?size, ?doorbell, ?ctrl, fun hkey hl => ?loader⟩⟩
  case applied => rw [registerWrite_linked a hn hl, linked_next hres, transaction_write hr ha hn hl hv hi]
  case window => exact (registerWrite_linked a.toNat (by simpa using hn) (by simpa using hl) s).symm
  case size => exact windowWrite_queue q.isLt (by omega) (queueWrite_size q.isLt v s.dev)
  case doorbell => exact windowWrite_queue q.isLt (by omega) (queueWrite_doorbell q.isLt v s.dev)
  case ctrl => exact windowWrite_queue q.isLt (by omega) (queueWrite_ctrl q.isLt v s.dev)
  case loader =>
    show ((bootCtrl v s.dev).1, { s with dev := (bootCtrl v s.dev).2 }) = _
    rw [bootCtrl_loader hkey hl]
  all_goals exact (registerWrite_word _ _ _).symm

/-- Settles O10: the transaction is a write, and its CRC ends it before a word is applied. -/
theorem badCrcWritesNothing : Obligations.BadCrcWritesNothing := by
  rintro s _ op rest hr rfl hop hform hlen hcrc
  have hrow : exec (.registerWrite (op :: rest)) s = linked (op :: rest) s := if_pos hop
  rw [hrow, linked_next (resetsDevice_badCrc hlen hcrc), transaction_writes hr hop hform, linkWrite_badCrc hlen hcrc]

/-- Settles O11: a read of one word passes its checks and carries the word (`linkRead_good`). -/
theorem hostReadsReturnTheirWord : Obligations.HostReadsReturnTheirWord := by
  refine ⟨fun s a hr ha hmap hgood => ?reads, fun s => ⟨?_, ?_, ?_⟩, fun s d => ⟨rfl, rfl, rfl, rfl, rfl, rfl, rfl⟩⟩
  case reads =>
    intro d w st reply
    rw [readTransaction_linked, linked_next (resetsDevice_read a s.dev), transaction_reads a hr, linkRead_good ha hmap hgood]
  all_goals exact (readTransaction_linked _ s).symm

end Sys2Proof
end


-- ==== Sys2Proof/Proofs/ResetState.lean ====
section
/-!
The power-on reset state, the bytes of ring slots, the events and completions of the Start Gate, and the TICK edge with the
performance level that follows it.
-/
namespace Sys2Proof.Machine

/-- A state whose memory lists byte 0 twice, so that it is in no canonical form (`Mem.wf`): to write 0 there drops the first
listing and shows the second. -/
def twiceListed : State := { State.reset with mem := [(0, 1), (0, 1)] }

theorem part_twiceListed :
    memRead (settleOne twiceListed (.part 0 0 0 [0])).mem ((ringOf twiceListed.dev 0).slotAt 0 0 + 0) 1 = [1] := rfl

theorem resetRing (q : Fin 20) : State.reset.dev.rings.get q = Ring.reset q.val := by
  rw [State.reset, Dev.reset, Vector.get_ofFn]

theorem resetPorts (p : Fin 8) : State.reset.dev.gate.ports.get p = [] := by
  revert p
  decide

theorem resetDomains (n : Fin 11) : State.reset.dev.pwr.dom.get n = if n = 0 then 0 else 2 := by
  revert n
  decide

/-! What the Start Gate does with the item it admits (R29 to R33). -/

/-- Admitting anything but a completion ST_OK of RESET_REQ resets nothing. -/
theorem takes_of_admit {s : State} {d : Dev} (hreset : resetNext s.dev = false) (h : admitOne s.dev = d) : Takes .startGateAdmit s d :=
  takes_of_taking admitOne (if_neg (by simp [hreset])) h

theorem admitEvent_other {e : EvRec} (h : e.code ≠ 0xC003) (bib : Word) (d : Dev) :
    let a : Admitted := { bib := bib, ev := e }
    admitEvent e bib d = admitHooks a (toEventRing a (toHealthLog a (toBuffer a d))) := by
  simp [admitEvent, h]

theorem admitCompletion_host {c : Completion} {tag : Byte} {x : Cmd} {d : Dev} (hc : c.id = .host tag)
    (hx : compCmd d c = some x) (bib : Word) : admitCompletion c bib d = hostComplete c x bib d := by
  simp [admitCompletion, hx, hc]

theorem toEventRing_out {a : Admitted} {d : Dev}
    (h : (ringOf d 8).en = false ∨ bitOf (pget d kHstEvtMask 0) (a.ev.code / 0x1000) = false) : toEventRing a d = d := by
  rcases h with h | h <;> simp [toEventRing, h]

theorem toEventRing_lost {a : Admitted} {d : Dev} (hen : (ringOf d 8).en = true)
    (hmask : bitOf (pget d kHstEvtMask 0) (a.ev.code / 0x1000) = true) (h : (ringOf d 8).free = 0 ∨ d.gate.loss ≠ none) :
    toEventRing a d = eventLost a.bib d := by
  have h' : (ringOf d 8).free = 0 ∨ d.gate.loss.isSome = true := h.imp_right Option.isSome_iff_ne_none.mpr
  simp only [toEventRing, hen, hmask]
  rcases h' with h' | h' <;> simp [h']

theorem toEventRing_pushed {a : Admitted} {d : Dev} (hen : (ringOf d 8).en = true)
    (hmask : bitOf (pget d kHstEvtMask 0) (a.ev.code / 0x1000) = true) (hfree : (ringOf d 8).free ≠ 0)
    (hloss : d.gate.loss = none) : toEventRing a d = emit (.push 8 (eventBytes a)) d := by
  simp [toEventRing, hen, hmask, hfree, hloss]

/-! The TICK edge and the performance level (R24, R488). -/

theorem tickEdge_stopped {d : Dev} (h : d.time.running = false) : tickEdge d = d := by
  simp [tickEdge, h]

theorem tickEdge_running {d : Dev} (h : d.time.running = true) :
    tickEdge d =
      let d := dlxTick (gnsTick (ctlTick (fioLatchCounts
        (let e := vlvDither (imgApplyTick (batchTick (tickNext d))); atBoundary (edgeWaits e) e))))
      healthCheck (levelTick (flashNext (if downOn d then applySend d else d))) := by
  exact if_neg (by simp [h])

section
variable {d : Dev} (hlimp : d.host.limp = false) (hon : domOn d 1 = true)
include hlimp hon

/-- A lower level is taken at once. -/
theorem levelTick_lower (h : levelWanted d < d.pwr.level) : levelTick d = levelSet (levelWanted d) d := by
  simp [levelTick, hlimp, hon, h]

/-- A higher level has its voltage asked for first. -/
theorem levelTick_asks (h : d.pwr.level < levelWanted d) (hasked : d.pwr.raiseTo = none) :
    levelTick d = levelRaise (levelWanted d) d := by
  simp [levelTick, hlimp, hon, Nat.lt_asymm h, (Nat.ne_of_lt h).symm, hasked]

/-- It is taken once the regulator has reported that voltage. -/
theorem levelTick_waits (h : d.pwr.level < levelWanted d) (hasked : d.pwr.raiseTo = some (levelWanted d)) :
    levelTick d = if d.pwr.raiseReady then levelSet (levelWanted d) d else d := by
  simp [levelTick, hlimp, hon, Nat.lt_asymm h, (Nat.ne_of_lt h).symm, hasked]

end

theorem regulatorReady_asked {d : Dev} (h : d.pwr.raiseTo ≠ none) :
    regulatorReady d = { d with pwr := { d.pwr with raiseReady := true } } :=
  if_pos (Option.isSome_iff_ne_none.mpr h)

theorem regulatorReady_unasked {d : Dev} (h : d.pwr.raiseTo = none) : regulatorReady d = d := by
  simp [regulatorReady, h]

end Sys2Proof.Machine

namespace Sys2Proof
open Machine

/-- Settles O2: the rings, ports and domains of the reset state are given by their index; the rest is the definition. -/
theorem resetState : Obligations.ResetState := by
  refine ⟨rfl, ⟨rfl, rfl⟩, rfl, rfl, rfl, rfl, resetPorts, rfl, rfl, fun q => ?_, rfl, rfl, rfl, rfl, resetDomains⟩
  rw [resetRing]
  exact ⟨rfl, rfl, rfl, rfl⟩

/-- Refutes O5: the statement has no premise that the memory is canonical (O3), and where it lists one byte twice, that byte
does not read back as a transmit entry wrote it. In a canonical memory it does (`memGet_memWrite_inside`). -/
theorem not_ringWritesFrame : ¬ Obligations.RingWritesFrame := by
  rintro ⟨-, -, hpart, -⟩
  have hread := (hpart twiceListed 0 0 0 [0]).1
  rw [show [(0 : Byte)].length = 1 from rfl, part_twiceListed] at hread
  exact absurd hread (by decide)

/-- Settles O24: an admission hands its item to the event's way, or to the completion of the command that waits for it. -/
theorem admittedEventsArePublished : Obligations.AdmittedEventsArePublished := by
  refine fun s p => ⟨fun e hnext hcode => ?event, fun c tag x hnext hid hop => ?completion, fun a d =>
    ⟨toEventRing_out, fun hen hmask => ⟨toEventRing_lost hen hmask, toEventRing_pushed hen hmask⟩⟩⟩
  case event =>
    refine takes_of_admit (by rw [resetNext, hnext]) ?_
    rw [admitOne, hnext]
    exact admitEvent_other hcode _ _
  case completion =>
    intro bib d hx
    refine takes_of_admit (by rw [resetNext, hnext]; simp [hop]) ?_
    rw [admitOne, hnext]
    exact admitCompletion_host (d := d) hid hx bib

/-- Settles O25: the edge prepares the next tick before anything that waits for it (`tickNext`), and the level follows what is
wanted: the voltage first at one edge (log 40), CORE at a later one; what steers the TICK does so from the next edge on
(log 103). -/
theorem tickEdgeAndLevels : Obligations.TickEdgeAndLevels := by
  refine ⟨fun s => ⟨fun h => takes_of_taking tickEdge rfl (tickEdge_stopped h), fun h => ?running⟩,
    fun d => ⟨rfl, rfl, rfl, rfl, rfl⟩,
    fun d hlimp hon => ⟨levelTick_lower hlimp hon, levelTick_asks hlimp hon, levelTick_waits hlimp hon⟩,
    fun s => ⟨fun h => moves_of_quiet regulatorReady rfl (regulatorReady_asked h),
      fun h => stays_of_quiet regulatorReady rfl (regulatorReady_unasked h)⟩,
    fun s => ⟨fun hopen hrun hlimp => ?closes, fun h => ?keepsClosed⟩⟩
  case running => exact takes_of_taking tickEdge rfl (tickEdge_running h)
  case closes => exact moves_of_quiet setClose rfl (if_neg (by simp [hopen, hrun, hlimp]))
  case keepsClosed =>
    refine stays_of_quiet setClose rfl (if_pos ?_)
    rcases h with h | h | h
    · simp [Option.isSome_iff_ne_none.mpr h]
    · simp [h]
    · simp [h]

end Sys2Proof
end


-- ==== Sys2Proof/Proofs/DeviceReset.lean ====
section
/-!
The resets of the control die and of the field die: what each leaves of the control die's registers (R40, R66, R490, R495),
and the host's own reset.
-/
namespace Sys2Proof.Machine

/-! ## What a reset of the field die leaves -/

/-- What a reset of the field die leaves: the host's registers, device time, the rings, the bib and how many commands live. -/
def controlSide (d : Dev) : HostSt × TimeSt × Vector Ring 20 × Word × Word × Nat :=
  (d.host, d.time, d.rings, d.gate.bib, d.gate.wrap, d.cmd.live.length)

section
variable {d e : Dev}

theorem host_of_controlSide (h : controlSide d = controlSide e) : d.host = e.host := congrArg (·.1) h

theorem time_of_controlSide (h : controlSide d = controlSide e) : d.time = e.time := congrArg (·.2.1) h

theorem rings_of_controlSide (h : controlSide d = controlSide e) : d.rings = e.rings := congrArg (·.2.2.1) h

theorem bib_of_controlSide (h : controlSide d = controlSide e) : d.gate.bib = e.gate.bib := congrArg (·.2.2.2.1) h

theorem wrap_of_controlSide (h : controlSide d = controlSide e) : d.gate.wrap = e.gate.wrap := congrArg (·.2.2.2.2.1) h

theorem live_of_controlSide (h : controlSide d = controlSide e) (he : e.cmd.live = []) : d.cmd.live = [] := by
  have hlen : d.cmd.live.length = e.cmd.live.length := congrArg (·.2.2.2.2.2) h
  exact List.length_eq_zero_iff.mp (by rw [hlen, he]; rfl)

end

section
variable (d : Dev)

theorem controlSide_completeId (id : CmdId) (st dl : Nat) (x : List Byte) :
    controlSide (completeId id st dl x d) = controlSide d :=
  completeId_keeps controlSide (fun c st dl x d => by simp [controlSide, complete, cmdMod, post]) id st dl x d

theorem controlSide_pulsesLost (n : Fin 16) : controlSide (pulsesLost n d) = controlSide d := by
  refine (forEach_keeps controlSide (fun x d => ?_) _ d :)
  simp only [pulseReset]
  split
  · exact controlSide_completeId d _ _ _ _
  · rfl

theorem controlSide_excUpdate : controlSide (excUpdate d) = controlSide d :=
  forEach_keeps controlSide (fun ch d => by dsimp only; split <;> rfl) _ d

theorem controlSide_afeRestart (ch : Fin 32) : controlSide (afeRestart ch d) = controlSide d := rfl

theorem controlSide_fieldReset (how : HoldEnd) : controlSide (fieldReset how d) = controlSide d := by
  unfold fieldReset
  extract_lets d1 lift afe dlx svc d2 d3 d4 isShed fio vlv d5
  have h1 : controlSide d1 = controlSide d := forEach_keeps controlSide (fun n d => controlSide_pulsesLost d n) _ d
  clear_value d1
  have h3 : controlSide d3 = controlSide d1 := rfl
  clear_value d3
  have h4 : controlSide d4 = controlSide d3 := forEach_keeps controlSide (fun ch d => controlSide_afeRestart d ch) _ d3
  clear_value d4
  have h5 : controlSide d5 = controlSide d4 := by simp only [controlSide, d5]
  rw [controlSide_excUpdate, h5, h4, h3, h1]

theorem controlSide_pwrMod (f : PwrSt → PwrSt) : controlSide (pwrMod f d) = controlSide d := rfl

theorem controlSide_fieldOff (how : HoldEnd) : controlSide (fieldOff how d) = controlSide d := by
  rw [fieldOff, controlSide_pwrMod, controlSide_fieldReset]

/-! ## What a reset of the control die leaves -/

theorem cutErases_gate : (cutErases d).gate = d.gate := by
  simp only [cutErases]
  repeat' split
  all_goals rfl

/-- A reset of the control die keeps the bib and the wrap count, disables the rings and ends every command (R40, R490). -/
theorem controlReset_control (cause : Nat) :
    (controlReset cause d).gate.bib = d.gate.bib ∧ (controlReset cause d).gate.wrap = d.gate.wrap ∧
      (controlReset cause d).rings = Dev.reset.rings ∧ (controlReset cause d).cmd.live = [] := by
  unfold controlReset
  extract_lets cut d1 gate cmd afe dlx vlv svc bus ch hlt idn
  have hgate : d1.gate = d.gate := cutErases_gate d
  clear_value cut d1 hlt
  rw [← hgate]
  obtain ⟨_, _, _, _, h⟩ := retiredPlaces_units _
  rw [h]
  exact ⟨rfl, rfl, rfl, rfl⟩

/-- A reset of both dies (R490). -/
theorem bothReset_leaves (cause : Nat) :
    (bothReset cause d).host = hostReset cause d.pwr.bootPins d.host ∧ (bothReset cause d).time = d.time ∧
    (bothReset cause d).gate.bib = d.gate.bib ∧ (bothReset cause d).gate.wrap = d.gate.wrap ∧
    (bothReset cause d).rings = Dev.reset.rings ∧ (bothReset cause d).cmd.live = [] ∧
    (bothReset cause d).pwr.fieldUp = false ∧ (bothReset cause d).pwr.fieldPow = false ∧
    (bothReset cause d).pwr.dom = PwrSt.reset.dom := by
  obtain ⟨hhost, -, htime, -, -, -⟩ := controlReset_leaves cause d
  obtain ⟨hbib, hwrap, hrings, hlive⟩ := controlReset_control d cause
  unfold bothReset
  extract_lets d1 d2
  have hside : controlSide d2 = controlSide (controlReset cause d) := by rw [controlSide_fieldOff, controlSide_pwrMod]
  have hpwr : d2.pwr = { fieldHeld .run d1.pwr with fieldPow := false } := fieldOff_pwr d1 .run
  have hdom : d1.pwr.dom = PwrSt.reset.dom := by rw [pwrMod_pwr]
  clear_value d1 d2
  refine ⟨(host_of_controlSide hside).trans hhost, (time_of_controlSide hside).trans htime,
    (bib_of_controlSide hside).trans hbib, (wrap_of_controlSide hside).trans hwrap, (rings_of_controlSide hside).trans hrings,
    live_of_controlSide hside hlive, ?_, ?_, ?_⟩
  · show d2.pwr.fieldUp = false
    rw [hpwr]
    rfl
  · show d2.pwr.fieldPow = false
    rw [hpwr]
  · show d2.pwr.dom = PwrSt.reset.dom
    rw [hpwr, ← hdom]
    rfl

end

theorem resetRings_disabled (q : Fin 20) : (Dev.reset.rings.get q).en = false := by
  rw [Dev.reset, Vector.get_ofFn]
  rfl

/-! ## The host's reset (R66) -/

/-- A word of the key and bit 0, written to HST_BOOT_CTRL while the link is ready, is the transaction that resets the device. -/
theorem resetsDevice_bootCtrl {v : Word} {d : Dev} (hr : d.host.hrdy = true) (hkey : v.toNat / 65536 = 0x7C19)
    (hbit : bitOf v.toNat 0 = true) : resetsDevice (writeBytes 4 [v.toNat]) d = true := by
  have hcrc := crc16_lt (writeHead 4 1 ++ beBytes 4 v.toNat)
  have hbytes : writeBytes 4 [v.toNat] =
      writeHead 4 1 ++ beBytes 4 v.toNat ++ beBytes 2 (crc16 (writeHead 4 1 ++ beBytes 4 v.toNat)) := by
    rw [writeBytes_eq, List.flatMap_singleton, List.length_singleton]
  have hlen : (writeHead 4 1 ++ beBytes 4 v.toNat).length = 7 := by simp
  have htake : (writeBytes 4 [v.toNat]).take 7 = writeHead 4 1 ++ beBytes 4 v.toNat := by
    rw [hbytes, ← hlen, List.take_left]
  have hdrop : (writeBytes 4 [v.toNat]).drop 7 = beBytes 2 (crc16 (writeHead 4 1 ++ beBytes 4 v.toNat)) := by
    rw [hbytes, ← hlen, List.drop_left]
  have hword : ((writeBytes 4 [v.toNat]).drop 3).take 4 = beBytes 4 v.toNat := rfl
  have hhigh : ((writeBytes 4 [v.toNat]).drop 3).take 2 = beBytes 2 (v.toNat / 65536) := by
    show [_, _] = [_, _]
    simp [Nat.div_div_eq_div_mul]
  have hfirst : byteAt (writeBytes 4 [v.toNat]) 0 = 0x80 := rfl
  have haddr : ((writeBytes 4 [v.toNat]).drop 1).take 2 = [0x00, 0x04] := rfl
  simp only [resetsDevice, hr, writeBytes_length, hfirst, haddr, htake, hdrop, hword, hhigh, hkey,
    deBig_beBytes (n := 2) hcrc, deBig_beBytes (n := 2) (x := 0x7C19) (by omega), deBig_beBytes (n := 4) v.isLt, hbit,
    beq_self_eq_true, Bool.true_or, Bool.and_true, List.length_singleton]

end Sys2Proof.Machine

namespace Sys2Proof
open Machine

/-- Settles O9: the write is the transaction that resets both dies (`resetsDevice_bootCtrl`), and the reset leaves what
`bothReset_leaves` says. -/
theorem hostResetResetsTheDevice : Obligations.HostResetResetsTheDevice := by
  intro s v hr hkey hbit
  have hx : exec (.hstBootCtrlReset v) s = losingSnap (bothReset 0x06) (transaction (writeBytes 4 [v.toNat]) s) :=
    if_pos (resetsDevice_bootCtrl hr hkey hbit)
  obtain ⟨hhost, -, -, -, hrings, hlive, hup, -, hdom⟩ := bothReset_leaves (transaction (writeBytes 4 [v.toNat]) s).dev 0x06
  refine ⟨_, hx, (kept_transaction s _).pending, rfl, ?_, ?_, ?_, ?_, hlive, fun q => ?_, hup, ?_⟩
  · exact congrArg (·.cause) hhost
  · exact congrArg (·.stage) hhost
  · exact congrArg (·.hrdy) hhost
  · exact congrArg (·.resetSeen) hhost
  · exact (congrArg (fun r => (Vector.get r q).en) hrings).trans (resetRings_disabled q)
  · exact congrArg (fun m => Vector.get m (0 : Fin 11)) hdom

end Sys2Proof
end


-- ==== Sys2Proof/Proofs/Admission.lean ====
section
/-!
The Start Gate's choice of the item it admits, and what leaves the bib and the wrap count as they are (R30, R39, R40).
-/
namespace Sys2Proof.Machine

/-! ## The item that is next -/

section
variable {d : Dev}

theorem nextItem_none_iff : nextItem d = none ↔ ∀ p, d.gate.ports.get p = [] := by
  simp [nextItem, List.findSome?_eq_none_iff]

/-- The oldest item of a port, with the port. -/
theorem portHead_eq_some_iff {a p : Fin 8} {g : GateItem} :
    (d.gate.ports.get a).head?.map (fun g => (a, g)) = some (p, g) ↔ a = p ∧ ∃ rest, d.gate.ports.get a = g :: rest := by
  cases d.gate.ports.get a with
  | nil => simp
  | cons x xs => simp

theorem nextItem_lowest {p : Fin 8} {g : GateItem} (h : nextItem d = some (p, g)) :
    (∃ rest, d.gate.ports.get p = g :: rest) ∧ ∀ q, q < p → d.gate.ports.get q = [] := by
  obtain ⟨before, a, after, hall, ha, hbefore⟩ := List.findSome?_eq_some_iff.mp h
  obtain ⟨rfl, hrest⟩ := portHead_eq_some_iff.mp ha
  refine ⟨hrest, fun q hq => ?_⟩
  have hmem : q ∈ before := by
    have hsorted := List.pairwise_lt_finRange 8
    rw [hall, List.pairwise_append, List.pairwise_cons] at hsorted
    have hin : q ∈ before ++ a :: after := hall ▸ List.mem_finRange q
    rcases List.mem_append.mp hin with hin | hin
    · exact hin
    · rcases List.mem_cons.mp hin with rfl | hin
      · exact absurd hq (lt_irrefl _)
      · exact absurd (hsorted.2.1.1 q hin) (lt_asymm hq)
  simpa using hbefore q hmem

theorem nextItem_eq_some_iff {p : Fin 8} {g : GateItem} :
    nextItem d = some (p, g) ↔ (∃ rest, d.gate.ports.get p = g :: rest) ∧ ∀ q, q < p → d.gate.ports.get q = [] := by
  refine ⟨nextItem_lowest, fun ⟨⟨rest, hp⟩, hlow⟩ => ?_⟩
  cases hnext : nextItem d with
  | none => simp [nextItem_none_iff.mp hnext p] at hp
  | some x =>
    obtain ⟨p', g'⟩ := x
    obtain ⟨⟨rest', hp'⟩, hlow'⟩ := nextItem_lowest hnext
    rcases lt_trichotomy p p' with hlt | rfl | hlt
    · simp [hlow' p hlt] at hp
    · simp_all
    · simp [hlow p' hlt] at hp'

end

/-! ## What keeps the bib and the wrap count -/

/-- A step taken only where a condition holds keeps what it keeps where it is taken. -/
theorem when_keeps {β : Type} (g : Dev → β) {b : Bool} {f : Dev → Dev} {d : Dev} (h : g (f d) = g d) :
    g (when b f d) = g d := by
  cases b
  · rfl
  · exact h

/-- The bib of the last admission, and how often it passed to 0. -/
def stamp (d : Dev) : Word × Word := (d.gate.bib, d.gate.wrap)

section
variable (d : Dev)

theorem stamp_forEach {α : Type} {f : α → Dev → Dev} (h : ∀ x d, stamp (f x d) = stamp d) (xs : List α) :
    stamp (forEach xs f d) = stamp d :=
  forEach_keeps stamp h xs d

@[simp] theorem stamp_completeId (id : CmdId) (st dl : Nat) (x : List Byte) : stamp (completeId id st dl x d) = stamp d :=
  completeId_keeps stamp (fun _ _ _ _ _ => rfl) id st dl x d

@[simp] theorem stamp_irqCheck (q : Nat) : stamp (irqCheck q d) = stamp d := by
  simp only [irqCheck]
  split <;> rfl

/-! ### An admitted event -/

theorem stamp_lossFilled (e : EvRec) : stamp (lossFilled e d).2 = stamp d := by
  simp only [lossFilled]
  split <;> rfl

theorem stamp_toEventRing (a : Admitted) : stamp (toEventRing a d) = stamp d := by
  simp only [toEventRing]
  repeat' split
  all_goals rfl

theorem stamp_lotAdmit (e : EvRec) (bib wrap : Word) : stamp (lotAdmit e bib wrap d) = stamp d := by
  simp only [lotAdmit]
  split <;> rfl

theorem stamp_attestAdmit (n : Nat) (bib : Word) : stamp (attestAdmit n bib d) = stamp d := by
  simp only [attestAdmit]
  split
  · rfl
  · exact stamp_completeId _ _ _ _ _

theorem stamp_askSafe (sc : Scope) (cause : Nat) (cmd : Option CmdId) : stamp (askSafe sc cause cmd d) = stamp d := by
  refine (stamp_forEach _ (fun r d => ?_) _ :)
  split
  · exact stamp_completeId _ _ _ _ _
  · rfl

theorem stamp_sleepRefused (bib : Nat) : stamp (sleepRefused bib d) = stamp d := by
  simp only [sleepRefused]
  split
  · rfl
  · exact stamp_completeId _ _ _ _ _

theorem stamp_groomAdmit (bib : Word) : stamp (groomAdmit bib d) = stamp d := by
  simp only [groomAdmit]
  split <;> rfl

theorem stamp_admitHooks (a : Admitted) : stamp (admitHooks a d) = stamp d := by
  simp only [admitHooks]
  rw [when_keeps stamp (stamp_groomAdmit _ _), when_keeps stamp (stamp_sleepRefused _ _), when_keeps stamp (stamp_askSafe _ _ _ _),
    when_keeps stamp rfl, when_keeps stamp (stamp_attestAdmit _ _ _), stamp_lotAdmit]

theorem stamp_toBuffer (a : Admitted) : stamp (toBuffer a d) = stamp d := by simp only [stamp, toBuffer]

theorem stamp_toHealthLog (a : Admitted) : stamp (toHealthLog a d) = stamp d := when_keeps stamp rfl

theorem stamp_published (a : Admitted) : stamp (admitHooks a (toEventRing a (toHealthLog a (toBuffer a d)))) = stamp d := by
  rw [stamp_admitHooks, stamp_toEventRing, stamp_toHealthLog, stamp_toBuffer]

theorem stamp_admitEvent (e : EvRec) (bib : Word) : stamp (admitEvent e bib d) = stamp d := by
  simp only [admitEvent]
  rw [stamp_published]
  split
  · exact stamp_lossFilled d e
  · rfl

/-! ### An admitted completion -/

theorem stamp_tailOver (r : Fin 4) (n : Nat) : stamp (tailOver r n d) = stamp d := by
  induction n generalizing d with
  | zero => rfl
  | succ n ih =>
    simp only [tailOver]
    split
    · exact ih _
    · rfl

theorem stamp_hostComplete (c : Completion) (x : Cmd) (bib : Word) : stamp (hostComplete c x bib d) = stamp d := by
  simp only [hostComplete]
  rw [when_keeps stamp rfl, stamp_irqCheck, stamp_tailOver]
  rfl

theorem stamp_sendInner (ch : Fin 2) (user : Nat) (m : TxMsg) : stamp (sendInner ch user m d) = stamp d := rfl

theorem stamp_rmbRespond (ch : Fin 2) (c : Nat) (fd : Bool) (b : List Byte) : stamp (rmbRespond ch c fd b d) = stamp d := by
  simp only [rmbRespond]
  split
  · rfl
  · exact (stamp_forEach _ (fun _ d => stamp_sendInner d ch 1 _) _ :)

theorem stamp_admitCompletion (c : Completion) (bib : Word) : stamp (admitCompletion c bib d) = stamp d := by
  simp only [admitCompletion]
  split
  · rfl
  · split
    · exact stamp_hostComplete _ _ _ _
    · exact (stamp_rmbRespond _ _ _ _ _ :)

/-- An admission counts the bib one up, and the wrap count with it where the bib passes to 0. -/
theorem stamp_admitOne {d : Dev} {x : Fin 8 × GateItem} (h : nextItem d = some x) : stamp (admitOne d) =
    (d.gate.bib + 1, if d.gate.bib + 1 = 0 then d.gate.wrap + 1 else d.gate.wrap) := by
  obtain ⟨p, g⟩ := x
  rw [admitOne, h]
  cases g with
  | ev e => exact stamp_admitEvent _ _ _
  | comp c => exact stamp_admitCompletion _ _ _

/-! ### Ring writes and the taking of entries -/

theorem stamp_settleOne (s : State) (w : RingWrite) : stamp (settleOne s w).dev = stamp s.dev := by
  rcases w with ⟨q, bytes⟩ | ⟨q, slot, bytes⟩ | ⟨q, slot, ofs, bytes⟩
  · simp only [settleOne]
    repeat' split
    · rfl
    · rfl
    · exact stamp_irqCheck _ _
  · simp only [settleOne]
    split <;> rfl
  · rfl

theorem stamp_settle (s : State) : stamp (settle s).dev = stamp s.dev := by
  have hlist : ∀ (ws : List RingWrite) (t : State), stamp (ws.foldl settleOne t).dev = stamp t.dev := by
    intro ws
    induction ws with
    | nil => intro t; rfl
    | cons w ws ih => intro t; exact (ih _).trans (stamp_settleOne t w)
  exact hlist _ _

theorem stamp_enter (c : Cmd) (b : List Byte) (bad : Bool) : stamp (enter c b bad d) = stamp d := by
  simp only [enter]
  repeat' split
  all_goals rfl

theorem stamp_takeHost (r : Fin 4) (s : State) : stamp (takeHost r s).dev = stamp s.dev := by
  simp only [takeHost, stamp_enter]
  exact stamp_irqCheck _ _

theorem stamp_takeLane (r : Fin 4) (s : State) : stamp (takeLane r s).dev = stamp s.dev := by
  simp only [takeLane]
  split
  · rfl
  · exact stamp_enter _ _ _ _

theorem stamp_takeOne (s : State) : stamp (takeOne s).dev = stamp s.dev := by
  simp only [takeOne]
  repeat' split
  · rfl
  · rfl
  · exact stamp_takeHost _ s
  · exact stamp_takeLane _ s

theorem stamp_takeN (n : Nat) (s : State) : stamp (takeN n s).dev = stamp s.dev := by
  induction n generalizing s with
  | zero => rfl
  | succ n ih => exact (ih _).trans (stamp_takeOne s)

theorem stamp_takeAll (s : State) : stamp (takeAll s).dev = stamp s.dev := stamp_takeN _ s

theorem stamp_bothReset (cause : Nat) : stamp (bothReset cause d) = stamp d := by
  obtain ⟨-, -, hbib, hwrap, -⟩ := bothReset_leaves d cause
  rw [stamp, stamp, hbib, hwrap]

end

/-! ## The row START_GATE_ADMIT -/

theorem admit_idle {s : State} (h : nextItem s.dev = none) : Takes .startGateAdmit s s.dev :=
  takes_of_admit (by rw [resetNext, h]) (by rw [admitOne, h])

/-- What an admission answers, whether or not it is the one that resets the device. -/
theorem admit_stamp (s : State) :
    ∃ t, exec .startGateAdmit s = .next t ∧ t.pending = s.pending ∧ stamp t.dev = stamp (admitOne s.dev) := by
  by_cases hreset : resetNext s.dev = true
  · refine ⟨_, if_pos hreset, settle_pending _, ?_⟩
    exact (stamp_bothReset _ 0x02).trans (stamp_settle _)
  · refine ⟨_, if_neg hreset, (takeAll_pending _).trans (settle_pending _), ?_⟩
    exact (stamp_takeAll _).trans (stamp_settle _)

end Sys2Proof.Machine

namespace Sys2Proof
open Machine

/-- Settles O23: the port is the lowest that holds an item (`nextItem_eq_some_iff`), the admission counts the bib
(`stamp_admitOne`), and nothing that follows it touches the count, the reset of RESET_REQ included (`admit_stamp`). -/
theorem admissionOrderAndBibs : Obligations.AdmissionOrderAndBibs := by
  refine fun s => ⟨nextItem_none_iff, fun p g => nextItem_eq_some_iff, admit_idle, fun x hx => ?_⟩
  obtain ⟨t, hexec, hpending, hstamp⟩ := admit_stamp s
  obtain ⟨hbib, hwrap⟩ := Prod.mk.inj (hstamp.trans (stamp_admitOne hx))
  exact ⟨t, hexec, hpending, hbib, hwrap⟩

end Sys2Proof
end


-- ==== Sys2Proof/Proofs/StartUp.lean ====
section
/-!
What the start of the firmware and the start of the field die leave of the host's registers and of the power state (R28, R490 to
R493).
-/
namespace Sys2Proof.Machine

/-! ## The start of the firmware -/

/-- What a start sets before its blocks follow: the host's registers, the power state, whether device time runs, and the latch
of a field die that stays off. -/
def bootSide (d : Dev) : HostSt × PwrSt × Bool × Bool := (d.host, d.pwr, d.time.running, d.hlt.fieldLatch)

section
variable (d : Dev)

theorem bootSide_completeId (id : CmdId) (st dl : Nat) (x : List Byte) : bootSide (completeId id st dl x d) = bootSide d :=
  completeId_keeps bootSide (fun _ _ _ _ _ => rfl) id st dl x d

theorem bootSide_tqMove (n : Nat) : bootSide (tqMove n d) = bootSide d := by
  simp only [tqMove]
  split <;> rfl

theorem bootSide_toHoldover : bootSide (toHoldover d) = bootSide d := by
  simp only [toHoldover]
  split
  · exact (bootSide_tqMove _ _ :)
  · rfl

theorem bootSide_gnsHold : bootSide (gnsHold d) = bootSide d := by
  simp only [gnsHold]
  split <;> exact (bootSide_toHoldover _ :)

theorem bootSide_afeSettings (ch : Fin 32) : bootSide (afeSettings ch d) = bootSide d := by
  simp only [afeSettings]
  split <;> rfl

theorem bootSide_afeHook (a : Nat) : bootSide (afeHook a d) = bootSide d := by
  simp only [afeHook]
  repeat' split
  · rfl
  · rfl
  · exact bootSide_afeSettings d _
  · exact bootSide_afeSettings _ _
  · exact bootSide_afeSettings d _
  · rfl
  · rfl

theorem bootSide_dlxHook (a : Nat) : bootSide (dlxHook a d) = bootSide d := by
  have hsteps : ∀ (xs : List CalStep) e,
      bootSide (forEach xs (fun x e => completeId x.cmd stRefused 0x31 [] e) e) = bootSide e :=
    fun xs e => forEach_keeps bootSide (fun x e => bootSide_completeId e _ _ _ _) xs e
  simp only [dlxHook]
  split
  · split
    · split
      · rfl
      · split
        · exact (hsteps (d.dlx.ch.get _).steps d :)
        · exact (hsteps (d.dlx.ch.get _).steps d :)
    · repeat' split
      all_goals rfl
  · rfl

theorem bootSide_enablesOff : bootSide (enablesOff d) = bootSide d :=
  (forEach_keeps bootSide (fun _ e => bootSide_dlxHook e _) _ _).trans
    (forEach_keeps bootSide (fun _ e => bootSide_afeHook e _) _ _)

theorem bootSide_raise (p : Fin 8) (c pa : Nat) (x : List Byte) : bootSide (raise p c pa x d) = bootSide d := by
  simp only [bootSide, raise_host, raise_pwr, raise_time, raise_hlt]

theorem bootSide_idnRaise (code : Nat) (x : List Byte) : bootSide (idnRaise code x d) = bootSide d :=
  bootSide_raise d 6 code _ x

theorem bootSide_pwrMod {d e : Dev} (f : PwrSt → PwrSt) (h : bootSide d = bootSide e) :
    bootSide (pwrMod f d) = bootSide (pwrMod f e) := by
  simp only [bootSide, Prod.mk.injEq] at h
  obtain ⟨hhost, hpwr, hrun, hlatch⟩ := h
  simp only [bootSide, pwrMod_host, pwrMod_pwr, pwrMod_time, pwrMod_hlt, hhost, hpwr, hrun, hlatch]

theorem bootSide_idnBoot (keyOk : Bool) : bootSide (idnBoot keyOk d) = bootSide d := by
  simp only [idnBoot]
  rw [when_keeps bootSide (bootSide_idnRaise _ _ _), when_keeps bootSide (bootSide_idnRaise _ _ _)]
  rfl

/-- The chosen bank runs: it waits for the field die at stage 0x30, device time runs, and the supply it started at is kept. -/
theorem firmwareStart_leaves (bank : Bool) (failed : Option Bool) (keyOk : Bool) (mv : Nat) :
    (firmwareStart bank failed keyOk mv d).host = { d.host with fwBank := bank, stage := 0x30 } ∧
      (firmwareStart bank failed keyOk mv d).time.running = true ∧ (firmwareStart bank failed keyOk mv d).pwr.vlog = mv ∧
      (firmwareStart bank failed keyOk mv d).hlt.fieldLatch = d.hlt.fieldLatch := by
  unfold firmwareStart
  extract_lets d1 time host d2 d3 l lv d4 d5
  have h3 : bootSide d3 = bootSide d2 := by
    show bootSide (if _ then _ else _) = _
    split
    · exact bootSide_gnsHold d2
    · rfl
  have h4 : bootSide d4 = bootSide (pwrMod (fun p => { p with level := l, coreMv := lv }) d2) :=
    bootSide_pwrMod _ ((bootSide_enablesOff d3).trans h3)
  have h5 : bootSide d5 = bootSide d4 := by
    cases failed with
    | none => rfl
    | some b => exact bootSide_raise d4 _ _ _ _
  have hall := ((bootSide_idnBoot d5 keyOk).trans h5).trans h4
  exact ⟨congrArg (·.1) hall, congrArg (·.2.2.1) hall, congrArg (·.2.1.vlog) hall, congrArg (·.2.2.2) hall⟩

end

/-! ## The start of the field die

It finds the link in lock, tests itself, and starts the blocks where an autostart waits for it: none of it is the host's. -/

theorem host_forEach {α : Type} {f : α → Dev → Dev} (h : ∀ x d, (f x d).host = d.host) (xs : List α) (d : Dev) :
    (forEach xs f d).host = d.host :=
  forEach_keeps (·.host) h xs d

theorem host_when {b : Bool} {f : Dev → Dev} {d : Dev} (h : (f d).host = d.host) : (when b f d).host = d.host :=
  when_keeps (·.host) h

section
variable (d : Dev)

/-! ### The valves and the inputs in lock again -/

theorem diag_host (vd kind : Nat) : (diag vd kind d).host = d.host := by
  simp only [diag]
  repeat' split
  all_goals rfl

theorem vlvDiag_host (n : Fin 16) (kind : Nat) : (vlvDiag n kind d).host = d.host := diag_host _ n kind

theorem endNever_host (n : Fin 16) (cause : Nat) : (endNever n cause d).host = d.host := by
  simp only [endNever]
  split <;> rfl

theorem deferReject_host (n : Fin 16) : (deferReject n d).host = d.host := by
  simp only [deferReject, endNever_host, vlvDiag_host]

theorem afterDelay_host (n : Fin 16) : (afterDelay n d).host = d.host := by
  simp only [afterDelay]
  repeat' split
  · exact deferReject_host d n
  · rfl
  · rfl

theorem beginProfile_host (n : Fin 16) (p : Profile) : (beginProfile n p d).host = d.host := by
  simp only [beginProfile]
  repeat' split
  · rfl
  · exact (afterDelay_host _ n :)
  · rfl

theorem nextBegins_host (n : Fin 16) : (nextBegins n d).host = d.host := by
  simp only [nextBegins]
  repeat' split
  · rfl
  · rfl
  · rfl
  · exact beginProfile_host d n _

theorem wakeAll_host : (wakeAll d).host = d.host := by
  refine host_forEach (fun n e => ?_) _ d
  split <;> rfl

theorem vlvRelock_host : (vlvRelock d).host = d.host :=
  (wakeAll_host _).trans (host_forEach (fun n d => nextBegins_host d n) _ d)

theorem fioRelock_host : (fioRelock d).host = d.host := rfl

theorem fieldRelock_host : (fieldRelock d).host = d.host := by
  simp only [fieldRelock, fioRelock_host, vlvRelock_host, liftMod_host]

theorem lockBoth_host : (lockBoth d).host = d.host := by
  simp only [lockBoth, apply_ite Dev.host, liftMod_host, pwrMod_host, fieldRelock_host, ite_self]

/-! ### The self-test -/

theorem groomAbandon_host (sleep : Bool) : (groomAbandon sleep d).host = d.host := by
  simp only [groomAbandon]
  split <;> rfl

theorem advanceEpoch_host (role : Nat) : (advanceEpoch role d).host = d.host := by
  simp only [advanceEpoch]
  split <;> rfl

theorem crossover_host (old new role : Nat) : (crossover old new role d).host = d.host := by
  simp only [crossover, raise_host]
  exact (advanceEpoch_host _ role).trans (groomAbandon_host _ false)

theorem doubleFault_host (k : Nat) : (doubleFault k d).host = d.host := by
  simp only [doubleFault, raise_host]

theorem modulatorFault_host (ch : Fin 32) : (modulatorFault ch d).host = d.host := by
  simp only [modulatorFault]
  repeat' split
  · rfl
  · exact crossover_host d _ _ _
  · simp only [raise_host, afeMod_host]
  · simp only [doubleFault_host, raise_host, afeMod_host]

theorem selfTestEvent_host (kind n : Nat) : (selfTestEvent kind n d).host = d.host := by
  simp only [selfTestEvent, raise_host, takeFree_host]

theorem selfTest_host (t : FieldTest) : (selfTest t d).host = d.host := by
  unfold selfTest
  extract_lets hs d1 each d2 d3 afe d4 d5
  have heach : ∀ k n m e, (each k n m e).host = e.host :=
    fun k n m e => host_forEach (fun i e => selfTestEvent_host e k i) _ e
  have h2 : d2.host = d.host := by simp only [d2, heach]; rfl
  have h3 : d3.host = d2.host := host_when (selfTestEvent_host d2 5 0)
  have h5 : d5.host = d4.host := host_forEach (fun n e => raise_host e _ _ _ _) _ d4
  have h4 : d4.host = d3.host := rfl
  rw [host_forEach (fun ch e => modulatorFault_host e ch), h5, h4, h3, h2]

/-! ### The blocks and the records of an autostart -/

theorem closeLeft_host : (closeLeft d).host = d.host :=
  host_forEach (fun l e => by simp only [closeLot, svcEv, raise_host]) _ _

theorem ctlTransAt_host (k : Nat) (i : LI) (f : CtlInst → CtlInst) : (ctlTransAt k i f d).host = d.host := by
  simp only [ctlTransAt]
  split
  · rfl
  · simp only [raise_host, ctlMod_host]

theorem ctlTrans_host (i : LI) (f : CtlInst → CtlInst) : (ctlTrans i f d).host = d.host := ctlTransAt_host d 0 i f

theorem ctlBegin_host (i : LI) (m : Nat) : (ctlBegin i m d).host = d.host := by
  simp only [ctlBegin]
  split
  · rfl
  · rw [ctlTrans_host]
    split <;> rfl

theorem ctlStop_host (i : LI) : (ctlStop i d).host = d.host := ctlTrans_host _ i _

theorem ctlWriteOut_host (w : Nat) (v : Int) : (ctlWriteOut w v d).host = d.host := by
  simp only [ctlWriteOut]
  repeat' split
  all_goals rfl

theorem fallbackWritten_host (i : LI) (o : Nat) : (fallbackWritten i o d).host = d.host := by
  simp only [fallbackWritten]
  split
  · rw [ctlWriteOut_host, ctlMod_host]
  · rfl

theorem ctlHook_host (a : Nat) : (ctlHook a d).host = d.host := by
  simp only [ctlHook]
  split
  · split
    · split
      · exact ctlTrans_host d _ _
      · rfl
    · split
      · repeat' split
        · rfl
        · exact ctlStop_host d _
        · exact ctlBegin_host d _ _
        · rfl
        · rfl
      · repeat' split
        · rfl
        · exact fallbackWritten_host d _ _
        · rfl
  · rfl

theorem openValue_host (a : Nat) (ws : List Word) : (openValue a ws d).host = d.host := by
  simp only [openValue]
  repeat' split
  all_goals rfl

theorem openProp_host (n : Fin 16) (v : Nat) : (openProp n v d).host = d.host := rfl

theorem openConfigured_host : (openConfigured d).host = d.host := by
  simp only [openConfigured]
  rw [host_forEach (fun n e => openProp_host e n _), host_forEach fun n e => ?_]
  split
  · rfl
  · exact openValue_host _ _ _

theorem startRelease_host : (startRelease d).host = d.host := host_when rfl

theorem vlvStart_host : (vlvStart d).host = d.host := host_forEach (fun n e => vlvMod_host e n _) _ d

theorem startBlocks_host : (startBlocks d).host = d.host := by
  unfold startBlocks
  extract_lets was first svc d1 d2 d3 d4
  have h2 : d2.host = d1.host := host_when (host_forEach (fun n e => pinMod_host e n _) _ d1)
  have h3 : d3.host = d2.host := vlvStart_host d2
  have h4 : d4.host = d3.host := host_forEach (fun i e => host_when (ctlHook_host e _)) _ d3
  have h1 : d1.host = d.host := rfl
  rw [startRelease_host, apply_ite Dev.host, openConfigured_host, ite_self, h4, h3, h2, h1]

theorem svcEv_host (code kind inst : Nat) (x : List Byte) : (svcEv code kind inst x d).host = d.host :=
  raise_host d 6 code _ x

theorem setParam_host (a : Nat) (ws : List Word) : (setParam a ws d).host = d.host := rfl

theorem writeModelSet_host (i : Fin 6) (k : Nat) : (writeModelSet i k d).host = d.host := by
  simp only [writeModelSet]
  split <;> rfl

theorem obsWrite_host (i : Fin 6) : (obsWrite i d).host = d.host := by
  simp only [obsWrite]
  rw [host_forEach (fun k e => writeModelSet_host e i k), dryMod_host, setParam_host, ctlHook_host, setParam_host]

theorem setClaims_host (owner mask : Nat) : (setClaims owner mask d).host = d.host := rfl

theorem brnMod_host (b : Fin 4) (f : Burner → Burner) : (brnMod b f d).host = d.host := rfl

theorem chainMod_host (c : Fin 4) (f : Chain → Chain) : (chainMod c f d).host = d.host := rfl

theorem dryClaim_host (i : Fin 6) : (dryClaim i d).host = d.host := by
  simp only [dryClaim]
  rw [host_forEach (fun c e => chainMod_host e c _), host_forEach (fun b e => brnMod_host e b _), setClaims_host]

theorem dryResume_host (i : Fin 6) : (dryResume i d).host = d.host := rfl

theorem dryTo_host (i : Fin 6) (new cause : Nat) : (dryTo i new cause d).host = d.host := by
  simp only [dryTo, dryResume_host, svcEv_host, dryMod_host]

theorem dryLotOpen_host (i : Fin 6) : (dryLotOpen i d).host = d.host := by
  simp only [dryLotOpen]
  split
  · rfl
  · simp only [dryMod_host, openLot, svcEv_host]

theorem dryBegin_host (i : Fin 6) (cdr : Option Nat) (phase cause : Nat) : (dryBegin i cdr phase cause d).host = d.host := by
  simp only [dryBegin, apply_ite Dev.host, dryLotOpen_host, dryTo_host, obsWrite_host, ite_self, dryMod_host, dryClaim_host]

theorem dryResumeBoot_host (i : Fin 6) (r : Resume) : (dryResumeBoot i r d).host = d.host := by
  simp only [dryResumeBoot]
  split
  · rfl
  · simp only [svcEv_host, dryMod_host, dryLotOpen_host, dryBegin_host]

theorem svcBoot_host (auto : Bool) : (svcBoot auto d).host = d.host := by
  simp only [svcBoot]
  split
  · rw [host_forEach fun i e => ?_, closeLeft_host]
    split
    · exact dryResumeBoot_host e i _
    · rfl
  · exact closeLeft_host d

theorem autostart_host (slot : Nat) : (autostart slot d).host = d.host := by
  simp only [autostart, svcBoot_host, startBlocks_host, raise_host, pwrMod_host]

theorem fieldPassed_host : (fieldPassed d).host = d.host := by
  simp only [fieldPassed]
  split
  · rw [autostart_host, pwrMod_host]
  · rfl

/-- The start of the field die leaves the host's registers. -/
theorem fieldStart_host (t : FieldTest) : (fieldStart t d).host = d.host := by
  simp only [fieldStart]
  split
  · exact lockBoth_host d
  · rw [fieldPassed_host, selfTest_host, lockBoth_host]

end
end Sys2Proof.Machine
end


-- ==== Sys2Proof/Proofs/PowerAndReset.lean ====
section
/-!
Power, the resets of D0 and of both dies, and the rows of start-up (R485, R490 to R495, R530, R542).
-/
namespace Sys2Proof.Machine

section
variable (d : Dev)

/-- A reset of the control die leaves it unlatched. -/
theorem controlReset_ctlLatch (cause : Nat) : (controlReset cause d).hlt.ctlLatch = false := by
  unfold controlReset
  extract_lets cut d1 gate cmd afe dlx vlv svc bus ch hlt idn
  have hlatch : hlt.ctlLatch = false := rfl
  clear_value cut d1 hlt
  obtain ⟨_, _, _, _, h⟩ := retiredPlaces_units _
  rw [h, ← hlatch]

/-! ## Power and resets -/

theorem powerOn_unpowered {d : Dev} (pins : Fin 4) (hoff : d.pwr.powered = false) (hlatch : d.hlt.ctlLatch = false) :
    powerOn pins d = { d with
      pwr := { d.pwr with powered := true, bootPins := pins }
      host := { d.host with bootMode := pins, cause := 0x00 } } :=
  if_neg (by simp [hoff, hlatch])

theorem powerOn_stays {d : Dev} (pins : Fin 4) (h : d.pwr.powered = true ∨ d.hlt.ctlLatch = true) : powerOn pins d = d :=
  if_pos (by simpa using h)

/-- What a reset of D0 starts again (R40, R490). -/
theorem chaletReset_leaves (cause : Nat) (powered : Bool) :
    (chaletReset cause powered d).host.cause = cause ∧ (chaletReset cause powered d).pwr.powered = powered ∧
      (chaletReset cause powered d).gate.bib = 0 ∧ (chaletReset cause powered d).gate.wrap = 0 ∧
      (chaletReset cause powered d).time.tick = 0 ∧ (chaletReset cause powered d).hlt.ctlLatch = false := by
  have hhost := (controlReset_leaves cause d).1
  have hlatch := controlReset_ctlLatch d cause
  simp [chaletReset, hhost, hostReset, hlatch, GateSt.reset, TimeSt.reset]

theorem brownoutFull_resets {d : Dev} (hon : d.pwr.powered = true) (hfull : d.pwr.lowPower = false) :
    brownoutFull d = controlReset 0x03 d :=
  if_neg (by simp [hon, hfull])

/-! ## Start-up -/

theorem startUp_stays {keyOk a b : Bool} {mv : Nat} {test : Option FieldTest} {d : Dev}
    (h : d.pwr.powered = false ∨ d.host.limp = true ∨ d.host.stage ≠ 0) : startUp keyOk a b mv test d = d := by
  refine if_pos ?_
  rcases h with h | h | h <;> simp [h]

/-- The loader runs with D1, D5 and D6 alone (R492). -/
theorem loaderStart_leaves : (loaderStart d).host.stage = 0xF0 ∧ (loaderStart d).host.hrdy = d.host.hrdy ∧
    domState (loaderStart d) 1 = 0 ∧ domState (loaderStart d) 6 = 0 := by
  refine ⟨rfl, rfl, ?_, ?_⟩
  · simp [domState, loaderStart, vAt, pwrMod, Vector.get_eq_getElem]
  · simp [domState, loaderStart, vAt, pwrMod, Vector.get_eq_getElem]

end

theorem bankChoice_none {d : Dev} : bankChoice d false false = none := by simp [bankChoice]

/-- The bank chosen for the next reset runs where its signature holds, else the other where that one's does (R28). -/
theorem bankChoice_some {d : Dev} {a b bank : Bool}
    (h : (if d.cmd.fw.nextBank then b else a) = true ∧ bank = d.cmd.fw.nextBank ∨
      (if d.cmd.fw.nextBank then b else a) = false ∧ (if d.cmd.fw.nextBank then a else b) = true ∧
        bank = !d.cmd.fw.nextBank) :
    bankChoice d a b = some (bank, if bank = d.cmd.fw.nextBank then none else some d.cmd.fw.nextBank) := by
  rcases h with ⟨hok, rfl⟩ | ⟨hbad, hok, rfl⟩
  · simp [bankChoice, hok]
  · cases hnext : d.cmd.fw.nextBank <;> simp_all [bankChoice]

section
variable {keyOk a b bank : Bool} {mv : Nat} {test : Option FieldTest} {failed : Option Bool} {d : Dev}
variable (hon : d.pwr.powered = true) (hlimp : d.host.limp = false) (hstage : d.host.stage = 0)
include hon hlimp hstage

theorem startUp_loader (h : d.host.bootMode = 3 ∨ d.host.loaderNext = true ∨ a = false ∧ b = false) :
    startUp keyOk a b mv test d = loaderStart (bootRom d) := by
  rw [startUp, if_neg (by simp [hon, hlimp, hstage])]
  by_cases hask : d.host.bootMode = 3 ∨ d.host.loaderNext = true
  · exact if_pos (by simpa [bootRom] using hask)
  · obtain ⟨rfl, rfl⟩ : a = false ∧ b = false := by tauto
    simp only [bankChoice_none, ite_self]

section
variable (hmode : d.host.bootMode ≠ 3) (hnext : d.host.loaderNext = false)
variable (hbank : bankChoice (bootRom d) a b = some (bank, failed))
include hmode hnext hbank

theorem startUp_waits (h : test = none ∨ d.hlt.fieldLatch = true) :
    startUp keyOk a b mv test d = firmwareStart bank failed keyOk mv (bootRom d) := by
  have hask : ¬((bootRom d).host.bootMode = 3 || (bootRom d).host.loaderNext) = true := by simp [bootRom, hmode, hnext]
  have hlatch := (firmwareStart_leaves (bootRom d) bank failed keyOk mv).2.2.2
  rw [startUp, if_neg (by simp [hon, hlimp, hstage])]
  simp only [if_neg hask, hbank]
  cases test with
  | none => rfl
  | some t => exact if_pos (hlatch.trans (h.resolve_left (Option.some_ne_none t)))

theorem startUp_finishes {t : FieldTest} (hlatch : d.hlt.fieldLatch = false) :
    startUp keyOk a b mv (some t) d = bootFinish (fieldStart t (firmwareStart bank failed keyOk mv (bootRom d))) := by
  have hask : ¬((bootRom d).host.bootMode = 3 || (bootRom d).host.loaderNext) = true := by simp [bootRom, hmode, hnext]
  have hkept := (firmwareStart_leaves (bootRom d) bank failed keyOk mv).2.2.2
  rw [startUp, if_neg (by simp [hon, hlimp, hstage])]
  simp only [if_neg hask, hbank]
  exact if_neg (by rw [hkept]; exact Bool.eq_false_iff.mp hlatch)

end

end

/-! ## The field die's start, and its watchdog -/

theorem liftTimeout_due {d : Dev} (hstage : d.host.stage = 0x30) (hlock : d.lift.up.inLock = false) :
    liftTimeout d = bootFinish d :=
  if_pos (by simp [hstage, hlock])

theorem liftTimeout_stays {d : Dev} (h : d.host.stage ≠ 0x30 ∨ d.lift.up.inLock = true) : liftTimeout d = d := by
  refine if_neg ?_
  rcases h with h | h <;> simp [h]

theorem fieldDieStartUp_stays {t : FieldTest} {d : Dev}
    (h : d.pwr.fieldUp = true ∨ d.hlt.fieldLatch = true ∨ d.pwr.fStep = 5 ∨ downOn d = false) : fieldDieStartUp t d = d := by
  refine if_pos ?_
  rcases h with h | h | h | h <;> simp [h]

theorem fieldDieStartUp_starts {t : FieldTest} {d : Dev} (hup : d.pwr.fieldUp = false) (hlatch : d.hlt.fieldLatch = false)
    (hstep : d.pwr.fStep ≠ 5) (hdown : downOn d = true) (hstage : d.host.stage ≠ 0x30) :
    fieldDieStartUp t d = fieldStart t d := by
  rw [fieldDieStartUp, if_neg (by simp [hup, hlatch, hstep, hdown])]
  exact if_neg (by rw [fieldStart_host]; exact hstage)

theorem fieldWatchdog_holds {d : Dev} (h : d.pwr.fieldPow = true) : (fieldWatchdog d).pwr = fieldHeld .svcRelease d.pwr := by
  rw [fieldWatchdog, if_pos h, (fieldReset_leaves d .svcRelease).1]

theorem fieldWatchdog_stays {d : Dev} (h : d.pwr.fieldPow = false) : fieldWatchdog d = d := by
  simp [fieldWatchdog, h]

end Sys2Proof.Machine

namespace Sys2Proof
open Machine

/-! ## The statement, by its rows -/

section
variable (s : State)

theorem powerOnReset_clears : ∃ t, exec .powerOnReset s = .next t ∧ t.pending = s.pending ∧ t.mem = [] ∧ t.snap = [] ∧
    t.dev.pwr.powered = false ∧ t.dev.gate.bib = 0 ∧ t.dev.gate.wrap = 0 ∧ t.dev.time.tick = 0 ∧
    t.dev.hlt.ctlLatch = false := by
  obtain ⟨-, hpowered, hbib, hwrap, htick, hlatch⟩ := chaletReset_leaves s.dev 0x00 false
  exact ⟨_, rfl, rfl, rfl, rfl, hpowered, hbib, hwrap, htick, hlatch⟩

variable {s} (hon : s.dev.pwr.powered = true)
include hon

theorem nrstRelease_resets (pins : Fin 4) : ∃ t, exec (.nrstRelease pins) s = .next t ∧ t.pending = s.pending ∧
    t.mem = s.mem ∧ t.snap = [] ∧ t.dev.host.cause = 0x01 ∧ t.dev.host.bootMode = pins ∧ t.dev.host.stage = 0 ∧
    t.dev.gate.bib = s.dev.gate.bib ∧ t.dev.gate.wrap = s.dev.gate.wrap ∧ t.dev.time = s.dev.time ∧
    t.dev.pwr.fieldPow = false := by
  have hx : exec (.nrstRelease pins) s = losingSnap (nrstRelease pins) s := if_pos hon
  obtain ⟨t, hexec, hpending, hmem, hsnap, hdev⟩ := losingSnap_leaves hx
  obtain ⟨hhost, htime, hbib, hwrap, -, -, -, hpow, -⟩ :=
    bothReset_leaves (pwrMod (fun p => { p with bootPins := pins }) s.dev) 0x01
  rw [← nrstRelease, ← hdev] at hhost htime hbib hwrap hpow
  refine ⟨t, hexec, hpending, hmem, hsnap, ?_, ?_, ?_, hbib, hwrap, htime, hpow⟩
  all_goals rw [hhost]; rfl

theorem chaletContentLoss_clears : ∃ t, exec .chaletContentLoss s = .next t ∧ t.pending = s.pending ∧ t.mem = [] ∧
    t.dev.host.cause = 0x03 ∧ t.dev.pwr.powered = true ∧ t.dev.gate.bib = 0 ∧ t.dev.gate.wrap = 0 ∧
    t.dev.time.tick = 0 := by
  have hx : exec .chaletContentLoss s = losing (chaletReset 0x03 true) s := if_pos hon
  obtain ⟨hcause, hpowered, hbib, hwrap, htick, -⟩ := chaletReset_leaves s.dev 0x03 true
  exact ⟨_, hx, rfl, rfl, hcause, hpowered, hbib, hwrap, htick⟩

theorem coreBrownoutFull_resets (hfull : s.dev.pwr.lowPower = false) : ∃ t, exec .coreBrownoutFull s = .next t ∧
    t.pending = s.pending ∧ t.mem = s.mem ∧ t.snap = [] ∧ t.dev.host.cause = 0x03 ∧ t.dev.gate.bib = s.dev.gate.bib ∧
    t.dev.time = s.dev.time ∧ t.dev.pwr.fieldPow = s.dev.pwr.fieldPow := by
  have hx : exec .coreBrownoutFull s = losingSnap brownoutFull s := if_neg (by simp [hon, hfull])
  obtain ⟨t, hexec, hpending, hmem, hsnap, hdev⟩ := losingSnap_leaves hx
  rw [brownoutFull_resets hon hfull] at hdev
  obtain ⟨hhost, hpwr, htime, -⟩ := controlReset_leaves 0x03 s.dev
  have hbib := (controlReset_control s.dev 0x03).1
  rw [← hdev] at hhost hpwr htime hbib
  refine ⟨t, hexec, hpending, hmem, hsnap, ?_, hbib, htime, ?_⟩
  · rw [hhost]
    rfl
  · rw [hpwr]
    rfl

variable {keyOk a b : Bool} {mv : Nat} {test : Option FieldTest}
variable (hlimp : s.dev.host.limp = false) (hstage : s.dev.host.stage = 0)
include hlimp hstage

theorem startUp_loads (h : s.dev.host.bootMode = 3 ∨ s.dev.host.loaderNext = true ∨ a = false ∧ b = false) :
    ∃ d, Takes (.startUp keyOk a b mv test) s d ∧ d.host.stage = 0xF0 ∧ d.host.hrdy = true ∧ domState d 1 = 0 ∧
      domState d 6 = 0 := by
  obtain ⟨hstage', hrdy, hd1, hd6⟩ := loaderStart_leaves (bootRom s.dev)
  exact ⟨_, takes_of_taking _ rfl (startUp_loader hon hlimp hstage h), hstage', hrdy, hd1, hd6⟩

end

/-- Settles O55: what each reset leaves is said once (`bothReset_leaves`, `chaletReset_leaves`, `controlReset_leaves`), start-up
goes on by the boot ROM's choice, and the field die's start leaves the host's registers (`fieldStart_host`). That the reset by
NRST and the brownout keep the memory is log 2, that the field die runs on through the brownout log 57, the operands of the rows
log 107. -/
theorem resetsAndStartUp : Obligations.ResetsAndStartUp := by
  refine ⟨fun s pins => ⟨?on, ?stays, powerOnReset_clears s, fun hon => ?resets, fun hoff => ?unpowered,
      fun h => ?noBrownout⟩,
    fun s keyOk a b mv test => ⟨fun h => takes_of_taking _ rfl (startUp_stays h), fun hon hlimp hstage =>
      ⟨startUp_loads hon hlimp hstage, fun hmode hnext bank hbank => ?firmware⟩⟩,
    fun s t => ⟨?due, ?notDue, ?noStart, ?starts, fun hpow => ?watchdog, ?noWatchdog⟩⟩
  case on => exact fun hoff hlatch => moves_of_quiet _ rfl (powerOn_unpowered pins hoff hlatch)
  case stays => exact fun h => stays_of_quiet _ rfl (powerOn_stays pins h)
  case resets => exact ⟨nrstRelease_resets hon pins, chaletContentLoss_clears hon, coreBrownoutFull_resets hon⟩
  case unpowered => exact ⟨if_neg (by simp [hoff]), if_neg (by simp [hoff])⟩
  case noBrownout => exact if_pos (by rcases h with h | h <;> simp [h])
  case firmware =>
    intro failed d
    have hchoice : bankChoice (bootRom s.dev) a b = some (bank, failed) := bankChoice_some hbank
    obtain ⟨hhost, hrun, hvlog, -⟩ := firmwareStart_leaves (bootRom s.dev) bank failed keyOk mv
    refine ⟨⟨congrArg (·.stage) hhost, congrArg (·.fwBank) hhost, hrun, hvlog⟩, fun h => ?_, fun t ht hlatch => ?_⟩
    · exact takes_of_taking _ rfl (startUp_waits hon hlimp hstage hmode hnext hchoice h)
    · subst ht
      exact takes_of_taking _ rfl (startUp_finishes hon hlimp hstage hmode hnext hchoice hlatch)
  case due => exact fun hstage hlock => takes_of_taking _ rfl (liftTimeout_due hstage hlock)
  case notDue => exact fun h => takes_of_taking _ rfl (liftTimeout_stays h)
  case noStart => exact fun h => takes_of_taking _ rfl (fieldDieStartUp_stays h)
  case starts => exact fun hup hlatch hstep hdown hstage =>
    takes_of_taking _ rfl (fieldDieStartUp_starts hup hlatch hstep hdown hstage)
  case watchdog =>
    have hpwr := fieldWatchdog_holds hpow
    exact ⟨_, moves_of_quiet fieldWatchdog rfl rfl, congrArg (·.hold) hpwr, congrArg (·.holdEnd) hpwr,
      congrArg (·.fieldUp) hpwr⟩
  case noWatchdog => exact fun h => stays_of_quiet _ rfl (fieldWatchdog_stays h)

end Sys2Proof
end
